-- ==== Sys2Proof/Word.lean ====
section
/-!
DEFINITION. The word types of the block and their plainest arithmetic: 64-bit words (g registers, instruction
words), 32-bit registers of BAR0 and the tile windows, bytes, and the reading of bits of a word.
-/
namespace Sys2Proof

/-- A 64-bit word: a g register (Table 2-1), one slot of a bundle (R71). -/
abbrev Word := BitVec 64
/-- A 32-bit register of BAR0 or of a tile CSR window (Table 2-6). -/
abbrev Half := BitVec 32
/-- One byte of any memory of the module. -/
abbrev Byte := BitVec 8
/-- A vector register, or one 128-byte row of an accumulator half (Table 2-1). -/
abbrev Row := BitVec 1024
/-- A logical tile ID, 32·x + y (R5). -/
abbrev TileId := BitVec 11

/-- Bits `[hi:lo]` of a natural number. -/
def bits (n hi lo : Nat) : Nat := (n >>> lo) % 2 ^ (hi + 1 - lo)

/-- Bit `i` of a natural number, as 0 or 1. -/
def bit (n i : Nat) : Nat := (n >>> i) % 2

/-- A Bool as 0 or 1. -/
def b2n (b : Bool) : Nat := if b then 1 else 0

/-- The value of a `w`-bit two's complement pattern `n`. -/
def toSigned (w n : Nat) : Int :=
  if 2 * (n % 2 ^ w) < 2 ^ w then (n % 2 ^ w : Nat) else (n % 2 ^ w : Nat) - (2 ^ w : Nat)

/-- The `w`-bit two's complement pattern of an integer, wrapping. -/
def ofSigned (w : Nat) (i : Int) : Nat := (i % (2 ^ w : Nat)).toNat

end Sys2Proof
end

