-- ==== Sys2Proof/Syntax.lean ====
section
/-!
DEFINITION. The commands of the block: the operand formats of tile words (Tables 3-1 to 3-9) and the one inductive of
commands, one constructor per row of spec/opcode_table.json.
-/
namespace Sys2Proof

/-- Predication header of a word: PRED and PINV of Table 3-1. -/
structure Hdr where
  pred : BitVec 3
  pinv : Bool
  deriving DecidableEq, Repr

/-- Format R (Table 3-4). -/
structure OpR where
  rd : BitVec 5
  ra : BitVec 5
  rb : BitVec 5
  rc : BitVec 5
  fmt : BitVec 4
  rm : BitVec 3
  vm : BitVec 5
  fn : BitVec 16
  deriving DecidableEq, Repr

/-- Format I (Table 3-5); `res` is bits [35:32]. -/
structure OpI where
  rd : BitVec 5
  ra : BitVec 5
  sh : BitVec 2
  res : BitVec 4
  imm : BitVec 32
  deriving DecidableEq, Repr

/-- Format M (Table 3-6). -/
structure OpM where
  rt : BitVec 5
  rb : BitVec 5
  off : BitVec 16
  stride : BitVec 10
  fmt : BitVec 4
  vm : BitVec 5
  mode : BitVec 3
  deriving DecidableEq, Repr

/-- Format X (Table 3-7); `res` is bits [15:0]. -/
structure OpX where
  desc : BitVec 15
  ra : BitVec 5
  sid : BitVec 12
  res : BitVec 16
  deriving DecidableEq, Repr

/-- Format S (Table 3-8); `res` is bits [13:0]. -/
structure OpS where
  sid : BitVec 12
  ra : BitVec 5
  reg : Bool
  count : BitVec 16
  res : BitVec 14
  deriving DecidableEq, Repr

/-- Format T (Table 3-9); `res` is bits [6:0]. -/
structure OpT where
  acc : BitVec 3
  rb : BitVec 5
  rc : BitVec 5
  fmt : BitVec 4
  semi : BitVec 3
  rm : BitVec 3
  fuse : BitVec 3
  nrow : BitVec 5
  clr : Bool
  row : BitVec 5
  err : Bool
  acc2 : BitVec 3
  res : BitVec 7
  deriving DecidableEq, Repr

/-- Who makes a BAR0 access (R491, R492): the physical function, the Lamplighter, or virtual function p + 1. -/
inductive Who where
  | pf
  | lmc
  | vf (p : BitVec 5)
  deriving DecidableEq, Repr

/-- The way of a frame that goes by detour (R425): the Y or Z port through whose ring side it leaves, whether it goes
back from the substituted rank, the X position of the lantern, and that of the position lost. DESIGN CHOICE: assumption 43. -/
structure Detour where
  port : BitVec 3
  back : Bool
  xpos : BitVec 7
  home : BitVec 7
  deriving DecidableEq, Repr

/-- A Lampline frame (Table 14-4). TYPE is not a part: the command names it, and `type` holds it for sent frames. Beside the
header stand two things that no field of it gives: that a skip link carries the frame as X traffic (R422), and its detour
(R425). DESIGN CHOICE: assumption 43. -/
structure Frame where
  type : BitVec 4 := 0
  hole : Bool := false
  late : Bool := false
  sealed : Bool := false
  last : Bool := false
  seq : BitVec 16 := 0
  cid : BitVec 12 := 0
  orig : BitVec 7 := 0
  dest : BitVec 7 := 0
  hops : BitVec 9 := 0
  ncontrib : BitVec 7 := 0
  ack : BitVec 16 := 0
  rply : Bool := false
  hold : Bool := false
  ford : BitVec 8 := 0
  crc : BitVec 32 := 0
  aux : BitVec 128 := 0
  payload : BitVec 8192 := 0
  skip : Bool := false
  detour : Option Detour := none
  deriving DecidableEq, Repr

/-- What an HDM decoder is programmed with (R472): the host range, the interleave ways and granularity, the DPAs skipped before
its own, and whether it locks when it commits. -/
structure Hdm where
  base : BitVec 64 := 0
  size : BitVec 64 := 0
  ways : Nat := 1
  gran : Nat := 256
  skip : BitVec 64 := 0
  lock : Bool := false
  deriving DecidableEq, Repr

/-- What training of the CXL link finds (R461, R462): the highest common rate (5 32 GT/s, 6 64 GT/s, 7 128 GT/s), the
lanes that both ends can use, lane reversal, and whether the host negotiates 256-byte flits. -/
structure LinkObs where
  rate : BitVec 4
  width : BitVec 6
  reversed : Bool
  flit : Bool
  deriving DecidableEq, Repr

/-- What the running step of a start meets (Table 19-5): the straps; the physical columns 0–32 of each die in which BIST finds
defects; HBM training succeeds; the retained partition map fails its check; the working lanes of each port's training; a link that
the step needs is lost; and the training of the CXL link. -/
structure StartObs where
  strap : BitVec 2
  defectsW : BitVec 33
  defectsE : BitVec 33
  trained : Bool
  mapBad : Bool
  lanes : Vector (BitVec 16) 8
  lost : Bool
  link : LinkObs
  deriving DecidableEq, Repr

/-- What the Dimmer measures in a control period (R533): input power in W over the last 1 ms, energy in mJ since the last
period, the hottest junction in °C, the input voltage in mV, and the rate in units of 10 Mbeat/s that the limits on power,
current and temperature allow each die. -/
structure DimObs where
  watts : BitVec 16
  mj : BitVec 32
  tj : BitVec 8
  millivolt : BitVec 17
  rateW : BitVec 8
  rateE : BitVec 8
  deriving DecidableEq, Repr

/-- A kind of unit of the Dimmer (Table 19-2): a die, a block, the module. -/
inductive PowerUnit where
  | die
  | block
  | module
  deriving DecidableEq, Repr

/-- The sensors that PLDM reads (R562). -/
inductive Sensor where
  | power
  | junction
  | hbm
  deriving DecidableEq, Repr

/-- A read of registers: of 1, 2, 4 or 8 bytes at a BAR0 offset (R489); of a 32-bit register of the vendor DVSEC, of the
configuration space of a function (Table 16-8), or of BAR2 (R464). -/
inductive RegRead where
  | bar0 (who : Who) (off : BitVec 26) (size : Nat)
  | dvsec (off : BitVec 12)
  | config (fn : BitVec 6) (off : BitVec 12)
  | bar2 (off : BitVec 18)
  deriving DecidableEq, Repr

/-- A write of a register: 32 or 64 bits at a BAR0 offset; a write of fewer bytes there (R489); the program of an HDM decoder,
and its COMMIT bit; the ATS enable of a function. -/
inductive RegWrite where
  | bar0 (who : Who) (off : BitVec 26) (v : BitVec 32)
  | wide (who : Who) (off : BitVec 26) (v : BitVec 64)
  | short (who : Who) (off : BitVec 26)
  | hdm (i : BitVec 2) (d : Hdm)
  | hdmCommit (i : BitVec 2) (on : Bool)
  | ats (fn : BitVec 6) (on : Bool)
  deriving DecidableEq, Repr

/-- The commands: one constructor per row of spec/opcode_table.json. A tile word carries its tile, the header and the fields
of its format, and the raw word of the bundle's other slot. An event names the unit at which it happens, and whatever the
outside world contributes to it: measured quantities, the contents of host memory that the module reads, the answer of a
host, the fields of a received frame. -/
inductive Instr where
  /-- NOP (R78). -/
  | nop (t : TileId) (w : BitVec 64) (other : BitVec 64)
  /-- ADD (R110). -/
  | add (t : TileId) (h : Hdr) (o : OpR) (other : BitVec 64)
  /-- SUB (R110). -/
  | sub (t : TileId) (h : Hdr) (o : OpR) (other : BitVec 64)
  /-- AND (R110). -/
  | and (t : TileId) (h : Hdr) (o : OpR) (other : BitVec 64)
  /-- OR (R110). -/
  | or (t : TileId) (h : Hdr) (o : OpR) (other : BitVec 64)
  /-- XOR (R110). -/
  | xor (t : TileId) (h : Hdr) (o : OpR) (other : BitVec 64)
  /-- ANDN (R110). -/
  | andn (t : TileId) (h : Hdr) (o : OpR) (other : BitVec 64)
  /-- SHL (R110). -/
  | shl (t : TileId) (h : Hdr) (o : OpR) (other : BitVec 64)
  /-- SHR (R110). -/
  | shr (t : TileId) (h : Hdr) (o : OpR) (other : BitVec 64)
  /-- SAR (R110). -/
  | sar (t : TileId) (h : Hdr) (o : OpR) (other : BitVec 64)
  /-- ROL (R110). -/
  | rol (t : TileId) (h : Hdr) (o : OpR) (other : BitVec 64)
  /-- MUL (R110). -/
  | mul (t : TileId) (h : Hdr) (o : OpR) (other : BitVec 64)
  /-- MULHU (R110). -/
  | mulhu (t : TileId) (h : Hdr) (o : OpR) (other : BitVec 64)
  /-- MULHS (R110). -/
  | mulhs (t : TileId) (h : Hdr) (o : OpR) (other : BitVec 64)
  /-- MIN (R110). -/
  | min (t : TileId) (h : Hdr) (o : OpR) (other : BitVec 64)
  /-- MAX (R110). -/
  | max (t : TileId) (h : Hdr) (o : OpR) (other : BitVec 64)
  /-- MINU (R110). -/
  | minu (t : TileId) (h : Hdr) (o : OpR) (other : BitVec 64)
  /-- MAXU (R110). -/
  | maxu (t : TileId) (h : Hdr) (o : OpR) (other : BitVec 64)
  /-- CLZ (R110). -/
  | clz (t : TileId) (h : Hdr) (o : OpR) (other : BitVec 64)
  /-- CTZ (R110). -/
  | ctz (t : TileId) (h : Hdr) (o : OpR) (other : BitVec 64)
  /-- POPC (R110). -/
  | popc (t : TileId) (h : Hdr) (o : OpR) (other : BitVec 64)
  /-- SEL (R110). -/
  | sel (t : TileId) (h : Hdr) (o : OpR) (other : BitVec 64)
  /-- ADDI (R110). -/
  | addi (t : TileId) (h : Hdr) (o : OpI) (other : BitVec 64)
  /-- ANDI (R110). -/
  | andi (t : TileId) (h : Hdr) (o : OpI) (other : BitVec 64)
  /-- ORI (R110). -/
  | ori (t : TileId) (h : Hdr) (o : OpI) (other : BitVec 64)
  /-- XORI (R110). -/
  | xori (t : TileId) (h : Hdr) (o : OpI) (other : BitVec 64)
  /-- SHLI (R110). -/
  | shli (t : TileId) (h : Hdr) (o : OpI) (other : BitVec 64)
  /-- SHRI (R110). -/
  | shri (t : TileId) (h : Hdr) (o : OpI) (other : BitVec 64)
  /-- SARI (R110). -/
  | sari (t : TileId) (h : Hdr) (o : OpI) (other : BitVec 64)
  /-- MULI (R110). -/
  | muli (t : TileId) (h : Hdr) (o : OpI) (other : BitVec 64)
  /-- CEQ (R111). -/
  | ceq (t : TileId) (h : Hdr) (o : OpR) (other : BitVec 64)
  /-- CNE (R111). -/
  | cne (t : TileId) (h : Hdr) (o : OpR) (other : BitVec 64)
  /-- CLT (R111). -/
  | clt (t : TileId) (h : Hdr) (o : OpR) (other : BitVec 64)
  /-- CGE (R111). -/
  | cge (t : TileId) (h : Hdr) (o : OpR) (other : BitVec 64)
  /-- CLTU (R111). -/
  | cltu (t : TileId) (h : Hdr) (o : OpR) (other : BitVec 64)
  /-- CGEU (R111). -/
  | cgeu (t : TileId) (h : Hdr) (o : OpR) (other : BitVec 64)
  /-- CEQ_IMM (R111). -/
  | ceqImm (t : TileId) (h : Hdr) (o : OpI) (other : BitVec 64)
  /-- CNE_IMM (R111). -/
  | cneImm (t : TileId) (h : Hdr) (o : OpI) (other : BitVec 64)
  /-- CLT_IMM (R111). -/
  | cltImm (t : TileId) (h : Hdr) (o : OpI) (other : BitVec 64)
  /-- CGE_IMM (R111). -/
  | cgeImm (t : TileId) (h : Hdr) (o : OpI) (other : BitVec 64)
  /-- CLTU_IMM (R111). -/
  | cltuImm (t : TileId) (h : Hdr) (o : OpI) (other : BitVec 64)
  /-- CGEU_IMM (R111). -/
  | cgeuImm (t : TileId) (h : Hdr) (o : OpI) (other : BitVec 64)
  /-- PAND (R112). -/
  | pand (t : TileId) (h : Hdr) (o : OpR) (other : BitVec 64)
  /-- POR (R112). -/
  | por (t : TileId) (h : Hdr) (o : OpR) (other : BitVec 64)
  /-- PXOR (R112). -/
  | pxor (t : TileId) (h : Hdr) (o : OpR) (other : BitVec 64)
  /-- PANDN (R112). -/
  | pandn (t : TileId) (h : Hdr) (o : OpR) (other : BitVec 64)
  /-- PMOV (R112). -/
  | pmov (t : TileId) (h : Hdr) (o : OpR) (other : BitVec 64)
  /-- PGET (R112). -/
  | pget (t : TileId) (h : Hdr) (o : OpR) (other : BitVec 64)
  /-- LD (R113). -/
  | ld (t : TileId) (h : Hdr) (o : OpM) (other : BitVec 64)
  /-- LDU (R113). -/
  | ldu (t : TileId) (h : Hdr) (o : OpM) (other : BitVec 64)
  /-- ST (R113). -/
  | st (t : TileId) (h : Hdr) (o : OpM) (other : BitVec 64)
  /-- B (R88). -/
  | b (t : TileId) (h : Hdr) (o : OpI) (other : BitVec 64)
  /-- BL (R88). -/
  | bl (t : TileId) (h : Hdr) (o : OpI) (other : BitVec 64)
  /-- JR (R88). -/
  | jr (t : TileId) (h : Hdr) (o : OpI) (other : BitVec 64)
  /-- DBNZ (R88). -/
  | dbnz (t : TileId) (h : Hdr) (o : OpI) (other : BitVec 64)
  /-- IFLUSH (R106). -/
  | iflush (t : TileId) (h : Hdr) (o : OpI) (other : BitVec 64)
  /-- FENCE (R100). -/
  | fence (t : TileId) (h : Hdr) (o : OpI) (other : BitVec 64)
  /-- TSTAMP (R114). -/
  | tstamp (t : TileId) (h : Hdr) (o : OpI) (other : BitVec 64)
  /-- BEATS (R113). -/
  | beats (t : TileId) (h : Hdr) (o : OpI) (other : BitVec 64)
  /-- SIG (R117). -/
  | sig (t : TileId) (h : Hdr) (o : OpS) (other : BitVec 64)
  /-- WAIT (R269). -/
  | wait (t : TileId) (h : Hdr) (o : OpS) (other : BitVec 64)
  /-- BAR (R274). -/
  | bar (t : TileId) (h : Hdr) (o : OpS) (other : BitVec 64)
  /-- CTRD (R273). -/
  | ctrd (t : TileId) (h : Hdr) (o : OpS) (other : BitVec 64)
  /-- SEND (R118). -/
  | send (t : TileId) (h : Hdr) (o : OpR) (other : BitVec 64)
  /-- MSTAT (R121). -/
  | mstat (t : TileId) (h : Hdr) (o : OpR) (other : BitVec 64)
  /-- COPY (R123). -/
  | copy (t : TileId) (h : Hdr) (o : OpX) (other : BitVec 64)
  /-- EXCH (R101). -/
  | exch (t : TileId) (h : Hdr) (o : OpX) (other : BitVec 64)
  /-- EXCH_LAST (R101). -/
  | exchLast (t : TileId) (h : Hdr) (o : OpX) (other : BitVec 64)
  /-- CSRR (R115). -/
  | csrr (t : TileId) (h : Hdr) (o : OpI) (other : BitVec 64)
  /-- CSRW (R115). -/
  | csrw (t : TileId) (h : Hdr) (o : OpI) (other : BitVec 64)
  /-- RKEY (R381). -/
  | rkey (t : TileId) (h : Hdr) (o : OpR) (other : BitVec 64)
  /-- RCTR (R124). -/
  | rctr (t : TileId) (h : Hdr) (o : OpR) (other : BitVec 64)
  /-- RDRAW (R125). -/
  | rdraw (t : TileId) (h : Hdr) (o : OpR) (other : BitVec 64)
  /-- RDRAWV (R389). -/
  | rdrawv (t : TileId) (h : Hdr) (o : OpR) (other : BitVec 64)
  /-- VADD (R575). -/
  | vadd (t : TileId) (h : Hdr) (o : OpR) (other : BitVec 64)
  /-- VSUB (R575). -/
  | vsub (t : TileId) (h : Hdr) (o : OpR) (other : BitVec 64)
  /-- VMUL (R575). -/
  | vmul (t : TileId) (h : Hdr) (o : OpR) (other : BitVec 64)
  /-- VFMA (R575). -/
  | vfma (t : TileId) (h : Hdr) (o : OpR) (other : BitVec 64)
  /-- VMIN (R575). -/
  | vmin (t : TileId) (h : Hdr) (o : OpR) (other : BitVec 64)
  /-- VMAX (R575). -/
  | vmax (t : TileId) (h : Hdr) (o : OpR) (other : BitVec 64)
  /-- VABS (R575). -/
  | vabs (t : TileId) (h : Hdr) (o : OpR) (other : BitVec 64)
  /-- VNEG (R575). -/
  | vneg (t : TileId) (h : Hdr) (o : OpR) (other : BitVec 64)
  /-- VAND (R575). -/
  | vand (t : TileId) (h : Hdr) (o : OpR) (other : BitVec 64)
  /-- VOR (R575). -/
  | vor (t : TileId) (h : Hdr) (o : OpR) (other : BitVec 64)
  /-- VXOR (R575). -/
  | vxor (t : TileId) (h : Hdr) (o : OpR) (other : BitVec 64)
  /-- VSHL (R575). -/
  | vshl (t : TileId) (h : Hdr) (o : OpR) (other : BitVec 64)
  /-- VSHR (R575). -/
  | vshr (t : TileId) (h : Hdr) (o : OpR) (other : BitVec 64)
  /-- VSAR (R575). -/
  | vsar (t : TileId) (h : Hdr) (o : OpR) (other : BitVec 64)
  /-- VCEQ (R575). -/
  | vceq (t : TileId) (h : Hdr) (o : OpR) (other : BitVec 64)
  /-- VCLT (R575). -/
  | vclt (t : TileId) (h : Hdr) (o : OpR) (other : BitVec 64)
  /-- VCLE (R575). -/
  | vcle (t : TileId) (h : Hdr) (o : OpR) (other : BitVec 64)
  /-- VSEL (R575). -/
  | vsel (t : TileId) (h : Hdr) (o : OpR) (other : BitVec 64)
  /-- VEXP (R127). -/
  | vexp (t : TileId) (h : Hdr) (o : OpR) (other : BitVec 64)
  /-- VRCP (R127). -/
  | vrcp (t : TileId) (h : Hdr) (o : OpR) (other : BitVec 64)
  /-- VRSQ (R127). -/
  | vrsq (t : TileId) (h : Hdr) (o : OpR) (other : BitVec 64)
  /-- VMOV (R575). -/
  | vmov (t : TileId) (h : Hdr) (o : OpR) (other : BitVec 64)
  /-- VBCG (R575). -/
  | vbcg (t : TileId) (h : Hdr) (o : OpR) (other : BitVec 64)
  /-- VEXTG (R575). -/
  | vextg (t : TileId) (h : Hdr) (o : OpR) (other : BitVec 64)
  /-- VPERM (R575). -/
  | vperm (t : TileId) (h : Hdr) (o : OpR) (other : BitVec 64)
  /-- VRSUM (R129). -/
  | vrsum (t : TileId) (h : Hdr) (o : OpR) (other : BitVec 64)
  /-- VRMAX (R130). -/
  | vrmax (t : TileId) (h : Hdr) (o : OpR) (other : BitVec 64)
  /-- VRMIN (R130). -/
  | vrmin (t : TileId) (h : Hdr) (o : OpR) (other : BitVec 64)
  /-- VSCAN (R131). -/
  | vscan (t : TileId) (h : Hdr) (o : OpR) (other : BitVec 64)
  /-- VSCANMAX (R131). -/
  | vscanmax (t : TileId) (h : Hdr) (o : OpR) (other : BitVec 64)
  /-- VLD (R135). -/
  | vld (t : TileId) (h : Hdr) (o : OpM) (other : BitVec 64)
  /-- VST (R136). -/
  | vst (t : TileId) (h : Hdr) (o : OpM) (other : BitVec 64)
  /-- VSTC (R138). -/
  | vstc (t : TileId) (h : Hdr) (o : OpM) (other : BitVec 64)
  /-- VMERGE (R132). -/
  | vmerge (t : TileId) (h : Hdr) (o : OpR) (other : BitVec 64)
  /-- VISECT (R132). -/
  | visect (t : TileId) (h : Hdr) (o : OpR) (other : BitVec 64)
  /-- VDIFF (R132). -/
  | vdiff (t : TileId) (h : Hdr) (o : OpR) (other : BitVec 64)
  /-- VDEDUP (R132). -/
  | vdedup (t : TileId) (h : Hdr) (o : OpR) (other : BitVec 64)
  /-- VSORT (R132). -/
  | vsort (t : TileId) (h : Hdr) (o : OpR) (other : BitVec 64)
  /-- VCVT (R139). -/
  | vcvt (t : TileId) (h : Hdr) (o : OpR) (other : BitVec 64)
  /-- VMXSC (R144). -/
  | vmxsc (t : TileId) (h : Hdr) (o : OpR) (other : BitVec 64)
  /-- WELF (R145). -/
  | welf (t : TileId) (h : Hdr) (o : OpR) (other : BitVec 64)
  /-- WELFM (R146). -/
  | welfm (t : TileId) (h : Hdr) (o : OpR) (other : BitVec 64)
  /-- SLOAD (R166). -/
  | sload (t : TileId) (h : Hdr) (o : OpT) (other : BitVec 64)
  /-- SSWAP (R168). -/
  | sswap (t : TileId) (h : Hdr) (o : OpT) (other : BitVec 64)
  /-- MMUL (R150). -/
  | mmul (t : TileId) (h : Hdr) (o : OpT) (other : BitVec 64)
  /-- AMOV (R190). -/
  | amov (t : TileId) (h : Hdr) (o : OpT) (other : BitVec 64)
  /-- AMOVI (R190). -/
  | amovi (t : TileId) (h : Hdr) (o : OpT) (other : BitVec 64)
  /-- ACLR (R175). -/
  | aclr (t : TileId) (h : Hdr) (o : OpT) (other : BitVec 64)
  /-- ADRAIN (R194). -/
  | adrain (t : TileId) (h : Hdr) (o : OpT) (other : BitVec 64)
  /-- AADD (R193). -/
  | aadd (t : TileId) (h : Hdr) (o : OpT) (other : BitVec 64)
  /-- MXA_QUEUE_START (R185). -/
  | mxaQueueStart (t : TileId)
  /-- SSWAP_TAKE_EFFECT (R168). -/
  | sswapTakeEffect (t : TileId)
  /-- FEEDER_REFILL (R170). -/
  | feederRefill (t : TileId)
  /-- MULTIPLY_STEP (R151). -/
  | multiplyStep (t : TileId)
  /-- DRAIN_ADD (R173). -/
  | drainAdd (t : TileId)
  /-- IBUF_MISS_FILL (R103). -/
  | ibufMissFill (t : TileId)
  /-- SCRUB_READ (R221). -/
  | scrubRead (t : TileId) (met : BitVec 2)
  /-- RUN_RECORD_FETCH (R573). -/
  | runRecordFetch (t : TileId) (q : Fin 11)
  /-- FLIT_ARRIVAL (R245). -/
  | flitArrival (t : TileId) (q : Fin 5)
  /-- SLOT_SEND (R243). -/
  | slotSend (t : TileId) (o : Fin 6)
  /-- IN_NETWORK_ADD (R251). -/
  | inNetworkAdd (t : TileId) (o : Fin 6)
  /-- FLIT_LANDING (R249). -/
  | flitLanding (t : TileId)
  /-- EXCHANGE_PHASE_END (R247). -/
  | exchangePhaseEnd (t : TileId)
  /-- COMPUTE_BARRIER_RELEASE (R279). -/
  | computeBarrierRelease (k : Nat)
  /-- EXCHANGE_BARRIER_RELEASE (R279). -/
  | exchangeBarrierRelease (k : Nat)
  /-- SYNC_INCREMENT (R268). -/
  | syncIncrement (n : Nat)
  /-- WAIT_RELEASE (R269). -/
  | waitRelease (t : TileId)
  /-- WATCHDOG_EXPIRY (R280). -/
  | watchdogExpiry (t : TileId)
  /-- MESSAGE_ARRIVAL (R291). -/
  | messageArrival (n : Nat)
  /-- SEND_RESULT (R120). -/
  | sendResult (t : TileId) (n : Nat)
  /-- MSG_STUCK (R296). -/
  | msgStuck (t : TileId)
  /-- COPY_COMPLETE (R332). -/
  | copyComplete (t : TileId) (n : Nat)
  /-- ARM_ACCEPT (R334). -/
  | armAccept (t : TileId)
  /-- ARM_IN_FLIT (R336). -/
  | armInFlit (t : TileId)
  /-- ARM_OUT_FLIT (R335). -/
  | armOutFlit (t : TileId)
  /-- NARROW_ELEMENT (R340). -/
  | narrowElement (t : TileId) (n : Nat)
  /-- NARROW_REPLY (R340). -/
  | narrowReply (t : TileId) (n : Nat)
  /-- REFRESH_BOUNDARY (R346). -/
  | refreshBoundary (k : Fin 12)
  /-- REFRESH_WINDOW (R346). -/
  | refreshWindow (k : Fin 12)
  /-- REKEY (R351). -/
  | rekey (k : Fin 12)
  /-- HOST_MEM_READ (R474). -/
  | hostMemRead (a : BitVec 64) (cache : BitVec 2) (met : BitVec 2)
  /-- HOST_MEM_WRITE (R474). -/
  | hostMemWrite (a : BitVec 64) (data : BitVec 512) (mask : BitVec 64) (keep : Bool)
  /-- ATS_INVALIDATION (R466). -/
  | atsInvalidation (fn : BitVec 6) (page : BitVec 52)
  /-- HOST_STREAM_FLIT (R479). -/
  | hostStreamFlit (t : TileId) (out : Bool) (data : BitVec 512) (how : BitVec 2)
  /-- UE_DOORBELL (R371). -/
  | ueDoorbell (k : Fin 12)
  /-- UE_JOB_START (R370). -/
  | ueJobStart (k : Fin 12)
  /-- UE_GROUP (R370). -/
  | ueGroup (k : Fin 12)
  /-- UE_JOB_END (R370). -/
  | ueJobEnd (k : Fin 12)
  /-- UE_NOP (R374). -/
  | ueNop (k : Fin 12)
  /-- UE_BODY (R374). -/
  | ueBody (k : Fin 12)
  /-- UE_END (R374). -/
  | ueEnd (k : Fin 12)
  /-- LDS (R376). -/
  | lds (k : Fin 12)
  /-- STS (R376). -/
  | sts (k : Fin 12)
  /-- UE_MOV (R375). -/
  | ueMov (k : Fin 12)
  /-- UE_ADD (R375). -/
  | ueAdd (k : Fin 12)
  /-- UE_SUB (R375). -/
  | ueSub (k : Fin 12)
  /-- UE_MUL (R375). -/
  | ueMul (k : Fin 12)
  /-- UE_FMA (R375). -/
  | ueFma (k : Fin 12)
  /-- UE_DIV (R375). -/
  | ueDiv (k : Fin 12)
  /-- UE_SQRT (R375). -/
  | ueSqrt (k : Fin 12)
  /-- UE_MIN (R375). -/
  | ueMin (k : Fin 12)
  /-- UE_MAX (R375). -/
  | ueMax (k : Fin 12)
  /-- UE_ABS (R375). -/
  | ueAbs (k : Fin 12)
  /-- UE_NEG (R375). -/
  | ueNeg (k : Fin 12)
  /-- UE_SEL (R375). -/
  | ueSel (k : Fin 12)
  /-- CMP (R375). -/
  | cmp (k : Fin 12)
  /-- ACCSQ (R375). -/
  | accsq (k : Fin 12)
  /-- XCLR (R375). -/
  | xclr (k : Fin 12)
  /-- RED (R360). -/
  | red (k : Fin 12)
  /-- RED_RESULT (R363). -/
  | redResult (k : Fin 12)
  /-- SOP (R375). -/
  | sop (k : Fin 12)
  /-- SENTINEL_COMPARE (R514). -/
  | sentinelCompare (t : TileId) (rows : List Row)
  /-- NBL_LOAD (R314). -/
  | nblLoad (p : BitVec 5) (slot : Nat) (file : List Byte) (addr : BitVec 64) (regions : List (BitVec 16 × BitVec 64)) (syms : List (BitVec 12))
  /-- SB_SUBQ_TAIL (R439). -/
  | sbSubqTail (p : BitVec 5) (i : BitVec 20)
  /-- GRAPH_ADMISSION (R440). -/
  | graphAdmission (p : BitVec 5) (d : BitVec 512) (tasks : List (BitVec 512)) (edges : List (BitVec 16)) (unread : BitVec 2) (ok : Bool)
  /-- PLACEMENT_PASS (R444). -/
  | placementPass (ok : Bool)
  /-- TASK_DISPATCH (R315). -/
  | taskDispatch (k : Nat)
  /-- CONTEXT_RESTORE (R458). -/
  | contextRestore (k : Nat) (ok : Bool)
  /-- TASK_END (R24). -/
  | taskEnd (k : Nat) (ok : Bool)
  /-- COMPLETION_RECORD_WRITE (R451). -/
  | completionRecordWrite (p : BitVec 5) (ok : Bool)
  /-- CONTEXT_SAVE (R453). -/
  | contextSave (k : Nat)
  /-- REBIND_HANDOVER of blocks (KIND 0), stacks (1) or ports (2) (R435). -/
  | rebindHandover (kind : BitVec 2)
  /-- REBIND_WAIT (R434). -/
  | rebindWait (kind : BitVec 2) (dst : BitVec 6)
  /-- REBIND_PREEMPT (R434). -/
  | rebindPreempt (kind : BitVec 2) (dst : BitVec 6)
  /-- REBIND_KILL (R434). -/
  | rebindKill (kind : BitVec 2) (dst : BitVec 6)
  /-- PART_SYNC_WRITE (R431). -/
  | partSyncWrite (p : BitVec 5) (v : BitVec 32)
  /-- PART_RECMAX_WRITE (R440). -/
  | partRecmaxWrite (p : BitVec 5) (v : BitVec 32)
  /-- HBM_IMAP_COMMIT (R325). -/
  | hbmImapCommit (p : BitVec 5)
  /-- HBM_STG_WIN_WRITE (R326). -/
  | hbmStgWinWrite (k : Fin 12) (v : BitVec 32)
  /-- CLR_WSQ (R358). -/
  | clrWsq (k : Fin 12)
  /-- CLR_X (R369). -/
  | clrX (k : Fin 12)
  /-- SNAP (R358). -/
  | snap (k : Fin 12)
  /-- UE_ABORT (R378). -/
  | ueAbort (k : Fin 12)
  /-- UE_RESUME (R378). -/
  | ueResume (k : Fin 12)
  /-- UE_PROG_DATA_WRITE (R369). -/
  | ueProgDataWrite (k : Fin 12) (v : BitVec 32)
  /-- SYNC_SIG_WRITE (R268). -/
  | syncSigWrite (who : Who) (v : BitVec 16)
  /-- SYNC_VALUE_READ (R273). -/
  | syncValueRead (who : Who) (bar : Bool)
  /-- SYNC_XLATE_WRITE (R286). -/
  | syncXlateWrite (who : Who) (n : BitVec 12) (v : BitVec 32)
  /-- RING_OPEN (R68). -/
  | ringOpen (who : Who) (t : TileId) (n : BitVec 3) (size : BitVec 11) (base : BitVec 14)
  /-- RING_CLOSE (R69). -/
  | ringClose (who : Who) (t : TileId) (n : BitVec 3)
  /-- HEAD_WRITE (R293). -/
  | headWrite (who : Who) (t : TileId) (n : BitVec 3) (h : BitVec 13)
  /-- BREAK_HOLD (R65). -/
  | breakHold (t : TileId)
  /-- BREAK_RELEASE (R65). -/
  | breakRelease (t : TileId)
  /-- SB_ENABLE (R505). -/
  | sbEnable (p : BitVec 5)
  /-- SB_DISABLE (R505). -/
  | sbDisable (p : BitVec 5)
  /-- SB_CPLQ_HEAD (R506). -/
  | sbCplqHead (p : BitVec 5) (i : BitVec 20)
  /-- EL_RD_WRITE (R522). -/
  | elRdWrite (v : BitVec 64)
  /-- FR_POP (R520). -/
  | frPop (who : Who)
  /-- CLEAR_ON_READ (R11). -/
  | clearOnRead (r : RegRead)
  /-- PAIR_HI_WRITE (R495). -/
  | pairHiWrite (who : Who) (off : BitVec 26) (v : BitVec 32)
  /-- SET_ALIAS (R496). -/
  | setAlias (who : Who) (off : BitVec 20) (m : BitVec 32)
  /-- CLEAR_ALIAS (R496). -/
  | clearAlias (who : Who) (off : BitVec 20) (m : BitVec 32)
  /-- TOGGLE_ALIAS (R496). -/
  | toggleAlias (who : Who) (off : BitVec 20) (m : BitVec 32)
  /-- FLAG_BIT_WRITE (R500). -/
  | flagBitWrite (who : Who) (w : BitVec 10) (b : BitVec 5) (on : Bool)
  /-- REGISTER_WRITE (R489). -/
  | registerWrite (w : RegWrite)
  /-- WARM_RESTART_REQUEST (R547). -/
  | warmRestartRequest
  /-- LMC_RESTART (R551). -/
  | lmcRestart
  /-- PARTITION_RESET (R503). -/
  | partitionReset (p : BitVec 5)
  /-- FUNCTION_LEVEL_RESET (R503). -/
  | functionLevelReset (p : BitVec 5)
  /-- TILE_RESET (R504). -/
  | tileReset (t : TileId)
  /-- WIN_OPEN (R524). -/
  | winOpen (n : BitVec 12)
  /-- WIN_CLOSE (R528). -/
  | winClose (n : BitVec 12)
  /-- WIN_CLOSE_COMPLETE (R528). -/
  | winCloseComplete (n : BitVec 12)
  /-- HOST_WINDOW_WRITE (R527). -/
  | hostWindowWrite (k : BitVec 3) (o : BitVec 12) (bytes : List Byte)
  /-- FAULT_RECORD (R519). -/
  | faultRecord
  /-- IMAGE_CHUNK (R549). -/
  | imageChunk
  /-- IMAGE_VERIFY (R550). -/
  | imageVerify
  /-- IMAGE_ACTIVATE (R550). -/
  | imageActivate
  /-- WAKE_BUDGET_WRITE (R540). -/
  | wakeBudgetWrite (v : BitVec 32)
  /-- CONTROL_PERIOD (R533). -/
  | controlPeriod (o : DimObs)
  /-- POWER_STATE_ENTRY (R538). -/
  | powerStateEntry (u : PowerUnit) (n : BitVec 5)
  /-- WAKE_EVENT (R540). -/
  | wakeEvent (dies : BitVec 2) (blocks : BitVec 32)
  /-- SNUFFED_ENTRY (R541). -/
  | snuffedEntry
  /-- SEAM_RATIO_WINDOW (R259). -/
  | seamRatioWindow (hold : BitVec 32)
  /-- POWER_GOOD (R558). -/
  | powerGood (mv : BitVec 17)
  /-- COLD_START (R545). -/
  | coldStart (o : StartObs)
  /-- WARM_START (R546). -/
  | warmStart (o : StartObs)
  /-- START_TIMEOUT (R548). -/
  | startTimeout
  /-- RECOVERY (R549). -/
  | recovery (o : LinkObs)
  /-- LMC_WATCHDOG (R551). -/
  | lmcWatchdog
  /-- PERST_ASSERT (R566). -/
  | perstAssert
  /-- PERST_DEASSERT (R566). -/
  | perstDeassert
  /-- PWR_WARN_ASSERT (R567). -/
  | pwrWarnAssert
  /-- PWR_WARN_DEASSERT (R567). -/
  | pwrWarnDeassert
  /-- VIN_UNDERVOLTAGE (R558). -/
  | vinUndervoltage (mv : BitVec 17)
  /-- PRSNT_BREAK (R559). -/
  | prsntBreak
  /-- REFCLK_LOSS (R561). -/
  | refclkLoss
  /-- REFCLK_RESUME (R561). -/
  | refclkResume
  /-- MCTP_CONTROL (R562). -/
  | mctpControl (code : BitVec 8)
  /-- PLDM_SENSOR_READ (R562). -/
  | pldmSensorRead (x : Sensor)
  /-- MCTP_WAKE_REQUEST (R563). -/
  | mctpWakeRequest
  /-- SMBUS_ARP (R562). -/
  | smbusArp (a : BitVec 7)
  /-- CXL_LINK_TRAIN (R462). -/
  | cxlLinkTrain (o : LinkObs)
  /-- CXL_LINK_DOWN (R487). -/
  | cxlLinkDown
  /-- IDE_KM (R483). -/
  | ideKm (cm : Bool) (skid : Bool) (n : BitVec 2)
  /-- IDE_INTEGRITY_FAILURE (R483). -/
  | ideIntegrityFailure (cm : Bool) (n : BitVec 2)
  /-- DOE_DISCOVERY (R484). -/
  | doeDiscovery (i : BitVec 8)
  /-- GET_CERTIFICATE (R552). -/
  | getCertificate (slot : BitVec 8) (off : BitVec 16) (len : BitVec 16)
  /-- GET_MEASUREMENTS (R552). -/
  | getMeasurements (i : BitVec 8)
  /-- CDAT_TABLE_ACCESS (R485). -/
  | cdatTableAccess (i : BitVec 16)
  /-- IDENTIFY_MEMORY_DEVICE (R486). -/
  | identifyMemoryDevice
  /-- GET_EVENT_RECORDS (R486). -/
  | getEventRecords
  /-- CLEAR_EVENT_RECORDS (R486). -/
  | clearEventRecords (n : BitVec 8)
  /-- GET_EVENT_INTERRUPT_POLICY (R486). -/
  | getEventInterruptPolicy
  /-- SET_EVENT_INTERRUPT_POLICY (R486). -/
  | setEventInterruptPolicy (v : BitVec 32)
  /-- GET_SUPPORTED_LOGS (R486). -/
  | getSupportedLogs
  /-- GET_LOG (R486). -/
  | getLog (off : BitVec 32) (len : BitVec 32)
  /-- GET_POISON_LIST (R486). -/
  | getPoisonList
  /-- SANITIZE (R486). -/
  | sanitize
  /-- SECURE_ERASE (R486). -/
  | secureErase
  /-- GET_FW_INFO (R486). -/
  | getFwInfo
  /-- TRANSFER_FW (R550). -/
  | transferFw (off : BitVec 32) (bytes : List Byte) (final : Bool)
  /-- ACTIVATE_FW (R550). -/
  | activateFw
  /-- UNSUPPORTED_COMMAND (R486). -/
  | unsupportedCommand (op : BitVec 16)
  /-- FRAME_SEND (R397). -/
  | frameSend (p : BitVec 3)
  /-- IDLE_FRAME (R398). -/
  | idleFrame (p : BitVec 3) (f : Frame)
  /-- DATA_FRAME (R411). -/
  | dataFrame (p : BitVec 3) (f : Frame)
  /-- REDUCE_FRAME (R411). -/
  | reduceFrame (p : BitVec 3) (f : Frame)
  /-- SYNC_FRAME (R404). -/
  | syncFrame (p : BitVec 3) (f : Frame)
  /-- MARK_FRAME (R405). -/
  | markFrame (p : BitVec 3) (f : Frame)
  /-- COAST_FRAME (R417). -/
  | coastFrame (p : BitVec 3) (f : Frame)
  /-- LOSS_FRAME (R423). -/
  | lossFrame (p : BitVec 3) (f : Frame)
  /-- WWRITE_FRAME (R526). -/
  | wwriteFrame (p : BitVec 3) (f : Frame)
  /-- WNAK_FRAME (R526). -/
  | wnakFrame (p : BitVec 3) (f : Frame)
  /-- RESERVED_FRAME (R397). -/
  | reservedFrame (p : BitVec 3) (f : Frame)
  /-- MARKER_TIMEOUT (R406). -/
  | markerTimeout (p : BitVec 3)
  /-- COLLECTIVE_STEP_START (R408). -/
  | collectiveStepStart (p : BitVec 3) (n : BitVec 6)
  /-- COLLECTIVE_STEP_DONE (R408). -/
  | collectiveStepDone (p : BitVec 3) (n : BitVec 6)
  /-- LAMPLINE_ATTACH_FLIT (R409). -/
  | lamplineAttachFlit (p : BitVec 3) (n : BitVec 6) (out : Bool)
  /-- GRACE_EXPIRY (R415). -/
  | graceExpiry (p : BitVec 3) (n : BitVec 6)
  /-- LANE_DEGRADE (R419). -/
  | laneDegrade (p : BitVec 3) (ok : BitVec 16)
  /-- LINK_LOSS_DETECT (R422). -/
  | linkLossDetect (p : BitVec 3) (warned : Bool)
  /-- LP_COAST (R417). -/
  | lpCoast (who : Who) (p : BitVec 3)
  /-- LP_RESUME (R418). -/
  | lpResume (who : Who) (p : BitVec 3)
  /-- RETRAIN (R420). -/
  | retrain (who : Who) (p : BitVec 3)
  /-- SPLICE_CLEAR (R428). -/
  | spliceClear (p : BitVec 3)
  /-- COLL_DESCRIPTOR_WRITE (R361). -/
  | collDescriptorWrite (p : BitVec 3) (n : BitVec 6) (j : BitVec 3) (v : BitVec 32)
  /-- COLL_TEARDOWN (R366). -/
  | collTeardown (p : BitVec 3) (n : BitVec 6)
  /-- UNCORRECTABLE_FRAME (R399). -/
  | uncorrectableFrame (p : BitVec 3)
  /-- LAMPLINE_LINK_UP (R428). -/
  | lamplineLinkUp (p : BitVec 3) (ok : BitVec 16)
  /-- VIN_OVERVOLTAGE (R556). -/
  | vinOvervoltage (mv : BitVec 17)
  /-- HBM_HOT (R344). -/
  | hbmHot (k : Fin 12) (temp : BitVec 8)
  /-- CXL_DRAM_EVENT_RECORD (R521). -/
  | cxlDramEventRecord (k : Fin 12)
  deriving DecidableEq, Repr

end Sys2Proof
end

