-- ==== Sys2Proof/Config.lean ====
section
/-!
DEFINITION. What an implementation fixes and the values the spec leaves open. An opaque constant here has no body:
nothing in Lean can evaluate it, so a claim that mentions one holds for every value.
-/
namespace Sys2Proof.Config

/-- The byte that a read returns at a stack-local address not written since the stack's re-key number `rekeys` (R352): stack,
re-key count, address. DESIGN CHOICE, safe: assumption 3. -/
opaque unwritten : Nat → Nat → Nat → Byte

/-- The pair of 256-bit keys that the Lamplighter draws for a stack's engine at its re-key number `rekeys` (R350): stack, re-key
count. DESIGN CHOICE, safe: assumption 31. -/
opaque stackKey : Nat → Nat → BitVec 512

/-- The single-bit and wider errors that strike the memories of the module while 10 ns pass (R215, R347, Table 11-1): time stamp.
The memory (0 shelves, 1 HBM, 2 staging), its tile or stack, its word or 64-byte unit, and whether the code cannot correct it.
DESIGN CHOICE, safe: assumption 29. -/
opaque upsets : Nat → List (Nat × Nat × Nat × Bool)

/-- The bank beats that requesters of a tile's shelves lose while 10 ns pass (R211, R216): time stamp; the tile and a byte address
in the row that was lost. DESIGN CHOICE, safe: assumption 30. -/
opaque lostRows : Nat → List (TileId × Nat)

/-- The rate of a die at its lowest voltage (R537), in 10 Mbeat/s. DESIGN CHOICE, safe: assumption 27. -/
opaque dimRate : BitVec 8

/-- A byte of undefined data in a tile's shelves: ring words a program stored into or whose HEAD it moved wrongly (R48, R293),
and sender reads of bytes landed in the same phase (R250): tile, count of such events, position. DESIGN CHOICE, safe: assumption
4. -/
opaque undefinedByte : TileId → Nat → Nat → Byte

/-- The shelf words, by tile and word index, that the read-back of a zeroing finds uncorrectable (R226): zeroing. DESIGN CHOICE,
safe: assumption 29. -/
opaque readBack : Nat → List (TileId × BitVec 19)

/-- What a set or merge word writes for an unsorted input (R133): the word (0 VMERGE, 1 VISECT, 2 VDIFF, 3 VDEDUP), its FMT, its
two operands, and which register of the pair. DESIGN CHOICE, safe: assumption 8. -/
opaque unsortedMerge : Nat → Nat → BitVec 1024 → BitVec 1024 → Nat → BitVec 1024

/-- A byte of a stream of an update-engine job that overlaps another stream of the job (R377): stack, group, partition address.
DESIGN CHOICE, safe: assumption 6. -/
opaque overlapByte : Nat → Nat → Nat → Byte

/-- A byte of the CPER header of a fault record that this specification does not lay out (R519): record number, byte. DESIGN
CHOICE, safe: assumption 7. -/
opaque cperByte : Nat → Nat → Byte

/-- What a completion record holds in a field that its table does not state for the case (Table 15-7): 0 ATTEMPT of a graph
record, 1 BLOCK of a graph record, 2 REL_ID where no tile faulted, 3 SSTEP of a task that no tile ran, 4 GRAPH_TAG of a
descriptor that could not be read. DESIGN CHOICE, safe: assumption 20. -/
opaque recordFill : Nat → BitVec 64

/-- Which of its entries a full snoop filter evicts (R475): stack, use count. DESIGN CHOICE, safe: assumption 22. -/
opaque snoopVictim : Nat → Nat → Nat

/-- What the host may have written to a line that it holds modified, and writes back when BISnp takes the line from it (R475): use
count. DESIGN CHOICE, safe: assumption 22. -/
opaque writeBack : Nat → Option (BitVec 512)

/-- The page of host memory to which a translation request answers (R466): use count, function, page. DESIGN CHOICE, safe:
assumption 22. -/
opaque translated : Nat → Nat → Nat → Nat

/-- Which of its entries a full translation cache replaces (R466): use count. DESIGN CHOICE, safe: assumption 22. -/
opaque atcVictim : Nat → Nat

/-- The X position of the lantern that stands in for the lost position beyond a Y or Z port (R425): the port and its LP_RING
in force. No register of the neighbour names it. DESIGN CHOICE, safe: assumption 43. -/
opaque detourPos : Nat → BitVec 32 → BitVec 7

/-- The hops that detours begun at later modules of its path add to a frame on a Y or Z ring (R400, R425): the port, its LP_RING in
force and DEST. No register of the sender names those detours. DESIGN CHOICE, safe: assumption 43. -/
opaque laterHops : Nat → BitVec 32 → BitVec 7 → BitVec 9

/-- What an event-log entry holds in the fields that its kind does not state (Table 18-6): entry, field (0 CODE, 1 SEVERITY to
UNIT, 2 ADDR, 3 DATA). DESIGN CHOICE, safe: assumption 23. -/
opaque logFill : Nat → Nat → BitVec 64

/-- KIND of the entry that a warned removal writes (R567): Table 18-6 lists none for it. DESIGN CHOICE, safe: assumption 23. -/
opaque warnKind : BitVec 8

/-- Whether the signature of a firmware image verifies against the fused key (R550). DESIGN CHOICE, safe: assumption 24. -/
opaque imageSigned : List Byte → Bool

/-- The security version number in the header of a firmware image (R550). DESIGN CHOICE, safe: assumption 24. -/
opaque imageSvn : List Byte → Nat

/-- Whether the header of a firmware image asks to raise the fused minimum (R550). DESIGN CHOICE, safe: assumption 24. -/
opaque imageRaises : List Byte → Bool

/-- The largest image that an image transfer may fill, in bytes (Table 19-9). DESIGN CHOICE, safe: assumption 24. -/
opaque imageMax : Nat

/-- Bytes that the responders of the sideband and of the DOE and Memory Device mailboxes return where a standard outside this
specification gives them: responder, request, byte or word. PRESUMED, safe: assumption 25. -/
opaque answer : Nat → Nat → Nat → BitVec 64

/-- A word of the configuration space of a function, and of BAR2, that no table of this specification lays out (Table 16-8, R464):
function, or 64 for BAR2, and offset. PRESUMED, safe: assumption 25. -/
opaque configWord : Nat → Nat → BitVec 32

/-- Where in the CXL component registers of BAR2 the registers of the HDM decoders begin, modulo their places (R464, R472). PRESUMED,
safe: assumption 25. -/
opaque hdmBlock : Nat

/-- A word of an ECDSA P-521 signature (R484): use count, word. DESIGN CHOICE, safe: assumption 25. -/
opaque signature : Nat → Nat → BitVec 64

/-- A byte of the boot ROM, the fuses or the loader configuration as GET_MEASUREMENTS measures them (Table 19-6): index, byte; and how
many there are. DESIGN CHOICE, safe: assumption 25. -/
opaque measuredByte : Nat → Nat → Byte
opaque measuredLen : Nat → Nat

/-- The selective IDE stream that carries the CXL.io traffic of a function, if one does (R483). DESIGN CHOICE, safe: assumption 25. -/
opaque ioStream : Nat → Option (BitVec 2)

/-- Where the second structures that Table 16-8 puts at 0x1A0 and 0x1C0 begin: 0 Data Link Feature, 1 Physical Layer 64.0 GT/s, 2
Physical Layer 128.0 GT/s, 3 Lane Margining; and the capability ID of the third. PRESUMED, safe: assumption 25. -/
opaque capPlace : Nat → BitVec 12
opaque phy128Id : BitVec 16

end Sys2Proof.Config
end

