-- ==== Sys2Proof/Machine/Float.lean ====
section
/-!
DEFINITION. The number formats of the module (Table 3-2, Table 5-1) and their arithmetic: every operation forms the
exact value and rounds once (R109, R127, R141, R143). Values are exact dyadic numbers.
-/
namespace Sys2Proof.Machine

/-- An exact value: ±m·2^e, an infinity, or a NaN. A zero keeps its sign. -/
inductive Fx where
  | fin (neg : Bool) (m : Nat) (e : Int)
  | inf (neg : Bool)
  | nan
  deriving DecidableEq, Repr

/-- A binary float format: exponent and mantissa widths, bias, whether it has infinities, whether a conversion into
it saturates at its largest magnitude under every rounding (R143), its canonical NaN (R109) or 0 where it has none,
and the code of its largest finite magnitude (Table 5-1). -/
structure FloatFmt where
  eb : Nat
  mb : Nat
  bias : Int
  inf : Bool
  sat : Bool
  nanCode : Nat
  maxCode : Nat
  deriving DecidableEq, Repr

def fp32 : FloatFmt := ⟨8, 23, 127, true, false, 0x7FC00000, 0x7F7FFFFF⟩
def bf16 : FloatFmt := ⟨8, 7, 127, true, false, 0x7FC0, 0x7F7F⟩
def fp16 : FloatFmt := ⟨5, 10, 15, true, false, 0x7E00, 0x7BFF⟩
def fp64 : FloatFmt := ⟨11, 52, 1023, true, false, 0x7FF8000000000000, 0x7FEFFFFFFFFFFFFF⟩
def e4m3 : FloatFmt := ⟨4, 3, 7, false, true, 0x7F, 0x7E⟩
def e5m2 : FloatFmt := ⟨5, 2, 15, true, false, 0x7E, 0x7B⟩
/-- MXFP8 E5M2 has the layout of E5M2 and saturates like every MX format (R143). -/
def mxe5m2 : FloatFmt := ⟨5, 2, 15, true, true, 0x7E, 0x7B⟩
def e2m3 : FloatFmt := ⟨2, 3, 1, false, true, 0, 0x1F⟩
def e3m2 : FloatFmt := ⟨3, 2, 3, false, true, 0, 0x1F⟩
def e2m1 : FloatFmt := ⟨2, 1, 1, false, true, 0, 0x7⟩

def FloatFmt.width (f : FloatFmt) : Nat := 1 + f.eb + f.mb

/-- The rounding of R80: nearest-even, toward zero, or stochastic with `k` random bits `r` (R141). -/
inductive Rnd where
  | rne
  | rtz
  | sto (k r : Nat)
  deriving DecidableEq, Repr

/-- The exact value of a code (Table 5-1). -/
def decodeF (f : FloatFmt) (c : Nat) : Fx :=
  let neg := bit c (f.eb + f.mb) == 1
  let ex := bits c (f.eb + f.mb - 1) f.mb
  let mn := c % 2 ^ f.mb
  let top := 2 ^ f.eb - 1
  if f.inf && ex == top then (if mn == 0 then .inf neg else .nan)
  else if !f.inf && f.nanCode != 0 && ex == top && mn == 2 ^ f.mb - 1 then .nan
  else if ex == 0 then .fin neg mn (1 - f.bias - f.mb)
  else .fin neg (mn + 2 ^ f.mb) ((ex : Int) - f.bias - f.mb)

/-- Divide a magnitude by 2^d and round the quotient to an integer (R141). -/
def roundShift (rm : Rnd) (m d : Nat) : Nat :=
  let q := m >>> d
  let rem := m % 2 ^ d
  match rm with
  | .rne => if 2 * rem > 2 ^ d || (2 * rem == 2 ^ d && q % 2 == 1) then q + 1 else q
  | .rtz => q
  | .sto k r => if d != 0 && rem * 2 ^ k / 2 ^ d + r ≥ 2 ^ k then q + 1 else q

/-- Round a magnitude m·2^e to an integer multiple of 2^q. -/
def roundAt (rm : Rnd) (m : Nat) (e q : Int) : Nat :=
  if q ≤ e then m * 2 ^ (e - q).toNat else roundShift rm m (q - e).toNat

/-- Round an exact value to a code of the format, once (R141, R143, R109). -/
def roundF (f : FloatFmt) (rm : Rnd) (x : Fx) : Nat :=
  let sgn (neg : Bool) : Nat := if neg then 2 ^ (f.eb + f.mb) else 0
  let infCode := (2 ^ f.eb - 1) * 2 ^ f.mb
  match x with
  | .nan => f.nanCode
  | .inf neg => sgn neg + (if f.inf && !f.sat then infCode else f.maxCode)
  | .fin neg m e =>
    if m = 0 then sgn neg
    else
      let emin : Int := 1 - f.bias - f.mb
      let q : Int := max (e + (Nat.log2 m : Int) - f.mb) emin
      let n := roundAt rm m e q
      let code := (q - emin).toNat * 2 ^ f.mb + n
      if code ≤ f.maxCode then sgn neg + code
      else if f.sat || rm = .rtz then sgn neg + f.maxCode
      else sgn neg + infCode

/-- ±m at a lower exponent, as an integer multiple of 2^q (q ≤ e). -/
def scaleTo (neg : Bool) (m : Nat) (e q : Int) : Int :=
  let v : Int := (m * 2 ^ (e - q).toNat : Nat)
  if neg then -v else v

/-- Exact addition; an exact cancellation gives +0 and equal-signed zeros keep their sign. -/
def Fx.add : Fx → Fx → Fx
  | .nan, _ => .nan
  | _, .nan => .nan
  | .inf a, .inf b => if a = b then .inf a else .nan
  | .inf a, .fin _ _ _ => .inf a
  | .fin _ _ _, .inf b => .inf b
  | .fin n1 m1 e1, .fin n2 m2 e2 =>
    if m1 = 0 && m2 = 0 then .fin (n1 && n2) 0 0
    else if m1 = 0 then .fin n2 m2 e2
    else if m2 = 0 then .fin n1 m1 e1
    else
      let q := min e1 e2
      let v := scaleTo n1 m1 e1 q + scaleTo n2 m2 e2 q
      .fin (decide (v < 0)) v.natAbs q

def Fx.neg : Fx → Fx
  | .fin n m e => .fin (!n) m e
  | .inf n => .inf (!n)
  | .nan => .nan

def Fx.abs : Fx → Fx
  | .fin _ m e => .fin false m e
  | .inf _ => .inf false
  | .nan => .nan

def Fx.sub (a b : Fx) : Fx := a.add b.neg

def Fx.isNeg : Fx → Bool
  | .fin n _ _ => n
  | .inf n => n
  | .nan => false

def Fx.isZero : Fx → Bool
  | .fin _ m _ => m == 0
  | _ => false

/-- Exact multiplication; ∞ × 0 is NaN. -/
def Fx.mul : Fx → Fx → Fx
  | .nan, _ => .nan
  | _, .nan => .nan
  | .inf a, .inf b => .inf (a != b)
  | .inf a, .fin n m _ => if m = 0 then .nan else .inf (a != n)
  | .fin n m _, .inf b => if m = 0 then .nan else .inf (n != b)
  | .fin n1 m1 e1, .fin n2 m2 e2 => .fin (n1 != n2) (m1 * m2) (e1 + e2)

/-- A quotient with a sticky last bit, far below the rounding position of every format. -/
def Fx.div : Fx → Fx → Fx
  | .nan, _ => .nan
  | _, .nan => .nan
  | .inf _, .inf _ => .nan
  | .inf a, .fin n _ _ => .inf (a != n)
  | .fin n _ _, .inf b => .fin (n != b) 0 0
  | .fin n1 m1 e1, .fin n2 m2 e2 =>
    if m2 = 0 then (if m1 = 0 then .nan else .inf (n1 != n2))
    else if m1 = 0 then .fin (n1 != n2) 0 0
    else
      let k := 160 + Nat.log2 m2
      let num := m1 * 2 ^ k
      .fin (n1 != n2) (2 * (num / m2) + (if num % m2 = 0 then 0 else 1)) (e1 - e2 - k - 1)

/-- Bits of an integer square root, from bit `i` down. -/
def isqrtGo (n : Nat) : Nat → Nat → Nat
  | 0, r => r
  | i + 1, r =>
    let c := r + 2 ^ i
    isqrtGo n i (if c * c ≤ n then c else r)

/-- The integer square root. -/
def isqrt (n : Nat) : Nat := isqrtGo n (Nat.log2 n / 2 + 1) 0

/-- Square root with a sticky last bit; IEEE 754 special values. -/
def Fx.sqrt : Fx → Fx
  | .nan => .nan
  | .inf n => if n then .nan else .inf false
  | .fin n m e =>
    if m = 0 then .fin n 0 0
    else if n then .nan
    else
      let e1 := if e % 2 = 0 then e else e - 1
      let m1 := if e % 2 = 0 then m else 2 * m
      let a := m1 * 2 ^ 320
      let r := isqrt a
      .fin false (2 * r + (if r * r = a then 0 else 1)) (e1 / 2 - 160 - 1)

/-- Reciprocal square root with a sticky last bit (R127). -/
def Fx.rsqrt : Fx → Fx
  | .nan => .nan
  | .inf n => if n then .nan else .fin false 0 0
  | .fin n m e =>
    if m = 0 then .inf n
    else if n then .nan
    else
      let e1 := if e % 2 = 0 then e else e - 1
      let m1 := if e % 2 = 0 then m else 2 * m
      let a := 2 ^ (320 + 2 * Nat.log2 m1) / m1
      let r := isqrt a
      let k : Int := 160 + Nat.log2 m1
      .fin false (2 * r + (if r * r * m1 = 2 ^ (320 + 2 * Nat.log2 m1) then 0 else 1)) (-(e1 / 2) - k - 1)

/-- Reciprocal (R127): 1/±0 = ±∞, 1/±∞ = ±0. -/
def Fx.recip : Fx → Fx
  | .nan => .nan
  | .inf n => .fin n 0 0
  | .fin n m e => if m = 0 then .inf n else Fx.div (.fin false 1 0) (.fin n m e)

/-- Terms of the exponential series of y < 1 in fixed point with `p` fraction bits. DEDUCED, unsafe: assumption 14. -/
def expSeries (p y : Nat) : Nat → Nat → Nat → Nat
  | 0, _, acc => acc
  | n + 1, term, acc =>
    let k := 48 - n
    let t := term * y / 2 ^ p / k
    expSeries p y n t (acc + t)

/-- `n` squarings in fixed point. -/
def squareTimes (p : Nat) : Nat → Nat → Nat
  | 0, v => v
  | n + 1, v => squareTimes p n (v * v / 2 ^ p)

/-- e to the value, with a sticky last bit (R127). Magnitudes of 2^8 and more lie beyond the range of every format
of R575 and answer a value beyond it. Evaluated with 288 fraction bits. -/
def Fx.exp : Fx → Fx
  | .nan => .nan
  | .inf n => if n then .fin false 0 0 else .inf false
  | .fin n m e =>
    if m = 0 then .fin false 1 0
    else if 8 ≤ e + (Nat.log2 m : Int) then .fin false 1 (if n then -400 else 400)
    else
      let p : Nat := 288
      -- y = |x| / 2^8 in fixed point
      let sh : Int := e + p - 8
      let y := if 0 ≤ sh then m * 2 ^ sh.toNat else m >>> (-sh).toNat
      let v := squareTimes p 8 (expSeries p y 48 (2 ^ p) (2 ^ p))
      let w := if n then 2 ^ (2 * p) / v else v
      .fin false (2 * w + 1) (-(p : Int) - 1)

/-- `a < b` on values that are not NaN; the two zeros compare equal. -/
def Fx.lt : Fx → Fx → Bool
  | .nan, _ => false
  | _, .nan => false
  | .inf a, .inf b => a && !b
  | .inf a, .fin _ _ _ => a
  | .fin _ _ _, .inf b => !b
  | .fin n1 m1 e1, .fin n2 m2 e2 =>
    let q := min e1 e2
    decide (scaleTo n1 m1 e1 q < scaleTo n2 m2 e2 q)

def Fx.isNan : Fx → Bool
  | .nan => true
  | _ => false

/-- Equality of values; NaN equals nothing. -/
def Fx.eq (a b : Fx) : Bool := !a.isNan && !b.isNan && !a.lt b && !b.lt a

/-- minimumNumber: a NaN operand yields the other operand, and −0 < +0 (Table 4-6). -/
def Fx.minNum (a b : Fx) : Fx :=
  if a.isNan then b else if b.isNan then a
  else if a.lt b then a else if b.lt a then b
  else if a.isNeg then a else b

/-- maximumNumber (Table 4-6). -/
def Fx.maxNum (a b : Fx) : Fx :=
  if a.isNan then b else if b.isNan then a
  else if a.lt b then b else if b.lt a then a
  else if a.isNeg then b else a

/-- Multiply by 2^k. -/
def Fx.scale (k : Int) : Fx → Fx
  | .fin n m e => .fin n m (e + k)
  | x => x

/-- An integer as an exact value. -/
def Fx.ofInt (i : Int) : Fx := .fin (decide (i < 0)) i.natAbs 0

/-- Round to an integer with the given rounding; `none` for NaN and infinities. -/
def Fx.toIntR (rm : Rnd) : Fx → Option Int
  | .fin n m e => let v : Int := roundAt rm m e 0; some (if n then -v else v)
  | _ => none

/-- A saturating conversion to a signed integer of `w` bits: NaN converts to 0, infinities saturate (R143). -/
def toIntSat (w : Nat) (rm : Rnd) (x : Fx) : Int :=
  let hi : Int := 2 ^ (w - 1) - 1
  let lo : Int := -(2 ^ (w - 1))
  match x with
  | .nan => 0
  | .inf n => if n then lo else hi
  | .fin n m e =>
    let v : Int := roundAt rm m e 0
    let i := if n then -v else v
    if i > hi then hi else if i < lo then lo else i

/-- ⌊log2⌋ of a finite non-zero magnitude. -/
def Fx.log2 : Fx → Int
  | .fin _ m e => e + (Nat.log2 m : Int)
  | _ => 0

/-- The FMT codes of Table 3-2 that name float formats. -/
def floatOf (fmt : Nat) : Option FloatFmt :=
  match fmt with
  | 0x1 => some fp32
  | 0x3 => some bf16
  | 0x4 => some fp16
  | 0x6 => some e4m3
  | 0x7 => some e5m2
  | 0x8 => some e4m3
  | 0x9 => some mxe5m2
  | 0xA => some e2m3
  | 0xB => some e3m2
  | 0xC => some e2m1
  | _ => none

/-- Element bits of a FMT code (Table 3-2). -/
def fmtBits (fmt : Nat) : Nat :=
  match fmt with
  | 0x0 | 0x1 => 32
  | 0x2 | 0x3 | 0x4 | 0xD => 16
  | 0x5 | 0x6 | 0x7 | 0x8 | 0x9 => 8
  | 0xA | 0xB => 6
  | 0xC => 4
  | 0xE => 1
  | _ => 64

/-- Whether a FMT code is an MX format. -/
def isMx (fmt : Nat) : Bool := 0x8 ≤ fmt && fmt ≤ 0xC

/-- Whether a FMT code is an integer vector format. -/
def isIntFmt (fmt : Nat) : Bool := fmt == 0x0 || fmt == 0x2 || fmt == 0x5

/-- The exact value of an element of a FMT code: floats by their format, integers by value. -/
def elemFx (fmt c : Nat) : Fx :=
  match floatOf fmt with
  | some f => decodeF f c
  | none => .ofInt (toSigned (fmtBits fmt) c)

/-- An exact value converted to an element of a FMT code (R141, R143). -/
def toElem (fmt : Nat) (rm : Rnd) (x : Fx) : Nat :=
  match floatOf fmt with
  | some f => roundF f rm x
  | none => ofSigned (fmtBits fmt) (toIntSat (fmtBits fmt) rm x)

/-- The RM field: nearest-even, toward zero, stochastic with 4 or 3 bits `r` of the element (R80). -/
def rndOf (rm r : Nat) : Rnd :=
  match rm with
  | 1 => .rtz
  | 2 => .sto 4 r
  | 3 => .sto 3 r
  | _ => .rne

/-- Random bits of element `j` within its group of 32, of a 128-bit generator output (R142). -/
def rndBits (rm out j : Nat) : Nat :=
  if rm == 2 then bits out (4 * (j % 32) + 3) (4 * (j % 32)) else bits out (3 * (j % 32) + 2) (3 * (j % 32))

/-- Round-to-nearest-even FP32 operations on codes. -/
def f32 (c : Nat) : Fx := decodeF fp32 c
def r32 (x : Fx) : Nat := roundF fp32 .rne x
def fadd32 (a b : Nat) : Nat := r32 ((f32 a).add (f32 b))
def fsub32 (a b : Nat) : Nat := r32 ((f32 a).sub (f32 b))
def fmul32 (a b : Nat) : Nat := r32 ((f32 a).mul (f32 b))
def fdiv32 (a b : Nat) : Nat := r32 ((f32 a).div (f32 b))

/-- A 1,024-bit register as its elements of width `w`, element 0 first (R44). -/
def elems (w : Nat) (v : Row) : List Nat :=
  (List.range (1024 / w)).map (fun j => (v.toNat >>> (w * j)) % 2 ^ w)

/-- Elements of width `w` packed, element 0 lowest. -/
def packNat (w : Nat) : List Nat → Nat
  | [] => 0
  | x :: r => x % 2 ^ w + 2 ^ w * packNat w r

def packRow (w : Nat) (l : List Nat) : Row := BitVec.ofNat 1024 (packNat w l)

/-- The pairwise tree of R129: adjacent partial results, the lower range first, until one remains. -/
def pairUp {α : Type} (f : α → α → α) : List α → List α
  | a :: b :: r => f a b :: pairUp f r
  | l => l

/-- `n` levels of the pairwise tree. -/
def treeN {α : Type} (f : α → α → α) : Nat → List α → List α
  | 0, l => l
  | n + 1, l => treeN f n (pairUp f l)

/-- The pairwise tree over a non-empty list of at most 128 elements; `d` for the empty list. -/
def tree {α : Type} (d : α) (f : α → α → α) (l : List α) : α := (treeN f 7 l).headD d

end Sys2Proof.Machine
end

