-- ==== Sys2Proof/Machine/Sparse.lean ====
section
/-!
DEFINITION. Sparse maps: the one form in which every memory and every register array of the block is held. A map is
a list of (key, value) pairs with strictly rising keys and no value equal to what an unlisted key reads as, so that
equal contents are equal lists. Byte memories are `List Host.Cell`.
-/
namespace Sys2Proof

/-- A finite map with a default: strictly rising keys, no default value listed. DESIGN CHOICE, safe: assumption 1. -/
abbrev Sparse (α : Type) := List (Nat × α)

namespace Machine

/-- What key `k` reads as; an unlisted key reads as `d`. -/
def sget {α : Type} (d : α) (k : Nat) : Sparse α → α
  | [] => d
  | (k', v) :: r => if k' = k then v else sget d k r

/-- Insert or replace, keeping keys rising. -/
def sins {α : Type} (k : Nat) (v : α) : Sparse α → Sparse α
  | [] => [(k, v)]
  | (k', v') :: r =>
    if k < k' then (k, v) :: (k', v') :: r
    else if k' = k then (k, v) :: r
    else (k', v') :: sins k v r

/-- Remove a key. -/
def sdel {α : Type} (k : Nat) (m : Sparse α) : Sparse α := m.filter (fun c => c.1 ≠ k)

/-- Write `v` at key `k`; writing what an unlisted key reads as removes the entry. -/
def sput {α : Type} [DecidableEq α] (d : α) (k : Nat) (v : α) (m : Sparse α) : Sparse α :=
  if v = d then sdel k m else sins k v m

/-- The canonical form: strictly rising keys and no default value listed. -/
abbrev Sparse.wf {α : Type} (d : α) (m : Sparse α) : Prop :=
  m.Pairwise (fun a b => a.1 < b.1) ∧ ∀ c ∈ m, c.2 ≠ d

/-- A byte memory. -/
abbrev Memory := List Host.Cell

/-- The canonical form of a byte memory whose unlisted addresses read as zero. -/
abbrev Memory.wf (m : Memory) : Prop := Sparse.wf (0 : Byte) m

/-- One byte; an unlisted address reads as zero. -/
def readByte (m : Memory) (a : Nat) : Byte := sget 0 a m

/-- Write one byte. -/
def writeByte (m : Memory) (a : Nat) (b : Byte) : Memory := sput 0 a b m

/-- `n` bytes from address `a`, as a little-endian number. -/
def readLE (m : Memory) (a : Nat) : Nat → Nat
  | 0 => 0
  | n + 1 => (readByte m a).toNat + 256 * readLE m (a + 1) n

/-- Write the low `n` bytes of `v` at `a`, little-endian. -/
def writeLE (m : Memory) (a : Nat) : Nat → Nat → Memory
  | 0, _ => m
  | n + 1, v => writeLE (writeByte m a (BitVec.ofNat 8 v)) (a + 1) n (v / 256)

/-- `n` bytes from address `a`, as a list. -/
def readBytes (m : Memory) (a : Nat) : Nat → List Byte
  | 0 => []
  | n + 1 => readByte m a :: readBytes m (a + 1) n

/-- Write a list of bytes from address `a`. -/
def writeBytes (m : Memory) (a : Nat) : List Byte → Memory
  | [] => m
  | b :: r => writeBytes (writeByte m a b) (a + 1) r

/-- Set every address of `[a, a + n)` to zero: no address in it stays listed. -/
def zeroRange (m : Memory) (a n : Nat) : Memory := m.filter (fun c => c.1 < a || a + n ≤ c.1)

/-- Every listed value of a map changed. -/
def smap {α : Type} [DecidableEq α] (d : α) (f : α → α) (m : Sparse α) : Sparse α :=
  m.foldl (fun n c => sput d c.1 (f (sget d c.1 m)) n) []

/-- Remove every key of `[a, a + n)` from a map. -/
def sdelRange {α : Type} (a n : Nat) (m : Sparse α) : Sparse α := m.filter (fun c => c.1 < a || a + n ≤ c.1)

/-- A list of bytes as a little-endian number. -/
def leNat : List Byte → Nat
  | [] => 0
  | b :: r => b.toNat + 256 * leNat r

/-- A number as `n` bytes, little-endian. -/
def leBytes : Nat → Nat → List Byte
  | 0, _ => []
  | n + 1, v => BitVec.ofNat 8 v :: leBytes n (v / 256)

end Machine
end Sys2Proof
end

