-- ==== Sys2Proof/Machine/Kcb.lean ====
section
/-!
DEFINITION. The random-bit functions: the counter-based generator KCB (R380), the key derivation (R381) and the Wax
table with its output rule (R387, R388).
-/
namespace Sys2Proof.Machine

/-- Rotate left. -/
def rotl (w n k : Nat) : Nat := ((n <<< (k % w)) ||| (n >>> (w - k % w))) % 2 ^ w

/-- One round of KCB (R380). -/
def kcbRound (k0 k1 r : Nat) (x : Nat × Nat) : Nat × Nat :=
  let a0 := (k0 + r * 0xA0D73B65C4E219F7) % 2 ^ 64
  let a1 := (k1 + r * 0xD36E81A95B0C4F2D) % 2 ^ 64
  let p := x.1 * 0xB4E95D1A73C28F3B
  ((p >>> 64) ^^^ x.2 ^^^ a0, rotl 64 ((p % 2 ^ 64) ^^^ a1) 29)

/-- Rounds `r` to 9. -/
def kcbRounds (k0 k1 : Nat) : Nat → Nat × Nat → Nat × Nat
  | 0, x => x
  | n + 1, x => kcbRounds k0 k1 n (kcbRound k0 k1 (9 - n) x)

/-- KCB (R380): key (k0, k1), counter (c0, c1), low halves first; the output is a 128-bit number. -/
def kcb (k0 k1 c0 c1 : Nat) : Nat :=
  let x := kcbRounds k0 k1 10 (c0 % 2 ^ 64, c1 % 2 ^ 64)
  x.1 + x.2 * 2 ^ 64

/-- The key that RKEY and an update-engine job derive from a seed and a stream (R381). -/
def deriveKey (seed stream : Nat) : BitVec 128 :=
  BitVec.ofNat 128 (kcb 0x4B43422053454544 0x0000000000000004 seed stream)

/-- Entry `i` of the Wax table (R387). -/
def wax (i : Nat) : Nat := kcb 0x574158205441424C 0x0000000000000001 i 0

/-- The output of a generator in Wax mode with salt (k0, k1) at counter low half c0 (R388). -/
def waxOut (k0 k1 c0 : Nat) : Nat :=
  let d := (c0 + k0) % 2 ^ 19
  let i := d % 4096
  let rho := d >>> 12
  rotl 128 (wax i) rho ^^^ rotl 128 (wax (i ^^^ 0x800)) ((rho + 37) % 128) ^^^ (k1 <<< 64 ||| k1)

/-- One 128-bit output of a generator: `key` holds k1:k0 and `ctr` holds c1:c0. -/
def genOut (isWax : Bool) (key ctr : BitVec 128) : Nat :=
  let k0 := key.toNat % 2 ^ 64
  let k1 := key.toNat / 2 ^ 64
  let c0 := ctr.toNat % 2 ^ 64
  let c1 := ctr.toNat / 2 ^ 64
  if isWax then waxOut k0 k1 c0 else kcb k0 k1 c0 c1

end Sys2Proof.Machine
end

