-- ==== Sys2Proof/Machine/State.lean ====
section
/-!
DEFINITION. The state of the module: every register, buffer, queue, mode and pin the spec gives the KV4M-1152, as
plain data, the reasons a command stops, and the state after reset.
-/
namespace Sys2Proof.Machine

/-- One accumulator (R183): tag, kind bit (true: integer), and the value and error halves by row. -/
structure Acc where
  tag : BitVec 4 := 0
  kind : Bool := false
  val : Sparse Row := []
  err : Sparse Row := []
  deriving DecidableEq, Repr

/-- The stationary or the shadow register (R148, R168): format, 32 rows and the MX scale row. -/
structure Operand where
  fmt : BitVec 4 := 5
  rows : Sparse Row := []
  scales : BitVec 256 := 0
  deriving DecidableEq, Repr

/-- A tile generator (R380, R388): 128-bit key and counter (high half above low half), Wax mode, and whether RKEY
has run since task start. -/
structure Gen where
  key : BitVec 128 := 0
  ctr : BitVec 128 := 0
  isWax : Bool := false
  keyed : Bool := false
  deriving DecidableEq, Repr

/-- The words of the MXA command queue (R98). -/
inductive MxaOp where
  | sload | sswap | mmul | amov | amovi | aclr | adrain | aadd
  deriving DecidableEq, Repr

/-- One entry of the MXA command queue (R98, R176), with what its word read at issue. `tag`, `kind` are those the
word found or set at its start; `fetched`, `begun` and `done` count rows read into the feeders, rows whose multiply
step has begun, and rows through the add stage; `fuseInit` says that ACC2 was clear at the start (R200); `gen` is the
drain generator at the reservation (R205). `num` numbers the tile's queue words in order of issue. `doomed` says that it
will fault and that nothing else of its bundle commits (R93), `ue` the row, and the byte address, at which it will meet an
uncorrectable word (R172, R219). -/
structure MxaEntry where
  op : MxaOp
  o : OpT
  base : BitVec 64
  stride : BitVec 64
  vdata : Row
  pc : BitVec 32
  num : Nat
  started : Bool := false
  tag : BitVec 4 := 0
  kind : Bool := false
  fetched : Nat := 0
  begun : Nat := 0
  done : Nat := 0
  fuseInit : Bool := false
  gen : Gen := {}
  doomed : Bool := false
  ue : Option (Nat × Nat) := none
  deriving DecidableEq, Repr

/-- A moving row in the feeders: its elements, its MX scale, and the address of a word that read uncorrectable
(R170, R172). -/
structure FeedRow where
  data : Row
  scale : Byte
  bad : Option Nat
  deriving DecidableEq, Repr

/-- A result row in the drain FIFO (R173): where and under which tag it is combined, whether it is the first row of
an MMUL with CLR = 1 (R165), and its reserved generator value (R205). -/
structure DrainRow where
  acc : BitVec 3
  row : Nat
  tag : BitVec 4
  kind : Bool
  semi : BitVec 3
  clr : Bool
  data : Row
  gen : Gen
  deriving DecidableEq, Repr

/-- A message ring (MRINGn_CFG, MRINGn_PTR, MSG_RXn, MSG_NAKn of Table 2-6). `starts` lists the words at which the records from
HEAD to TAIL begin, in order, and `unread` the words of them that the program has not read (R293); both are the model's own. -/
structure Ring where
  isOpen : Bool := false
  size64 : BitVec 11 := 0
  base64 : BitVec 14 := 0
  head : BitVec 13 := 0
  tail : BitVec 13 := 0
  rx : BitVec 32 := 0
  nak : BitVec 32 := 0
  starts : List Nat := []
  unread : List Nat := []
  deriving DecidableEq, Repr

/-- A send whose result has not returned (R119, R120): its MSG_TX value, its destination, and the ring's decision
once taken (`some 0` accepted, `some r` a NAK with REASON r). -/
structure PendSend where
  seq : BitVec 32
  dest : BitVec 11
  ring : BitVec 3
  outcome : Option (BitVec 2) := none
  deriving DecidableEq, Repr

/-- A hold in WAIT or BAR (R269, R274): the virtual ID, the object, whether it is a WAIT, the tile's beat count when
the hold began (R280), whether it has been released, and whether its arrival found an epoch with another count (R277). -/
structure SyncHold where
  vid : BitVec 12
  obj : Nat
  isWait : Bool
  since : Nat
  released : Bool := false
  otherCnt : Bool := false
  deriving DecidableEq, Repr

/-- An instruction-buffer line (R102, R103): the 256-byte block it holds and the byte addresses of its words that
read uncorrectable in the fill. -/
structure IbufLine where
  block : Option Nat := none
  bad : List Nat := []
  deriving DecidableEq, Repr

/-- A bulk flit (Table 8-3). -/
structure Flit where
  data : BitVec 512
  ord : BitVec 8
  aux : BitVec 32
  deriving DecidableEq, Repr

/-- A run record in execution (R237): its word, its shelf address, and how many of its flits have moved. -/
structure RunRec where
  word : BitVec 64
  addr : Nat
  i : Nat
  deriving DecidableEq, Repr

/-- An input queue of a router (R237, R238, R243, R245): slots, records still to fetch and where the next one lies, the
record in force, the flits arrived in this phase, the link input FIFO, and the outputs whose queue holds its copy of the FIFO's
first flit. -/
structure InPort where
  slots : Nat := 0
  recs : Nat := 0
  next : Nat := 0
  cur : Option RunRec := none
  k : Nat := 0
  fifo : List Flit := []
  copied : List Nat := []
  deriving DecidableEq, Repr

/-- An output table of a router (R237, R239): slots, records still to fetch and where the next one lies, the record in
force, the slots supplied, the second flit of a G16 block whose first has been sent (R251), the bytes of a sealed unit
that wait for its check before they land (R508), and the running CRCs of the sealed unit in progress: of what is sent
or formed, and of the two operands taken from inputs (R252). -/
structure OutPort where
  slots : Nat := 0
  recs : Nat := 0
  next : Nat := 0
  cur : Option RunRec := none
  j : Nat := 0
  stash : Option Flit := none
  land : List (Nat × Byte) := []
  crc : BitVec 32 := 0xFFFFFFFF
  crcA : BitVec 32 := 0xFFFFFFFF
  crcB : BitVec 32 := 0xFFFFFFFF
  deriving DecidableEq, Repr

/-- The exchange program a tile's router executes in the current superstep (R236–R251): whether one was issued,
whether by EXCH_LAST, the landing zones as (START, LEN_M1), the five input queues N E S W ATTACH, the six output
tables N E S W TILE ATTACH, the queues from inputs to outputs (key 8·input + output), and the byte ranges that landings of
this phase have written (R107, R250). -/
structure Exch where
  issued : Bool := false
  last : Bool := false
  zones : List (Nat × Nat) := []
  ins : Sparse InPort := []
  outs : Sparse OutPort := []
  qs : Sparse (List Flit) := []
  landed : List (Nat × Nat) := []
  deriving DecidableEq, Repr

/-- A narrow element that waits in a gather unit (R339, R340): its tile and the number of its copy, its operation, FMT, AOP and
ESIZE in bytes, EA as it stood when the element was formed (R343), its stack-local and its shelf address, and its operand. -/
structure NarrowReq where
  tile : TileId
  num : Nat
  op : Nat
  fmt : Nat
  aop : Nat
  es : Nat
  ea : Int
  addr : Nat
  da : Nat
  opnd : List Byte
  deriving DecidableEq, Repr

/-- A reply or acknowledgement of a narrow element on its way back (R340): its tile and the number of its copy, the shelf
address and the bytes of a GATHER element (none for a write), and whether the element met poison (R348). -/
structure NarrowReply where
  tile : TileId
  num : Nat
  addr : Nat
  data : List Byte
  poison : Bool
  deriving DecidableEq, Repr

/-- A descriptor in a tile's copy queue (R99, Table 11-2), after the addition of g[RA] to its source offset: its
fields, the object its SID translated to, its shelf address, the PC and issue number, the partition and task serial, and
for a narrow operation the elements formed and answered and the stacks that met poison.
`silent` says that an element failed its check, so that the counter does not advance (R339). -/
structure CopyDesc where
  op : Nat
  sealed : Bool
  sumsq : Bool
  fmt : Nat
  aop : Nat
  esize : Nat
  scale : Nat
  stage : Nat
  hbm : Nat
  rows : Nat
  len : Nat
  hstride : Int
  sstride : Int
  idx : Nat
  data : Nat
  obj : Nat
  addr : Nat
  pc : BitVec 32
  num : Nat
  part : Nat
  task : Nat
  formed : Nat := 0
  answered : Nat := 0
  poisoned : List Nat := []
  silent : Bool := false
  deriving DecidableEq, Repr

/-- A sampled item on its way to the partner (R513): its number, its bundle and the result rows of tile T. A row item carries
the moving row with its scale, SEMI and FMT, and the stationary operand where the partner does not already hold it; a word item
carries the word and the v registers that it reads and writes. -/
structure SentItem where
  num : Nat
  pc : BitVec 32
  result : List Row
  isRow : Bool
  moving : Row := 0
  scale : Byte := 0
  semi : BitVec 3 := 0
  fmt : BitVec 4 := 0
  stat : Option Operand := none
  word : Word := 0
  vs : Sparse Row := []
  deriving DecidableEq, Repr

/-- One tile (Table 2-4, Table 2-6). `st` is TILE_STATE.STATE (Table 2-5), `task` the serial of the task that holds it, `pc` the
address of the next bundle, `lost` the die beats spent in PILOT and `pilotAt` the die beats at entry and `pilotScrub` the Scrub mode at entry (TILE_BEATS does not count
there), `vuNext` the vector-unit generator that an RKEY or RCTR of the bundle in progress sets for the next bundle (R382; none
between bundles), `since` the tile's beats at the last change among the waiting states (R280), `sendWait` the MSG_TX value of the
send whose result a held SEND waits for (R119), `modeHeld` and `wdogHeld` the settings of its partition's MODE and SYNC_WDOG that
stay in force in it until its next superstep boundary although others are pending (R493), `sentReg` the sentinel register (R513).
`fifo` holds the drain FIFO's 32 entries and, behind them, the rows in the output stage (R178). A poisoned or erroneous shelf word
is listed in `bad`, by word index: 1 correctable, 2 uncorrectable and not yet poisoned, 3 poisoned (R215–R217). -/
structure Tile where
  st : BitVec 4 := 0
  task : Nat := 0
  rel : BitVec 11 := 0
  foot : BitVec 16 := 0
  pc : BitVec 32 := 0
  sstep : BitVec 64 := 0
  brk : Bool := false
  brkAct : Bool := false
  fValid : Bool := false
  fMulti : Bool := false
  fCode : BitVec 8 := 0
  fTaken : Bool := false
  fPc : BitVec 32 := 0
  fAddr : BitVec 32 := 0
  gs : Sparse Word := []
  ps : BitVec 8 := 0
  vs : Sparse Row := []
  accs : Sparse Acc := []
  stat : Operand := {}
  shadow : Operand := {}
  queue : List MxaEntry := []
  mxaNum : Nat := 0
  feeders : List FeedRow := []
  fifo : List DrainRow := []
  freezeFeed : BitVec 64 := 0
  freezeDrain : BitVec 64 := 0
  vu : Gen := {}
  vuNext : Option Gen := none
  dr : Gen := {}
  waxUsed : Bool := false
  shelf : Memory := []
  bad : Sparse Nat := []
  shelfCe : BitVec 32 := 0
  shelfUe : BitVec 32 := 0
  shelfUeAddr : BitVec 32 := 0
  modeHeld : Option (BitVec 32) := none
  wdogHeld : Option (BitVec 32) := none
  scrubPtr : BitVec 19 := 0
  scrubPass : BitVec 64 := 0
  selTile : BitVec 6 := 0
  selHost : BitVec 6 := 0
  selLmc : BitVec 6 := 0
  conflicts : Sparse (BitVec 32) := []
  ibuf : Sparse IbufLine := []
  rings : Sparse Ring := []
  msgTx : BitVec 32 := 0
  msgTxNak : BitVec 32 := 0
  msgResult : BitVec 2 := 0
  msgReason : BitVec 2 := 0
  msgSeq : BitVec 16 := 0
  hist : BitVec 32 := 0
  sends : List PendSend := []
  sendWait : Option (BitVec 32) := none
  nakDest : BitVec 11 := 0
  nakRing : BitVec 3 := 0
  nakCount : Nat := 0
  hold : Option SyncHold := none
  since : Nat := 0
  pilotAt : Option Nat := none
  pilotScrub : Bool := false
  lost : Nat := 0
  exch : Exch := {}
  copies : List CopyDesc := []
  copyNum : Nat := 0
  rowNum : Nat := 0
  wordNum : Nat := 0
  sent : List SentItem := []
  sentReg : Operand := {}
  deriving DecidableEq, Repr

/-- A WAIT that holds at an object (R269): its tile, its target, and whether a VALUE at or past the target has been
met. -/
structure Waiter where
  tile : TileId
  target : BitVec 32
  met : Bool := false
  deriving DecidableEq, Repr

/-- An arrival on its way to a sync object (R274, R275): its tile (none from a source that is no tile), its count, the virtual ID
that its BAR named, and whether its tile's task has ended meanwhile. -/
structure Arrival where
  tile : Option TileId
  cnt : BitVec 16
  vid : BitVec 12 := 0
  gone : Bool := false
  deriving DecidableEq, Repr

/-- A sync object (R267), with the WAITs that hold at it and the tiles whose arrivals the epoch in progress has taken
(R274). `bound` says that a live sync collective binds it (R413); increments and arrivals are then collected in
`dInc`, `dArr`, `dCnt` and `dBars` until a SYNC frame takes them, and `fBars` lists the tiles whose arrivals are in the
frame on its way. `coming` lists the arrivals of the beat in progress, with their counts and virtual IDs, which the node takes in
the order of its inputs at the end of the beat (R275). -/
structure SyncObj where
  value : BitVec 32 := 0
  cnt : BitVec 16 := 0
  arrived : BitVec 16 := 0
  waits : List Waiter := []
  bars : List TileId := []
  bound : Bool := false
  dInc : BitVec 32 := 0
  dArr : Nat := 0
  dCnt : BitVec 16 := 0
  dBars : List TileId := []
  fBars : List (List TileId) := []
  coming : List Arrival := []
  deriving DecidableEq, Repr

/-- What a SIG follows (R117, R272): its tile, and the tile's MSG_TX, copy number and queue-word number at its
issue. -/
structure SigSrc where
  tile : TileId
  seq : BitVec 32
  copies : Nat
  drains : Nat
  deriving DecidableEq, Repr

/-- The unit that an increment comes from where no SIG sends it (R268): the Sideboard, the copies of a tile, the update engine of a
stack, a Lampline port, or the host's writes to SYNC_SIG. -/
inductive IncUnit where
  | sideboard
  | copies (t : TileId)
  | engine (k : Nat)
  | port (p : Nat)
  | host
  deriving DecidableEq, Repr

/-- An increment on its way to its object (R268): `src` for a SIG, else the unit that sent it. -/
structure SyncInc where
  obj : Nat
  amt : BitVec 32
  src : Option SigSrc := none
  unit : IncUnit := .sideboard
  deriving DecidableEq, Repr

/-- A message on the control network (R290): sender tile and relative ID, destination tile and ring, data words and
the sender's MSG_TX. -/
structure Msg where
  src : TileId
  srcRel : BitVec 11
  dst : TileId
  ring : BitVec 3
  words : List Word
  seq : BitVec 32
  deriving DecidableEq, Repr

/-- A seal entry of a 4 KiB unit of a stack (R509). `start` is where in those 4 KiB the sealed unit begins, which says
which bytes R510 means: 0 but for a G16 unit. It is the model's own. -/
structure SealEntry where
  crc : BitVec 32 := 0
  sv : Bool := false
  g : Bool := false
  start : Nat := 0
  deriving DecidableEq, Repr

/-- An exact accumulator (WSQ, X0–X7; R358, R369): a fixed-point sum in units of 2^-298 of 640 bits, +∞ and NaN. -/
structure XAcc where
  val : Nat := 0
  inf : Bool := false
  nan : Bool := false
  deriving DecidableEq, Repr

/-- An arm accepted by a base die (R334, R335): its descriptor, the flits moved, the running CRC of the sealed unit in
progress, and the first flit of a G16 pair (R338). -/
structure Arm where
  d : CopyDesc
  n : Nat := 0
  crc : BitVec 32 := 0xFFFFFFFF
  hold : Option Flit := none
  deriving DecidableEq, Repr

/-- The base-die end of one memory attach link (R334–R337), keyed by the router's tile: arms in both directions,
flits taken from the router and not yet landed, and the flit ordinals of the phase. -/
structure ArmLink where
  ins : List Arm := []
  outs : List Arm := []
  fromRouter : List Flit := []
  kIn : Nat := 0
  kOut : Nat := 0
  deriving DecidableEq, Repr

/-- An update-engine job (Table 12-4). -/
abbrev Job := Vector (BitVec 32) 48

/-- An update engine (R369–R378): the vector registers by 64·e + lane, the scalars P0–P15, the exact accumulators,
the program memory by word, the job queue (the running job first), where the running job stands (`phase`: 0 none, 1
checked and waiting, 2 in PRE, 3 in the body, 4 all groups done), its next word, its group, the objects its IDs
translated to and LAMP of RED_VID's entry, a RED's contribution in flight and the registers. -/
structure Engine where
  es : Sparse (BitVec 32) := []
  ps : Sparse (BitVec 32) := []
  xs : Sparse XAcc := []
  prog : Sparse (BitVec 32) := []
  queue : List Job := []
  phase : Nat := 0
  ip : Nat := 0
  bodyIp : Nat := 0
  group : Nat := 0
  waitObj : Nat := 0
  sigObj : Nat := 0
  redObj : Nat := 0
  redLamp : Bool := false
  key : BitVec 128 := 0
  reducing : Option (BitVec 32) := none
  total : Option (BitVec 64) := none
  writes : List (Nat × Byte) := []
  halted : Bool := false
  progAddr : BitVec 8 := 0
  doorbell : BitVec 2 := 0
  faultValid : Bool := false
  faultCode : BitVec 8 := 0
  faultGroup : BitVec 32 := 0
  hole : BitVec 32 := 0
  late : BitVec 32 := 0
  satblk : BitVec 32 := 0
  elems : BitVec 64 := 0
  wsqF64 : BitVec 64 := 0
  jobRegs : Sparse (BitVec 32) := []
  deriving DecidableEq, Repr

/-- One HBM stack with its base die (Table 11-1, Table 11-8). `cells` lists the bytes written since the last re-key; an unlisted
byte reads as R352 says. `poison` lists poisoned 64-byte units, `found` the units met as uncorrectable since the last re-key,
`bad` units whose next read meets a correctable (1) or an uncorrectable (2) error, `snooped` the units the host may cache, in
order of recording, each with whether it may hold the unit modified (R475). `stgErr` lists 64-bit words of the staging SRAM whose
next read meets a correctable (1) or an uncorrectable (2) error, `stgPoison` its poisoned words. `narrowQ` holds the elements that
wait in the gather unit, in order of arrival, and `narrowOut` the replies on their way back (R340). `rekeying` says that a re-key
is in progress (R351). -/
structure Stack where
  owner : Option Nat := none
  keyValid : Bool := false
  hot : Bool := false
  temp : BitVec 8 := 0
  ctl : BitVec 32 := 0x2000
  ctlAct : BitVec 32 := 0x2000
  window : Bool := false
  stgBase : BitVec 16 := 0
  stgSize : BitVec 16 := 0x180
  gen : BitVec 16 := 0
  rekeys : Nat := 0
  ce : BitVec 32 := 0
  ue : BitVec 32 := 0
  ueAddr : BitVec 32 := 0
  g16aRange : BitVec 32 := 0
  copyPoison : BitVec 32 := 0
  rd : BitVec 64 := 0
  wr : BitVec 64 := 0
  narrow : BitVec 64 := 0
  cells : Memory := []
  poison : Sparse Bool := []
  found : Sparse Bool := []
  bad : Sparse Nat := []
  seals : Sparse SealEntry := []
  stg : Memory := []
  stgSide : Sparse (BitVec 32) := []
  stgErr : Sparse Nat := []
  stgPoison : Sparse Bool := []
  narrowQ : List NarrowReq := []
  narrowOut : List NarrowReply := []
  rekeying : Bool := false
  wsq : XAcc := {}
  eng : Engine := {}
  snooped : List (Nat × Bool) := []
  ceWindow : Nat := 0
  ceAt : Option Nat := none
  deriving DecidableEq, Repr

/-! ### Reductions (R360) -/

/-- A reduction object of the update engines: the stacks whose contributions of the epoch in progress have come, the
module total that has entered the Lampline, and the stacks that T has yet to reach. -/
structure Red where
  parts : List (Nat × XAcc) := []
  total : Option (BitVec 64) := none
  waiting : List Nat := []
  deriving DecidableEq, Repr

/-! ### Lampline (Chapter 14) -/

/-- The deltas of a sync collective on their way (R413, Table 14-11). -/
structure Delta where
  inc : BitVec 32 := 0
  arr : Nat := 0
  cnt : BitVec 16 := 0
  deriving DecidableEq, Repr

/-- A contribution held in the Defer store (R366): payload and G16 headers of one frame. -/
structure HeldFrame where
  payload : BitVec 8192 := 0
  aux : BitVec 128 := 0
  deriving DecidableEq, Repr

/-- A collective descriptor (LP_COLL[n]) and its step. Words 0–4 as written, STATE and FAULT of word 5; the objects bound; flits
taken from the tiles, those not yet formed into a frame and whole frames not yet consumed; the ordinals passed over whose
contribution has not come; frames reduced so far and frames gathered so far; the partials that wait for their contribution, with
the time at which each came; the whole contributions with whether each is LATE; results not yet given to the tiles and the flits
given; the Defer store by ordinal; the running CRCs of the partial, the contribution, the sum and the gathered data, and whether
the step's units carry seals; when the chunk that starts here came due (R415); a scalar collective's parked frame, ring and value;
and a sync collective's deltas on their way to the next or the previous ring. -/
structure Coll where
  w0 : BitVec 32 := 0
  w1 : BitVec 32 := 0
  w2 : BitVec 32 := 0
  w3 : BitVec 32 := 0
  w4 : BitVec 32 := 0
  state : BitVec 2 := 0
  fault : BitVec 8 := 0
  trigObj : Nat := 0
  doneObj : Nat := 0
  kIn : Nat := 0
  flits : List Flit := []
  ready : List (Nat × HeldFrame × Bool) := []
  missed : List Nat := []
  reduced : Nat := 0
  gathered : Nat := 0
  started : Nat := 0
  parked : List (Nat × Frame) := []
  results : List Flit := []
  kOut : Nat := 0
  held : Sparse HeldFrame := []
  crcP : BitVec 32 := 0xFFFFFFFF
  crcL : BitVec 32 := 0xFFFFFFFF
  crcS : BitVec 32 := 0xFFFFFFFF
  crcG : BitVec 32 := 0xFFFFFFFF
  sealing : Bool := false
  dueAt : Nat := 0
  syncPark : Option Frame := none
  ringAt : Nat := 0
  value : Option (BitVec 64) := none
  up : Sparse Delta := []
  down : Sparse Delta := []
  deriving DecidableEq, Repr

/-- A Lampline port (Table 14-9). LP_RING and LP_MAP with pending and applied values, the map by rank with VALID in bit
7; the link layer of R398 and R399 (next SEQ, last SEQ taken, whether it asks for a replay, the frames sent and not
acknowledged, the frames to resend); the queues of control, transit and own frames, and the unacknowledged frames that a splice sends
again over the skip link (R407, R422); whether LP_MAP has been written since the map in force (R426); the marker that rank 0 has out,
the last EMIT_NS seen and the next serials; whether a coast-down has been asked for and by this module, the COAST frames
forwarded, a resume that waits for the boundary and a COAST = 0 written for the next frame boundary (R417, R418); since when
the lanes are being switched (R419); a splice that waits for the revolution boundary (R427); and on an X port the position
whose rank this lantern took (R425). -/
structure Port where
  owner : Option Nat := none
  link : BitVec 3 := 0
  spliced : Bool := false
  coasted : Bool := false
  broken : Bool := false
  holding : Bool := false
  lanes : Nat := 0
  laneOk : BitVec 16 := 0
  ctl : BitVec 32 := 0x10
  ctlAct : BitVec 32 := 0x10
  ring : BitVec 32 := 0
  ringAct : BitVec 32 := 0
  map : Sparse (BitVec 8) := []
  mapAct : Sparse (BitVec 8) := []
  rev : BitVec 32 := 0
  replay : BitVec 32 := 0
  ttlDrop : BitVec 32 := 0
  holes : BitVec 32 := 0
  lates : BitVec 32 := 0
  discard : BitVec 32 := 0
  markLost : BitVec 32 := 0
  fecCe : BitVec 64 := 0
  revs : BitVec 64 := 0
  data : BitVec 64 := 0
  colls : Sparse Coll := []
  seqOut : BitVec 16 := 0
  seqIn : BitVec 16 := 0xFFFF
  askReplay : Bool := false
  sent : List Frame := []
  resend : List Frame := []
  ctlQ : List Frame := []
  transit : List Frame := []
  ownQ : List Frame := []
  redo : List Frame := []
  mapSet : Bool := false
  marker : Option (BitVec 64) := none
  markAt : Nat := 0
  lastEmit : Option (BitVec 64) := none
  markSerial : BitVec 64 := 0
  coastAsk : Bool := false
  coastMine : Bool := false
  coastSerial : BitVec 64 := 0
  coastSeen : List (BitVec 7 × BitVec 64) := []
  resumeAsk : Bool := false
  coastOff : Bool := false
  switchAt : Nat := 0
  spliceAsk : Bool := false
  took : Option (BitVec 7) := none
  deriving DecidableEq, Repr

/-! ### Windows, fault records and the event log (Chapter 18) -/

/-- An entry of the window table (R524), with the ports whose drain markers have not returned (R528). -/
structure Win where
  state : BitVec 2 := 0
  gen : BitVec 16 := 0
  part : BitVec 5 := 0
  peer : Bool := false
  host : Bool := false
  base : BitVec 64 := 0
  len : BitVec 32 := 0
  drains : List Nat := []
  deriving DecidableEq, Repr

/-- The part of a sealed unit of a window write that has come (R529): its window, its first offset, the port side
and the rank that it comes from, and its bytes. -/
structure WinUnit where
  win : Nat
  off : Nat
  port : Nat
  orig : BitVec 7
  bytes : List Byte
  deriving DecidableEq, Repr

/-- A fault-record mailbox: its records, oldest first, as bytes, and FR_LOST (R520). -/
structure FrBox where
  recs : List (List Byte) := []
  lost : BitVec 32 := 0
  deriving DecidableEq, Repr

/-! ### The Sideboard (Chapter 15) -/

/-- A task of an admitted graph (Table 15-5). `st`: 0 waits for predecessors or a position, 1 placed, 2 dispatched,
3 ended; `status` as Table 15-8; `skips` counts the placement passes that
passed it over; `saved` is the partition address of a saved context, `serial` the run that holds its footprint, and `code`
the fault code it ended with. -/
structure TaskRec where
  word : BitVec 512
  preds : List Nat
  st : Nat := 0
  status : Nat := 0
  skips : Nat := 0
  attempts : Nat := 0
  saved : Option Nat := none
  serial : Nat := 0
  code : BitVec 8 := 0
  deriving DecidableEq, Repr

/-- An admitted graph (Table 15-4). -/
structure Graph where
  num : Nat
  part : Nat
  desc : BitVec 512
  tasks : List TaskRec
  deriving DecidableEq, Repr

/-- A sync record of a running task (R288): virtual ID, CHECK, NET, and the object and START recorded at dispatch. -/
structure SyncRec where
  vid : Nat
  check : Bool
  net : BitVec 32
  obj : Nat := 0
  start : BitVec 32 := 0
  deriving DecidableEq, Repr

/-- A host stream at a CXL attach router (R477–R479): its descriptor and the flits moved. -/
structure HostStream where
  inAddr : BitVec 64
  outAddr : BitVec 64
  inLen : Nat
  outLen : Nat
  kIn : Nat := 0
  kOut : Nat := 0
  deriving DecidableEq, Repr

/-- A partition's view of the SIDEBOARD block (Table 17-8), with the records held under R451 and, while that buffer is full, those
of tasks and graphs that wait for room in it. -/
structure Sideboard where
  enable : Bool := false
  cfgErr : Bool := false
  subqBase : BitVec 64 := 0
  subqSize : BitVec 5 := 0
  subqTail : BitVec 20 := 0
  subqHead : BitVec 20 := 0
  cplqBase : BitVec 64 := 0
  cplqSize : BitVec 5 := 0
  cplqHead : BitVec 20 := 0
  cplqTail : BitVec 20 := 0
  phase : Bool := false
  nblBase : BitVec 64 := 0
  tasks : BitVec 64 := 0
  held : List (BitVec 256) := []
  stall : List (BitVec 256) := []
  deriving DecidableEq, Repr

/-- The re-bind in progress or last made (PART_REBIND, Table 15-11), its old owner, and the tasks
that it saves, by serial, each with the address of its context; the blocks that take no part in placement meanwhile (R444); the
time of the quiesce point once it has passed (R435); and LP_REVS of the ports at their erase. -/
structure Rebind where
  reg : BitVec 32 := 0
  mask : BitVec 32 := 0
  busy : Bool := false
  phase : BitVec 3 := 0
  result : BitVec 4 := 0
  us : BitVec 32 := 0
  act : BitVec 32 := 0
  actMask : BitVec 32 := 0
  owner : Nat := 0
  saving : List (Nat × Nat) := []
  involved : BitVec 32 := 0
  quietAt : Option Nat := none
  revsAt : List (Nat × BitVec 64) := []
  deriving DecidableEq, Repr

/-! ### Starting, power and the board (Chapters 17, 19, 20) -/

/-- The RESET/START block (Table 17-7) and the start in progress: 0 none, 1 cold, 2 warm; `fellBack` says that a warm
start failed before it; `cause` is RST_CAUSE;
`repairW` and `repairE` are the repair map, the physical column that is disabled on each die (R57). -/
structure Start where
  kind : Nat := 0
  phase : BitVec 8 := 0xFF
  began : Nat := 0
  heldNs : Nat := 0
  holdAt : Nat := 0
  ports : Bool := false
  cxl : Bool := false
  fellBack : Bool := false
  fails : BitVec 3 := 0
  last : BitVec 3 := 1
  ms : BitVec 16 := 9000
  cause : BitVec 32 := 0x80000000
  recovery : Bool := false
  exhausted : Bool := false
  repairW : Nat := 32
  repairE : Nat := 32
  fromSnuffed : Bool := false
  lmcWait : Bool := false
  ctlResult : BitVec 2 := 0
  part : BitVec 5 := 0
  partResult : BitVec 2 := 0
  tile : BitVec 11 := 0
  tileResult : BitVec 2 := 0
  deriving DecidableEq, Repr

/-- The Dimmer (Table 19-8): DIM_CTL as written and in force, the class in force, rates in 10 Mbeat/s, the power states of
module, dies and blocks, the seam registers (R259), the tenths of a beat that each die has run since its last whole beat; the
rates that the last control period gave the dies while Lit; and the time stamp at which each die, the module and each block was
last busy (R538), the time stamp at which the last seam window ended, and the dies, blocks and module that wake events during a restart
of the Lamplighter want woken (R551). -/
structure Dimmer where
  ctl : BitVec 32 := 0x40000000
  ctlAct : BitVec 32 := 0x40000000
  budget : BitVec 24 := 5
  thresh : BitVec 32 := 0x14064064
  throttle : BitVec 32 := 0
  energy : BitVec 64 := 0
  watts : BitVec 16 := 0
  tj : BitVec 8 := 0
  cls : BitVec 2 := 0
  badStrap : Bool := false
  belowMin : Bool := false
  limited : Bool := false
  rateW : BitVec 8 := 0
  rateE : BitVec 8 := 0
  dimW : Bool := false
  dimE : Bool := false
  pilot : BitVec 32 := 0
  banked : Bool := false
  seamRatio : BitVec 32 := 0xFFFF
  seamHold : BitVec 64 := 0
  seamW : Nat := 0
  seamE : Nat := 0
  fracW : Nat := 0
  fracE : Nat := 0
  litW : BitVec 8 := 0
  litE : BitVec 8 := 0
  busyW : Nat := 0
  busyE : Nat := 0
  busyM : Nat := 0
  busyB : Sparse Nat := []
  seamAt : Nat := 0
  owedDies : BitVec 2 := 0
  owedBlocks : BitVec 32 := 0
  owedBanked : Bool := false
  deriving DecidableEq, Repr

/-- The pins and inputs of the board (Chapter 20). `smbAlert` says whether SMB_ALERT_N is asserted: no rule asserts it (Table 20-5). -/
structure Pins where
  power : Bool := true
  snuffed : Bool := false
  prsnt : Bool := true
  perst : Bool := false
  warn : Bool := false
  warnOff : Nat := 0
  refclk : Bool := true
  wakeN : Bool := false
  smbAlert : Bool := false
  smb : BitVec 7 := 0x64
  millivolt : Nat := 54000
  deriving DecidableEq, Repr

/-- The LMC MAILBOX (Table 19-9) and the firmware images: the image received, whether it has been verified, the image in
flash, the image in force and the fused minimum SVN. -/
structure Lmc where
  cmd : BitVec 32 := 0
  arg : BitVec 32 := 0
  busy : Bool := false
  result : BitVec 8 := 0
  buf : Memory := []
  image : Memory := []
  imageLen : Nat := 0
  verified : Bool := false
  flash : Memory := []
  flashLen : Nat := 0
  running : Memory := []
  runningLen : Nat := 0
  minSvn : Nat := 0
  deriving DecidableEq, Repr

/-- An HDM decoder (R472): its program, whether it is committed, and whether its last commit failed. -/
structure HdmSlot where
  prog : Hdm := {}
  on : Bool := false
  failed : Bool := false
  deriving DecidableEq, Repr

/-- A command of the Memory Device mailbox (Table 16-7), with what it carries. -/
inductive Mbox where
  | identify
  | getEvents
  | clearEvents (n : BitVec 8)
  | getPolicy
  | setPolicy (v : BitVec 32)
  | getLogs
  | getLog (off len : BitVec 32)
  | getPoison
  | sanitize
  | secureErase
  | getFwInfo
  | transferFw (off : BitVec 32) (b : List Byte) (final : Bool)
  | activateFw
  | other (op : BitVec 16)
  deriving DecidableEq, Repr

/-- The CXL port (Chapter 16): the link, the vendor DVSEC counters, the HDM decoders, ATS and the translation cache as function,
page and translated page, IDE with the streams that are insecure (R483), the mailbox commands that wait for the Lamplighter (R551), and the event interrupt policy. -/
structure Cxl where
  rate : BitVec 4 := 0
  width : BitVec 6 := 0
  reversed : Bool := false
  ready : Bool := false
  ideIo : BitVec 4 := 0
  ideCm : Bool := false
  skid : Bool := false
  cmFailed : Bool := false
  ioFailed : BitVec 4 := 0
  mbox : List Mbox := []
  aer : Nat := 0
  unowned : BitVec 32 := 0
  xlateErr : BitVec 32 := 0
  hdm : Sparse HdmSlot := []
  ats : Sparse Bool := []
  atc : List (Nat × Nat × Nat) := []
  policy : BitVec 32 := 0
  deriving DecidableEq, Repr

/-- The requests that the module issues to host memory (R466, R468): on CXL.cache RdCurr, WrCur for a whole line and WOWrInv with a
byte mask for less; untranslated, memory reads and writes of CXL.io. -/
inductive HostOp where
  | rdCurr
  | wrCur
  | wowrInv (mask : BitVec 64)
  | memRd
  | memWr
  deriving DecidableEq, Repr

/-- A request of the module to host memory: the function on whose behalf it is made, its kind, the address that it carries, and
the bytes of a write. -/
structure HostReq where
  fn : Nat
  op : HostOp
  addr : Nat
  bytes : List Byte
  deriving DecidableEq, Repr

/-- Why a command stops in a fault. The spec gives every command an effect, so no command does: nothing raises a fault. -/
inductive Fault where
  deriving DecidableEq, Repr

/-- Why a command is refused. -/
inductive Refusal where
  /-- The command has no meaning in this model yet: its arm in the dispatch raises it (safe). No arm does. -/
  | notModelled (mnemonic : String)
  deriving DecidableEq, Repr

/-- A dispatched task (R23): its partition, graph number and index, its NBL handle and its footprint, the settings it
runs under, the fault of its first faulting tile (R447) with the beat in which it arose, whether its tiles have been stopped for
it (R26), a stop that the Sideboard has ordered (2 LINK_LOSS, 3 REVOKED),
its staging allocation in bytes, whether its end has been checked and signalled (R24, R451), its sync records and its
host streams by router tile. -/
structure Run where
  part : Nat := 0
  graph : Nat := 0
  index : Nat := 0
  nbl : Nat := 0
  bx0 : Nat := 0
  by0 : Nat := 0
  w : Nat := 1
  h : Nat := 1
  stoch : Bool := false
  sr3 : Bool := false
  sentD : Nat := 0
  fault : Option (BitVec 8 × BitVec 11) := none
  faultAt : BitVec 64 := 0
  halted : Bool := false
  stop : Option Nat := none
  stgOff : Nat := 0
  stgSize : Nat := 0
  signalled : Bool := false
  syncs : List SyncRec := []
  streams : Sparse HostStream := []
  deriving DecidableEq, Repr

/-- An event of Table 18-4 that waits to be written as a fault record (R519): its SOURCE, CODE, UNIT and PART (0xFF for
none), the time stamp of its first occurrence, task and superstep serials, ADDR, AUX and the occurrences coalesced. -/
structure FaultEvt where
  source : Nat
  code : Nat
  unit : Nat
  part : Nat
  tstamp : Nat
  serial : Nat
  sstep : Nat
  addr : Nat
  aux : Nat
  count : Nat
  deriving DecidableEq, Repr

/-- A CXL event record that the module has logged (R521): a General Media record of an uncorrectable unit, or a DRAM
record of a stack's corrected units with their count. -/
structure CxlEvt where
  dram : Bool
  dpa : Nat
  count : Nat
  tstamp : Nat
  deriving DecidableEq, Repr

/-- The INTEGRITY counters (Table 18-9). -/
structure Integ where
  sealErr : BitVec 32 := 0
  sentMismatch : BitVec 32 := 0
  sentLast : BitVec 32 := 0
  sealMade : BitVec 64 := 0
  sentChecks : BitVec 64 := 0
  winStale : BitVec 32 := 0
  winRefused : BitVec 32 := 0
  deriving DecidableEq, Repr

/-- A partition (Table 15-11, Table 11-9, Table 19-4): its blocks, its sync range, its limits and context area, its
interleave windows, its staged settings and its SIDEBOARD registers. Stacks and ports name their owner themselves. -/
structure Part where
  blocks : BitVec 32 := 0
  syncBase : BitVec 15 := 0
  syncCount : BitVec 16 := 0
  recMax : BitVec 19 := 0
  rerunMax : BitVec 4 := 2
  ctxAddr : BitVec 32 := 0
  ctxSize : BitVec 32 := 0
  iwin : Sparse (BitVec 32) := []
  iwinAct : Sparse (BitVec 32) := []
  imapResult : BitVec 2 := 0
  g16aExp : BitVec 8 := 0
  msgStuck : BitVec 32 := 0
  syncErr : BitVec 32 := 0
  wdog : BitVec 32 := 0x4000
  wdogAct : BitVec 32 := 0x4000
  mode : BitVec 32 := 0x08000000
  modeAct : BitVec 32 := 0x08000000
  sb : Sideboard := {}
  deriving DecidableEq, Repr

/-- The module. `pending` holds the commands that wait; `time` is the 64-bit time stamp and `beatsW`, `beatsE` the beats of each
die; `steppingB0` says that the module is of stepping B0 (R3). `live` lists the serials of tasks that hold a footprint; `serial`
and `graphNum` number tasks and graphs; `undef` counts uses of free values. `elWait` holds the event-log entries, as kind,
partition and time stamp, that arise while the Lamplighter restarts (R551). `hostOut`, `msix`, `bisnp`, `platform` and `reply`
record what the module has sent: its requests to host memory, interrupts as (function, vector), back-invalidations, records sent
to the platform, and the answer of the last command that returns data. -/
structure State where
  pending : List Instr
  steppingB0 : Bool
  time : BitVec 64
  beatsW : Nat
  beatsE : Nat
  tiles : Sparse Tile
  objs : Sparse SyncObj
  incs : List SyncInc
  msgs : List Msg
  xlate : Sparse (BitVec 32)
  runs : Sparse Run
  live : Sparse Bool
  parts : Sparse Part
  hbm : Sparse Stack
  arms : Sparse ArmLink
  undef : Nat
  events : List FaultEvt
  integ : Integ
  cxlEvts : List CxlEvt
  bisnp : List (Nat × Nat × Bool)
  biFull : BitVec 32
  reds : Sparse Red
  ports : Sparse Port
  wins : Sparse Win
  winUnits : List WinUnit
  winPortId : Sparse (BitVec 32)
  winPortBase : Sparse (BitVec 32)
  frPf : FrBox
  frVf : Sparse FrBox
  el : Sparse (BitVec 256)
  elSeq : BitVec 64
  elRd : BitVec 64
  elLost : BitVec 32
  elWait : List (Nat × Nat × Nat)
  sels : Sparse (BitVec 32)
  los : Sparse (Option (BitVec 32))
  badAccess : Sparse (BitVec 32)
  flags : Sparse (BitVec 32)
  graphs : List Graph
  graphNum : Nat
  serial : Nat
  rebind : Rebind
  start : Start
  dim : Dimmer
  pins : Pins
  lmc : Lmc
  cxl : Cxl
  hostOut : List HostReq
  msix : List (Nat × Nat)
  platform : List (List Byte)
  reply : List (BitVec 64)
  deriving DecidableEq, Repr

/-- Partition 0 after a cold start (R432): every block, the range 16,384–32,767, a record limit of 262,144, and the default
window over all twelve stacks (R324). -/
def Part.first : Part :=
  { blocks := 0xFFFFFFFF, syncBase := 16384, syncCount := 16384, recMax := 262144
    iwin := [(0, 0xE0000FFF)], iwinAct := [(0, 0xE0000FFF)] }

/-- The module after a completed cold start (R432, R545, Table 19-7): partition 0 owns everything, the fresh keys of every stack
are in force, no link is up, and every register holds its reset value. DESIGN CHOICE, unsafe: assumptions 12 and 13. -/
def State.reset : State :=
  { pending := [], steppingB0 := false, time := 0, beatsW := 0, beatsE := 0, tiles := [], objs := [], incs := [], msgs := [], xlate := []
    runs := [], live := [], parts := [(0, Part.first)]
    hbm := (List.range 12).map (fun k => (k, { owner := some 0, keyValid := true }))
    arms := [], undef := 0, events := [], integ := {}, cxlEvts := [], bisnp := [], biFull := 0, reds := []
    ports := (List.range 8).map (fun p => (p, { owner := some 0 }))
    wins := [], winUnits := [], winPortId := [], winPortBase := [], frPf := {}, frVf := [], el := [], elSeq := 0, elRd := 0
    elLost := 0, elWait := [], sels := [], los := [], badAccess := [], flags := [], graphs := [], graphNum := 0, serial := 0, rebind := {}
    start := {}, dim := {}, pins := {}, lmc := {}, cxl := {}, hostOut := [], msix := [], platform := [], reply := [] }


end Sys2Proof.Machine
end

