-- ==== Sys2Proof/Machine/Ops.lean ====
section
/-!
DEFINITION. The named operations over the state: registers, shelves with their ECC marks, the module's maps, saturating
counters, CRC-32C, the address map of HBM, sync objects and the raising of a tile fault.
-/
namespace Sys2Proof.Machine

/-! ### Counters -/

/-- A SAT counter counts one (R11). -/
def satInc (c : BitVec 32) : BitVec 32 := if c = 0xFFFFFFFF then c else c + 1

/-- A SAT counter counts `n` (R11). -/
def satAdd (c : BitVec 32) (n : Nat) : BitVec 32 := BitVec.ofNat 32 (min (c.toNat + n) 0xFFFFFFFF)

/-! ### Bytes and rows -/

/-- A 64-byte flit payload as bytes. -/
def flitBytes (d : BitVec 512) : List Byte := leBytes 64 d.toNat

/-- 64 bytes as a flit payload. -/
def bytesFlit (l : List Byte) : BitVec 512 := BitVec.ofNat 512 (leNat l)

/-- One bit of the reflected Castagnoli CRC, `n` times (R507). -/
def crcBits : Nat → BitVec 32 → BitVec 32
  | 0, c => c
  | n + 1, c => crcBits n (if c.getLsbD 0 then (c >>> 1) ^^^ 0x82F63B78 else c >>> 1)

/-- A running CRC-32C over bytes; the start value is 0xFFFF_FFFF (R507). -/
def crcStep (c : BitVec 32) : List Byte → BitVec 32
  | [] => c
  | b :: r => crcStep (crcBits 8 (c ^^^ b.zeroExtend 32)) r

/-- The final XOR of R507. -/
def crcEnd (c : BitVec 32) : BitVec 32 := c ^^^ 0xFFFFFFFF

/-- CRC-32C of a byte string (R507). -/
def crc32c (l : List Byte) : BitVec 32 := crcEnd (crcStep 0xFFFFFFFF l)

/-! ### Tile registers -/

/-- A general register; g0 reads as zero (R43). -/
def Tile.g (t : Tile) (r : BitVec 5) : Word := if r = 0 then 0 else sget 0 r.toNat t.gs

/-- Write a general register; writes to g0 are discarded (R43). -/
def Tile.setG (t : Tile) (r : BitVec 5) (v : Word) : Tile :=
  if r = 0 then t else { t with gs := sput 0 r.toNat v t.gs }

/-- A predicate; p0 reads as true (R43). -/
def Tile.p (t : Tile) (n : BitVec 3) : Bool := n = 0 || t.ps.getLsbD n.toNat

/-- Write a predicate; writes to p0 are discarded (R43). -/
def Tile.setP (t : Tile) (n : BitVec 3) (b : Bool) : Tile :=
  if n = 0 then t
  else { t with ps := (t.ps &&& ~~~(1#8 <<< n.toNat)) ||| (if b then 1#8 <<< n.toNat else 0) }

/-- A vector register. -/
def Tile.v (t : Tile) (r : BitVec 5) : Row := sget 0 r.toNat t.vs

/-- Write a vector register. -/
def Tile.setV (t : Tile) (r : BitVec 5) (x : Row) : Tile := { t with vs := sput 0 r.toNat x t.vs }

/-- An accumulator. -/
def Tile.acc (t : Tile) (a : BitVec 3) : Acc := sget {} a.toNat t.accs

def Tile.setAcc (t : Tile) (a : BitVec 3) (x : Acc) : Tile := { t with accs := sput {} a.toNat x t.accs }

def Tile.ring (t : Tile) (n : Nat) : Ring := sget {} n t.rings

def Tile.setRing (t : Tile) (n : Nat) (r : Ring) : Tile := { t with rings := sput {} n r t.rings }

/-- A row of an accumulator half. -/
def Acc.row (a : Acc) (err : Bool) (r : Nat) : Row := sget 0 r (if err then a.err else a.val)

def Acc.setRow (a : Acc) (err : Bool) (r : Nat) (x : Row) : Acc :=
  if err then { a with err := sput 0 r x a.err } else { a with val := sput 0 r x a.val }

/-! ### Shelves (Chapter 7) -/

/-- The first byte address beyond the shelves. -/
def shelfEnd : Nat := 0x400000

/-- Word indices of the 64-bit words that hold bytes of `[a, a + n)`. -/
def wordsOf (a n : Nat) : List Nat :=
  if n = 0 then [] else (List.range ((a + n - 1) / 8 - a / 8 + 1)).map (· + a / 8)

/-- The mark of a shelf word: 0 sound, 1 correctable, 2 uncorrectable, 3 poisoned (R215, R217). -/
def Tile.mark (t : Tile) (w : Nat) : Nat := sget 0 w t.bad

/-- The byte address of the first uncorrectable or poisoned word among the words of a list of ranges; of several, the rule does not
say which `the word` is (R218). DESIGN CHOICE, unsafe: assumption 69. -/
def Tile.firstBad (t : Tile) (rs : List (Nat × Nat)) : Option Nat :=
  ((rs.flatMap (fun r => wordsOf r.1 r.2)).find? (fun w => 2 ≤ t.mark w)).map (8 * ·)

/-- The bank rows that hold the words of a list: a row is 32 bytes of four words (R210). -/
def rowsOfWords (ws : List Nat) : List Nat := (ws.map (· / 4)).dedup

/-- What reading a word does to its mark: a newly uncorrectable word is poisoned, counted in SHELF_UE and named in
SHELF_UE_ADDR (R217); a correctable word is corrected. -/
def Tile.touchWord (t : Tile) (w : Nat) : Tile :=
  if t.mark w = 1 then { t with bad := sput 0 w 0 t.bad }
  else if t.mark w = 2 then
    { t with
      bad := sput 0 w 3 t.bad
      shelfUe := satInc t.shelfUe
      shelfUeAddr := BitVec.ofNat 32 (0x80000000 + 8 * w) }
  else t

/-- Bank rows (32 bytes) of a word list that hold a correctable word: each is written back once and counted (R216). -/
def Tile.correctedRows (t : Tile) (ws : List Nat) : Nat :=
  (rowsOfWords (ws.filter (fun w => t.mark w = 1))).length

/-- The ECC effects of reading words (R216, R217). -/
def Tile.touchWords (t : Tile) (ws : List Nat) : Tile :=
  ws.foldl Tile.touchWord { t with shelfCe := satAdd t.shelfCe (t.correctedRows ws) }

/-- The words of the bank rows that hold the words of a list (R210). -/
def rowMates (ws : List Nat) : List Nat := (rowsOfWords ws).flatMap (fun r => (List.range 4).map (4 * r + ·))

/-- The ECC effects of reading byte ranges: a bank reads whole rows, so every word of a row that is read is corrected or poisoned
(R210, R216, R217). DEDUCED, unsafe: assumption 62. -/
def Tile.touch (t : Tile) (rs : List (Nat × Nat)) : Tile :=
  if t.bad = [] then t else t.touchWords (rowMates (rs.flatMap (fun r => wordsOf r.1 r.2)))

/-- Words that a list of written byte addresses covers in part (R219). -/
def partialWords (as : List Nat) : List Nat :=
  ((as.map (· / 8)).dedup).filter (fun w => !((List.range 8).all (fun i => as.contains (8 * w + i))))

/-- The word that a partial write finds uncorrectable or poisoned (R219). -/
def Tile.badMerge (t : Tile) (as : List Nat) : Option Nat :=
  if t.bad = [] then none else ((partialWords as).find? (fun w => 2 ≤ t.mark w)).map (8 * ·)

/-! ### Banks (R210–R214) -/

/-- The first byte address of Shelf F. -/
def shelfF : Nat := 0x100000

/-- Bits [lo + 3:lo] or [lo + 2:lo] of a row number, as the XOR of R212 and R213 takes them. -/
def rowField (row lo n : Nat) : Nat := row / 2 ^ lo % 2 ^ n

/-- The bank and the row within the bank of a Shelf N address (R212): 16 banks of 2,048 rows. -/
def bankN (a : Nat) : Nat × Nat :=
  let u := a / 32
  let row := a / 512
  let h := rowField row 0 4 ^^^ rowField row 4 4 ^^^ rowField row 8 3
  (u % 16 ^^^ h, row)

/-- The bank and the row within the bank of a Shelf F address (R213): 24 banks of 4,096 rows. -/
def bankF (a : Nat) : Nat × Nat :=
  let u := (a - shelfF) / 32
  let q := u / 8
  let row := q / 3
  let h := rowField row 0 3 ^^^ rowField row 3 3 ^^^ rowField row 6 3 ^^^ rowField row 9 3
  (8 * (q % 3) + (u % 8 ^^^ h), row)

/-- The bank of a shelf address, numbered as BANK_CONFLICT numbers it, and the row within the bank (Table 7-1). -/
def bankOf (a : Nat) : Nat × Nat :=
  if a < shelfF then bankN a else (16 + (bankF a).1, (bankF a).2)

/-- The 32-byte units, each one bank row, that hold bytes of `[a, a + n)` (R211). -/
def bankUnits (a n : Nat) : List Nat :=
  if n = 0 then [] else (List.range ((a + n - 1) / 32 - a / 32 + 1)).map (· + a / 32)

/-- A requester loses a bank beat: the counter of the bank that holds the row counts one (R47, R211, R216). -/
def Tile.loseBeat (t : Tile) (a : Nat) : Tile :=
  { t with conflicts := sput 0 (bankOf a).1 (satInc (sget 0 (bankOf a).1 t.conflicts)) t.conflicts }

/-- Whether ring word `i` lies in the free space of an open ring, from TAIL up to HEAD (R48). -/
def Ring.free (r : Ring) (i : Nat) : Bool :=
  r.isOpen &&
    (if r.tail.toNat < r.head.toNat then r.tail.toNat ≤ i && i < r.head.toNat
     else (r.tail.toNat ≤ i || i < r.head.toNat) && i < 8 * r.size64.toNat)

/-- A ring after a program has read byte ranges: the words that they meet are no longer unread (R293). -/
def Ring.noteRead (r : Ring) (rs : List (Nat × Nat)) : Ring :=
  { r with unread := r.unread.filter (fun i =>
      let a := 64 * r.base64.toNat + 8 * i
      !rs.any (fun c => c.1 < a + 8 && a < c.1 + c.2)) }

/-- A tile after its program has read byte ranges (R293). -/
def Tile.noteReads (t : Tile) (rs : List (Nat × Nat)) : Tile :=
  if rs = [] || t.rings = [] then t else { t with rings := smap {} (Ring.noteRead · rs) t.rings }

/-- Whether a shelf word lies in the free space of an open ring of the tile. -/
def Tile.inRingFree (t : Tile) (w : Nat) : Bool :=
  t.rings.any (fun c => 8 * c.2.base64.toNat ≤ w && w < 8 * c.2.base64.toNat + 8 * c.2.size64.toNat
    && c.2.free (w - 8 * c.2.base64.toNat))

/-- Write bytes to the shelves and clear the marks of the words written (R217, R219). -/
def Tile.put (t : Tile) (l : List (Nat × Byte)) : Tile :=
  { t with
    shelf := l.foldl (fun m c => writeByte m c.1 c.2) t.shelf
    bad := ((l.map (·.1 / 8)).dedup).foldl (fun b w => sput 0 w 0 b) t.bad }

/-- Pair bytes with the addresses from `a` on. -/
def at' (a : Nat) (l : List Byte) : List (Nat × Byte) := l.zipIdx.map (fun c => (a + c.2, c.1))

/-- Words of an open ring's free space hold no defined result after a program stores into them (R48): every byte of
them becomes undefined. -/
def Tile.scramble (t : Tile) (tid : TileId) (nonce : Nat) (ws : List Nat) : Tile :=
  t.put (ws.flatMap (fun w => (List.range 8).map (fun i => (8 * w + i, Config.undefinedByte tid nonce (8 * w + i)))))

/-! ### The module's maps -/

def State.tile (s : State) (t : TileId) : Tile := sget {} t.toNat s.tiles
def State.setTile (s : State) (t : TileId) (x : Tile) : State := { s with tiles := sput {} t.toNat x s.tiles }
def State.modTile (s : State) (t : TileId) (f : Tile → Tile) : State := s.setTile t (f (s.tile t))
def State.stack (s : State) (k : Nat) : Stack := sget {} k s.hbm
def State.setStack (s : State) (k : Nat) (x : Stack) : State := { s with hbm := sput {} k x s.hbm }
def State.modStack (s : State) (k : Nat) (f : Stack → Stack) : State := s.setStack k (f (s.stack k))
def State.part (s : State) (p : Nat) : Part := sget {} p s.parts
def State.setPart (s : State) (p : Nat) (x : Part) : State := { s with parts := sput {} p x s.parts }
def State.modPart (s : State) (p : Nat) (f : Part → Part) : State := s.setPart p (f (s.part p))
def State.obj (s : State) (o : Nat) : SyncObj := sget {} o s.objs
def State.setObj (s : State) (o : Nat) (x : SyncObj) : State := { s with objs := sput {} o x s.objs }
def State.run (s : State) (k : Nat) : Run := sget {} k s.runs
def State.modRun (s : State) (k : Nat) (f : Run → Run) : State := { s with runs := sput {} k (f (s.run k)) s.runs }

/-- KV_BEAT_TABLE_ID of the module's stepping (R3, R298). -/
def State.beatTable (s : State) : Nat := if s.steppingB0 then 0x42 else 0x41

/-! ### Geometry (R5, R54–R56) -/

def tileX (t : TileId) : Nat := t.toNat / 32
def tileY (t : TileId) : Nat := t.toNat % 32
def tileOf (x y : Nat) : TileId := BitVec.ofNat 11 (32 * x + y)
/-- The block number of a tile (R54). -/
def blockOf (t : TileId) : Nat := 4 * (tileX t / 8) + tileY t / 8
/-- Whether a tile lies on Die E (R54). -/
def onDieE (t : TileId) : Bool := 1024 ≤ t.toNat

/-- The number of tiles of a footprint (R20). -/
def Run.size (r : Run) : Nat := 64 * r.w * r.h

/-- The tile with a relative ID in a footprint (R55). -/
def Run.tileAt (r : Run) (rel : Nat) : TileId :=
  tileOf (8 * r.bx0 + rel / (8 * r.h)) (8 * r.by0 + rel % (8 * r.h))

/-- The relative ID of a tile in a footprint (R55). -/
def Run.relOf (r : Run) (t : TileId) : Nat := 8 * r.h * (tileX t - 8 * r.bx0) + (tileY t - 8 * r.by0)

/-- Whether a tile lies in a footprint. -/
def Run.has (r : Run) (t : TileId) : Bool :=
  8 * r.bx0 ≤ tileX t && tileX t < 8 * (r.bx0 + r.w) && 8 * r.by0 ≤ tileY t && tileY t < 8 * (r.by0 + r.h)

/-- The tiles of a footprint, by relative ID. -/
def Run.tiles (r : Run) : List TileId := (List.range r.size).map r.tileAt

/-- The partition that owns a block (R432). -/
def State.blockPart (s : State) (b : Nat) : Option Nat := (List.range 32).find? (fun p => (s.part p).blocks.getLsbD b)

/-- The MODE setting in force in a tile: the one that its task's boundary has not yet replaced, else its owner's (R225, R493). -/
def State.tileMode (s : State) (t : TileId) : BitVec 32 :=
  (s.tile t).modeHeld.getD (match s.blockPart (blockOf t) with | some p => (s.part p).mode | none => 0)

/-- Whether a tile scrubs in Continuous mode (R222, R225). -/
def State.scrubs (s : State) (t : TileId) : Bool := (s.tileMode t).getLsbD 26

/-- The task that holds a tile. -/
def State.runOf (s : State) (t : TileId) : Run := s.run (s.tile t).task

/-- Whether a tile holds a task: every state of Table 2-5 but UNASSIGNED and PILOT. -/
def Tile.assigned (t : Tile) : Bool := t.st ≠ 0 && t.st ≠ 8

/-- Whether a tile's units run: it holds a task and has not stopped. -/
def Tile.working (x : Tile) : Bool := x.assigned && x.st ≠ 7

/-- The beats a tile's pipeline has completed: its die's beats less those spent in PILOT. -/
def State.beats (s : State) (t : TileId) : Nat :=
  let die := if onDieE t then s.beatsE else s.beatsW
  let x := s.tile t
  (match x.pilotAt with
   | some b => b
   | none => die) - x.lost

/-! ### Fault records (R519) -/

/-- An event of Table 18-4 occurs: it joins the event of the same SOURCE, UNIT and CODE that began within the last
1 ms, or waits for a record of its own (R519). -/
def State.report (s : State) (source code unit part serial sstep addr aux : Nat) : State :=
  let same (e : FaultEvt) : Bool :=
    e.source = source && e.unit = unit && e.code = code && s.time.toNat ≤ e.tstamp + 1000000
  if s.events.any same then
    { s with events := s.events.map (fun e => if same e then { e with count := e.count + 1 } else e) }
  else
    { s with events := s.events ++ [⟨source, code, unit, part, s.time.toNat, serial, sstep, addr, aux, 1⟩] }

/-- Whether the CXL.io traffic of a function is discarded, since the selective stream that carries it is insecure (R483). -/
def State.ioLost (s : State) (fn : Nat) : Bool :=
  s.cxl.ioFailed ≠ 0 && (Config.ioStream fn).any (fun n => s.cxl.ioFailed.getLsbD n.toNat)

/-- Whether CXL.io carries the traffic of a function: the link is up, and its stream is not insecure. -/
def State.ioUp (s : State) (fn : Nat) : Bool := s.cxl.rate ≠ 0 && !s.ioLost fn

/-- Whether the registers of BAR0 outside GLOBAL, RESET/START and the LMC MAILBOX respond: not in recovery (R549), and not while the
module has no power (R541, R568). -/
def State.responds (s : State) : Bool := !s.start.recovery && s.pins.power && !s.pins.snuffed

/-- What a write of such a register does; nothing where it does not respond. -/
def State.whenUp (s : State) (f : State → State) : State := if s.responds then f s else s

/-- Raise an MSI-X vector of a function (Table 16-3). -/
def State.msi (s : State) (fn vec : Nat) : State := { s with msix := s.msix ++ [(fn, vec)] }

/-- Hardware sets a FLAG_EVENT bit of a partition (Table 17-5). -/
def State.setFlag (s : State) (p b : Nat) : State :=
  { s with flags := sput 0 (32 * p) (sget 0 (32 * p) s.flags ||| BitVec.ofNat 32 (2 ^ b)) s.flags }

/-! ### The event log (R522, Table 18-6) -/

/-- The four words of an entry. -/
def logWords (w0 w1 w2 w3 : Nat) : BitVec 256 :=
  BitVec.ofNat 256 (w0 % 2 ^ 64 + 2 ^ 64 * (w1 % 2 ^ 64) + 2 ^ 128 * (w2 % 2 ^ 64) + 2 ^ 192 * (w3 % 2 ^ 64))

/-- An entry is added; when 4,096 entries are unread it overwrites the oldest unread entry. -/
def State.logEntry (s : State) (e : BitVec 256) : State :=
  let n := s.elSeq.toNat
  let full := (s.elSeq - s.elRd).toNat = 4096
  { s with
    el := sput 0 (n % 4096) e s.el
    elSeq := s.elSeq + 1
    elRd := if full then s.elRd + 1 else s.elRd
    elLost := if full then satInc s.elLost else s.elLost }

/-- An entry of another kind than a fault record: time stamp, KIND, PART and SEQ; the fields whose content the kinds do not
state are free values. DESIGN CHOICE, safe: assumption 23. -/
def State.writeEvent (s : State) (kind part time : Nat) : State :=
  let n := s.elSeq.toNat
  let free (i : Nat) : Nat := (Config.logFill n i).toNat
  s.logEntry (logWords time
    (kind % 256 * 2 ^ 56 + free 0 % 256 * 2 ^ 48 + part % 256 * 2 ^ 40 + free 1 % 2 ^ 40) (free 2)
    (n % 2 ^ 32 * 2 ^ 32 + free 3 % 2 ^ 32))

/-- An event is logged; one that arises while the Lamplighter restarts waits (R551). DEDUCED, safe: assumption 50. -/
def State.logEvent (s : State) (kind part : Nat) : State :=
  if s.start.lmcWait then { s with elWait := s.elWait ++ [(kind, part, s.time.toNat)] } else s.writeEvent kind part s.time.toNat

/-- The entries that waited are written (R551). -/
def State.serveLog (s : State) : State :=
  s.elWait.foldl (fun s' e => s'.writeEvent e.1 e.2.1 e.2.2) { s with elWait := [] }

/-! ### Raising a tile fault (R26, R66, R67) -/

/-- Record a fault in a tile and stop it: the first fault of the task is kept (R66). -/
def Tile.stop (x : Tile) (code : Nat) (multi : Bool) (pc addr : Nat) : Tile :=
  if x.fTaken then { x with st := 7, hold := none }
  else
    { x with
      st := 7
      fTaken := true
      fValid := true
      fMulti := multi
      fCode := BitVec.ofNat 8 code
      fPc := BitVec.ofNat 32 pc
      fAddr := BitVec.ofNat 32 addr
      hold := none }

/-- The working tiles of a task stop with PEER_STOP (R26, Table 2-7). -/
def stopPeers (task : Nat) (l : List TileId) (s : State) : State :=
  l.foldl (fun s' u =>
    if (s'.tile u).task ≠ task ∨ !(s'.tile u).assigned ∨ (s'.tile u).st = 7 then s'
    else s'.modTile u (fun y => y.stop 0x0F false 0 0)) s

/-- A further fault of a tile in the beat in which it stopped: CODE takes the lowest code, PC and ADDR are those of the fault
recorded, and MULTI is set (R66, R67). -/
def Tile.stopAgain (x : Tile) (code pc addr : Nat) : Tile :=
  if code < x.fCode.toNat then
    { x with fMulti := true, fCode := BitVec.ofNat 8 code, fPc := BitVec.ofNat 32 pc, fAddr := BitVec.ofNat 32 addr }
  else { x with fMulti := true }

/-- Whether a tile stopped in the beat in progress: its task has a fault for which it has not been stopped yet (R26), and the fault
has not been read away (R66). -/
def State.stopsNow (s : State) (t : TileId) : Bool :=
  let x := s.tile t
  x.st = 7 && x.fValid && (s.runOf t).fault.isSome && !(s.runOf t).halted

/-- The fault that a task names follows the CODE of its tile in the beat in which it arose (R66, R447). -/
def Run.lowerFault (r : Run) (rel : BitVec 11) (code : Nat) : Run :=
  { r with fault := r.fault.map (fun f => if f.2 = rel && code < f.1.toNat then (BitVec.ofNat 8 code, rel) else f) }

/-- Whether a fault of the tile with relative ID `rel` is the one its task names: the first, and of several in one beat that of
the lowest relative ID (R447). -/
def State.namesFault (s : State) (r : Run) (rel : BitVec 11) : Bool :=
  match r.fault with
  | none => true
  | some f => !r.halted && r.faultAt = s.time && rel.toNat < f.2.toNat

/-- A working tile of a task raises a fault and stops; the task keeps the code and the relative ID of the fault that its
completion record names (R26, R66, R447). The other tiles of the footprint stop at their next handshake, which is the end of the
beat. A tile that no task holds, or that stopped in an earlier beat, raises nothing; one that stopped in this beat takes the lowest
code. DESIGN CHOICE, safe: assumption 52. -/
def State.raise (s : State) (t : TileId) (code : Nat) (multi : Bool) (pc addr : Nat) : State :=
  let x := s.tile t
  if s.stopsNow t then
    (s.setTile t (x.stopAgain code pc addr)).modRun x.task (fun r => r.lowerFault x.rel code)
  else if !x.assigned || x.st = 7 then s
  else
    let s1 := s.setTile t (x.stop code multi pc addr)
    if s.namesFault (s.runOf t) x.rel then
      s1.modRun x.task (fun r => { r with fault := some (BitVec.ofNat 8 code, x.rel), faultAt := s.time })
    else s1

/-- Whether a tile's matrix words are done: the command queue, the drain FIFO and the output stage are empty (R177). -/
def Tile.drained (x : Tile) : Bool := x.queue = [] && x.fifo = []

/-- A bundle raises a fault once the older words of the command queue have completed (R94). DEDUCED, safe: assumption 15. -/
def State.raiseOlder (s : State) (t : TileId) (code : Nat) (multi : Bool) (pc addr : Nat) : State :=
  if (s.tile t).drained then s.raise t code multi pc addr else s

/-- A task that a fault has ended stops on every tile of its footprint (R26), and the fault that it names causes a fault record
(Table 18-4, Table 18-5). -/
def State.haltRun (s : State) (k : Nat) (r : Run) : State :=
  match r.fault with
  | none => s
  | some f =>
    if r.halted || !sget false k s.live then s
    else
      let t := r.tileAt f.2.toNat
      let x := s.tile t
      let s1 := stopPeers k r.tiles (s.modRun k (fun q => { q with halted := true }))
      s1.report 1 f.1.toNat t.toNat r.part k x.sstep.toNat x.fAddr.toNat (if f.1 = 0x0B then x.fAddr.toNat else 0)

/-- The beat ends: every task that a fault has ended stops (R26). -/
def State.haltRuns (s : State) : State := s.runs.foldl (fun s' c => s'.haltRun c.1 c.2) s

/-! ### Virtual sync IDs (R285) -/

/-- The translation entry of a virtual ID of a partition. -/
def State.xlateEntry (s : State) (part vid : Nat) : BitVec 32 := sget 0 (4096 * part + vid) s.xlate

/-- The object a virtual ID maps to, or none where VALID is 0 (R285). -/
def State.translate (s : State) (part vid : Nat) : Option Nat :=
  let e := s.xlateEntry part vid
  if e.getLsbD 31 then some (e.toNat % 2 ^ 15) else none


/-- An increment sets out for its object. DESIGN CHOICE, safe: assumption 32. -/
def State.sendInc (s : State) (o amt : Nat) (unit : IncUnit := .sideboard) : State :=
  { s with incs := s.incs ++ [{ obj := o, amt := BitVec.ofNat 32 amt, unit := unit }] }

/-- Whether VALUE is at or past a target (R269). -/
def atOrPast (value target : BitVec 32) : Bool := (value - target).toNat < 2 ^ 31

/-- A new VALUE of an object; the WAITs that hold at it are evaluated, and one that has been met stays met (R269). -/
def SyncObj.setValue (x : SyncObj) (v : BitVec 32) : SyncObj :=
  { x with
    value := v
    waits := x.waits.map (fun w => { w with met := w.met || atOrPast v w.target }) }

/-- A tile's place among the inputs of the sync nodes above it (R275): at each level from the root down, Die W before Die E and
child 2·dx + dy. -/
def nodePlace (t : TileId) : Nat :=
  (List.range 6).foldl (fun acc i => acc + (tileX t / 2 ^ i % 2) * 2 ^ (2 * i + (if i = 5 then 0 else 1))
    + (if i = 5 then 0 else (tileY t / 2 ^ i % 2) * 2 ^ (2 * i))) 0

/-- An increment is added to its object modulo 2^32 (R268); ARRIVED and CNT do not change (R278). At an object that a
sync collective binds it is collected for the next SYNC frame (R413). -/
def State.incObj (s : State) (o amt : Nat) : State :=
  let x := s.obj o
  if x.bound then s.setObj o { x with dInc := x.dInc + BitVec.ofNat 32 amt }
  else s.setObj o (x.setValue (x.value + BitVec.ofNat 32 amt))

/-- One arrival in the epoch in progress, or the first of a new epoch with count `c` (R274): the object after it, and
the tiles that it releases. A remote arrival has no tile here. -/
def SyncObj.arrive (x : SyncObj) (c : BitVec 16) (t : Option TileId) : SyncObj × List TileId :=
  let cnt := if x.arrived = 0 then c else x.cnt
  let bars := x.bars ++ t.toList
  if x.arrived + 1 = cnt then
    ({ x.setValue (x.value + 1) with cnt := 0, arrived := 0, bars := [] }, bars)
  else ({ x with cnt := cnt, arrived := x.arrived + 1, bars := bars }, [])

/-- The node that holds an object, numbered over all levels: blocks 0–31, level 4 from 32, the dies from 40, the root 42
(Table 9-2). -/
def nodeOf (k : Nat) : Nat :=
  if k < 16384 then k / 512
  else if k < 24576 then 32 + (k - 16384) / 1024
  else if k < 28672 then 40 + (k - 24576) / 2048
  else 42

/-- The tiles below a node, as the power of two of their number: 64 of a block, 256 of a level-4 node, 1,024 of a die (Table
9-2). -/
def nodeBits (n : Nat) : Nat := if n < 32 then 6 else if n < 40 then 8 else if n < 42 then 10 else 11

/-- Whether a tile lies below a node (Table 9-2, R282): level-4 node k covers block-columns 2⌊k/2⌋ and the next, and block-rows
2(k mod 2) and the next. -/
def nodeCovers (n : Nat) (t : TileId) : Bool :=
  if n < 32 then blockOf t = n
  else if n < 40 then 2 * (tileX t / 16) + tileY t / 16 = n - 32
  else if n < 42 then (if onDieE t then 1 else 0) = n - 40
  else true

/-- Where an arrival stands among the inputs of the node that holds object `k`: its children first, each by the inputs below it, and
behind them what comes from above (R275). -/
def inputPlace (k : Nat) (t : TileId) : Nat :=
  if nodeCovers (nodeOf k) t then nodePlace t % 2 ^ nodeBits (nodeOf k) else 2 ^ 11 + nodePlace t

/-- Whether increments of the unit that sent `i` to the node of its object are among those on their way (R32). DEDUCED, unsafe:
assumption 66. -/
def unitAhead (l : List SyncInc) (i : SyncInc) : Bool :=
  l.any (fun j => j.src.isNone && j.unit = i.unit && nodeOf j.obj = nodeOf i.obj)

/-- Whether increments of a tile to the node of object `k` are among those on their way: what the tile sends there later stays
behind them (R32). DEDUCED, unsafe: assumption 66. -/
def incAhead (l : List SyncInc) (t : TileId) (k : Nat) : Bool :=
  l.any (fun i => i.src.any (fun q => q.tile = t) && nodeOf i.obj = nodeOf k)

/-- Release tiles that hold in BAR on an object. -/
def releaseBars (o : Nat) (l : List TileId) (s : State) : State :=
  l.foldl (fun s' u => s'.modTile u (fun y =>
    { y with hold := y.hold.map (fun h => if h.obj = o && !h.isWait then { h with released := true } else h) })) s

/-! ### Partition addresses (R323) -/

/-- The index of the n-th set bit of a mask, counting from bit 0. -/
def nthSetBit (mask n : Nat) : Nat :=
  (((List.range 12).filter (fun i => mask.testBit i)).drop n).headD 0

def popcount12 (mask : Nat) : Nat := ((List.range 12).filter (fun i => mask.testBit i)).length

/-- Walk the interleave windows (R323): windows still to visit, the base so far and the GiB each stack has given. -/
def windowWalk (a : Nat) : List (BitVec 32) → Nat → (Nat → Nat) → Option (Nat × Nat)
  | [], _, _ => none
  | w :: r, base, lb =>
    if !w.getLsbD 31 then none
    else
      let mask := w.toNat % 4096
      let gib := bits w.toNat 30 24
      let m := popcount12 mask
      let size := gib * m * 2 ^ 30
      if a < base + size then
        let off := a - base
        let g := if w.getLsbD 23 then 65536 else 4096
        let u := off / g
        let k := nthSetBit mask (u % m)
        some (k, lb k * 2 ^ 30 + (u / m) * g + off % g)
      else windowWalk a r (base + size) (fun k => if mask.testBit k then lb k + gib else lb k)

/-- The committed windows of a partition. -/
def Part.windows (p : Part) : List (BitVec 32) := (List.range 8).map (fun i => sget 0 i p.iwinAct)

/-- The stack and stack-local address of a partition address (R323); none outside the partition. -/
def State.hbmMap (s : State) (part a : Nat) : Option (Nat × Nat) := windowWalk a (s.part part).windows 0 (fun _ => 0)

/-- The bytes of HBM under the committed windows. -/
def partBytes : List (BitVec 32) → Nat
  | [] => 0
  | w :: r => if w.getLsbD 31 then bits w.toNat 30 24 * popcount12 (w.toNat % 4096) * 2 ^ 30 + partBytes r else 0

def State.psize (s : State) (part : Nat) : Nat := partBytes (s.part part).windows

/-- Whether a byte range lies wholly inside a partition. -/
def State.inPart (s : State) (part a n : Nat) : Bool := a + n ≤ s.psize part

/-! ### Bytes of a stack -/

/-- One byte of a stack: a byte not written since the last re-key is unpredictable (R352). -/
def Stack.byte (k : Nat) (x : Stack) (a : Nat) : Byte := sget (Config.unwritten k x.rekeys a) a x.cells

/-- Write one byte of a stack; it is listed whatever its value. -/
def Stack.setByte (x : Stack) (a : Nat) (b : Byte) : Stack := { x with cells := sins a b x.cells }

def Stack.bytes (k : Nat) (x : Stack) (a n : Nat) : List Byte := (List.range n).map (fun i => x.byte k (a + i))

/-- Whether a byte at a local address belongs to the sealed unit of an entry (R507, R509). -/
def SealEntry.holds (e : SealEntry) (n a : Nat) : Bool :=
  4096 * n + e.start ≤ a && a < 4096 * n + e.start + (if e.g then 4160 else 4096)

/-- Write bytes to a stack at local addresses. Every sealed unit touched loses its seal, but for a write that brings the
seal of a whole unit with it (R510). -/
def Stack.putBytes (x : Stack) (l : List (Nat × Byte)) (withSeal : Bool := false) : Stack :=
  { x with
    cells := l.foldl (fun m c => sins c.1 c.2 m) x.cells
    seals := if withSeal then x.seals else x.seals.filter (fun e => !l.any (fun c => e.2.holds e.1 c.1)) }

end Sys2Proof.Machine
end

