-- ==== Sys2Proof/Machine/G16.lean ====
section
/-!
DEFINITION. The G16 block format and its arithmetic (R354–R357, R199): 64 int16 elements, an exponent and flags.
-/
namespace Sys2Proof.Machine

/-- A G16 block: 64 signed elements, exponent E (−128 marks a zero block), FLAGS (bit 0 HOLE, 1 LATE, 2 SAT). -/
structure G16 where
  els : List Int
  e : Int
  flags : Nat
  deriving DecidableEq, Repr

/-- A zero block (R355). -/
def G16.zero (flags : Nat) : G16 := ⟨List.replicate 64 0, -128, flags⟩

/-- The 2-byte header: E in bits [7:0], FLAGS in [15:8]; reserved flags are written as zero (R354, Table 12-1). -/
def G16.header (b : G16) : Nat := ofSigned 8 b.e + 256 * (b.flags % 8)

/-- The block of 128 element bytes and a header. -/
def g16Of (els : List Byte) (header : Nat) : G16 :=
  ⟨(List.range 64).map (fun i => toSigned 16 (leNat ((els.drop (2 * i)).take 2))), toSigned 8 header,
   bits header 15 8 % 8⟩

/-- The 128 element bytes. -/
def G16.bytes (b : G16) : List Byte := b.els.flatMap (fun v => leBytes 2 (ofSigned 16 v))

/-- The 130-byte layout of R354. -/
def G16.bytes130 (b : G16) : List Byte := b.bytes ++ leBytes 2 b.header

/-- A block from its 130-byte layout. -/
def g16From (l : List Byte) : G16 := g16Of (l.take 128) (leNat (l.drop 128))

/-- An integer multiple of 2^(−d), rounded half-even to an integer. -/
def halfEven (v : Int) (d : Nat) : Int :=
  let r : Int := roundShift .rne v.natAbs d
  if v < 0 then -r else r

/-- Whether every integer lies within ±32,767. -/
def in16 (l : List Int) : Bool := l.all (fun v => v.natAbs ≤ 32767)

/-- Saturate to ±32,767. -/
def sat16 (v : Int) : Int := if v > 32767 then 32767 else if v < -32767 then -32767 else v

/-- Whether the block is a zero block by its exponent. -/
def G16.isZero (b : G16) : Bool := b.e = -128

/-- Steps 3 to 6 of R356 on exact elements v × 2^(−d) relative to exponent `em`, with flags to carry. -/
def g16Norm (vs : List Int) (d : Nat) (em : Int) (flags : Nat) : G16 :=
  let r0 := vs.map (fun v => halfEven v d)
  let fin (l : List Int) (e : Int) (f : Nat) : G16 := if l.all (· = 0) then .zero f else ⟨l, e, f⟩
  if in16 r0 then fin r0 em flags
  else if em + 1 > 127 then fin (r0.map sat16) 127 (flags ||| 4)
  else
    let r1 := vs.map (fun v => halfEven v (d + 1))
    if in16 r1 then fin r1 (em + 1) flags else fin (r1.map sat16) (em + 1) (flags ||| 4)

/-- A block passed through by step 2 of R356: an element of 0x8000 becomes −32,767 and sets SAT. -/
def g16Pass (b : G16) (flags : Nat) : G16 :=
  let l := b.els.map sat16
  let f := if l = b.els then flags else flags ||| 4
  if l.all (· = 0) then .zero f else ⟨l, b.e, f⟩

/-- G16 addition (R356). -/
def G16.add (a b : G16) : G16 :=
  let flags := a.flags ||| b.flags
  if a.isZero && b.isZero then .zero flags
  else if a.isZero then g16Pass b flags
  else if b.isZero then g16Pass a flags
  else
    let em := max a.e b.e
    let lo := min a.e b.e
    let d := (em - lo).toNat
    -- exact sums as multiples of 2^(−d)
    let xs := (a.els.zip b.els).map (fun c =>
      c.1 * 2 ^ (a.e - lo).toNat + c.2 * 2 ^ (b.e - lo).toNat)
    g16Norm xs d em flags

/-- Rescale a block by n / k after a Drop (R367): each exact element times n / k is rounded half-even and the block
renormalised by steps 3 to 6 of R356; HOLE stays set. Step 4 is taken once, and an element still beyond ±32,767 saturates. DESIGN
CHOICE, unsafe: assumption 75. -/
def G16.rescale (b : G16) (n k : Nat) : G16 :=
  if k = 0 then .zero (b.flags ||| 1)
  else if b.isZero then .zero (b.flags ||| 1)
  else
    let q (v : Int) (den : Nat) : Int :=
      let num := v.natAbs * n
      let f := num / den
      let rem := num % den
      let r : Int := (if 2 * rem > den || (2 * rem = den && f % 2 = 1) then f + 1 else f : Nat)
      if v < 0 then -r else r
    let r0 := b.els.map (fun v => q v k)
    let fl := b.flags ||| 1
    let fin (l : List Int) (e : Int) (f : Nat) : G16 := if l.all (· = 0) then .zero f else ⟨l, e, f⟩
    if in16 r0 then fin r0 b.e fl
    else if b.e + 1 > 127 then fin (r0.map sat16) 127 (fl ||| 4)
    else
      let r1 := b.els.map (fun v => q v (2 * k))
      if in16 r1 then fin r1 (b.e + 1) fl else fin (r1.map sat16) (b.e + 1) (fl ||| 4)

/-- The value of an element (R355). -/
def G16.value (b : G16) (i : Nat) : Fx :=
  if b.isZero then .fin false 0 0
  else
    let v := b.els.getD i 0
    .fin (decide (v < 0)) v.natAbs (b.e - 15)

/-- Elements of a drained block at exponent `e`: x / 2^(e − 15) rounded by RM (R199 step 2); none for NaN and
infinities. -/
def drainEls (xs : List (Fx × Rnd)) (e : Int) : List (Option Int) :=
  xs.map (fun c => (c.1.scale (15 - e)).toIntR c.2)

/-- A drain to G16 (R199): 64 exact values with their roundings. -/
def drainG16 (xs : List (Fx × Rnd)) : G16 :=
  let isFin (x : Fx) : Bool := match x with | .fin _ _ _ => true | _ => false
  let isInf (x : Fx) : Bool := match x with | .inf _ => true | _ => false
  let m := maxMagF (xs.map (·.1))
  let special := xs.any (fun c => !isFin c.1)
  if m.isZero && !xs.any (fun c => isInf c.1) then .zero (if special then 4 else 0)
  else
    let e0 : Int := if m.isZero then 127 else max (-127) (min 127 (m.log2 + 1))
    let tooBig (l : List (Option Int)) : Bool := l.any (fun v => match v with | some i => 32768 ≤ i.natAbs | none => false)
    let e := if tooBig (drainEls xs e0) && e0 < 127 then e0 + 1 else e0
    let l := drainEls xs e
    let els := (l.zip xs).map (fun c => match c.1 with
      | some v => sat16 v
      | none => if c.2.1.isNan then 0 else if c.2.1.isNeg then -32767 else 32767)
    let sat := special || l.any (fun v => match v with | some i => 32767 < i.natAbs | none => false)
    ⟨els, e, if sat then 4 else 0⟩
where
  maxMagF (l : List Fx) : Fx :=
    l.foldl (fun m x => match x with
      | .fin _ _ _ => if m.lt x.abs then x.abs else m
      | _ => m) (.fin false 0 0)

end Sys2Proof.Machine
end

