-- ==== Sys2Proof/Machine/Hbm.lean ====
section
/-!
DEFINITION. Accesses to HBM and to the staging SRAM (Chapter 11): 64-byte access units with their back-invalidation,
ECC, poison, seals and counters, the addresses of a partition, and the memory-side adders.
-/
namespace Sys2Proof.Machine

/-! ### Access units (R321, R333, R347, R475) -/

/-- The 64-byte units of `[a, a + n)`. -/
def unitsOf (a n : Nat) : List Nat :=
  if n = 0 then [] else (List.range ((a + n - 1) / 64 - a / 64 + 1)).map (· + a / 64)

/-- The host's write-back of a whole line: it removes poison and the seals of the line (R474, R510). -/
def Stack.hostLine (x : Stack) (u : Nat) (d : BitVec 512) : Stack :=
  let b := (flitBytes d).zipIdx.map (fun c => (64 * u + c.2, c.1))
  { x.putBytes b with wr := x.wr + 1, poison := sput false u false x.poison, bad := sput 0 u 0 x.bad }

/-- A recorded line is back-invalidated: the host gives up its copy, and one that it holds modified it first writes back (R475,
Table 16-4). DESIGN CHOICE, safe: assumption 22. -/
def State.bisnpLine (s : State) (k : Nat) (e : Nat × Bool) (inv : Bool) : State :=
  let s1 := s.modStack k (fun x => { x with snooped := x.snooped.filter (fun f => f.1 ≠ e.1) })
  let s2 : State := { s1 with bisnp := s1.bisnp ++ [(k, e.1, inv)] }
  if !e.2 then s2
  else
    let s3 : State := { s2 with undef := s2.undef + 1 }
    match Config.writeBack s2.undef with
    | none => s3
    | some d => s3.modStack k (fun x => x.hostLine e.1 d)

/-- A device access to a line that the host may cache (R475): BISnpInv ahead of a write, BISnpData ahead of a read when the host
may hold the line modified. -/
def State.snoop (s : State) (k u : Nat) (write : Bool) : State :=
  match (s.stack k).snooped.find? (fun e => e.1 = u) with
  | none => s
  | some e => if write || e.2 then s.bisnpLine k e write else s

/-- DPA of a stack-local address (R471). -/
def dpaOf (k l : Nat) : Nat := 96 * 2 ^ 30 * k + l

/-- The ECC of a unit that is read or merged into (R347): a corrected unit is written back and counted; an
uncorrectable one is poisoned, counted, recorded and reported, and causes a General Media record (R521) and a DRAM record (R347) of
CXL. -/
def State.eccUnit (s : State) (k u : Nat) : State :=
  let x := s.stack k
  let m := sget 0 u x.bad
  if m = 1 then
    s.setStack k { x with bad := sput 0 u 0 x.bad, ce := satInc x.ce, ceWindow := x.ceWindow + 1 }
  else if m = 2 then
    let s1 := (s.setStack k { x with
        bad := sput 0 u 0 x.bad
        poison := sput false u true x.poison
        found := sput false u true x.found
        ue := satInc x.ue
        ueAddr := BitVec.ofNat 32 (2 ^ 31 + u) }).report 3 1 k (x.owner.getD 0xFF) 0 0 (64 * u) 0
    let evt (dram : Bool) : CxlEvt := ⟨dram, dpaOf k (64 * u), 1, s1.time.toNat⟩
    let s2 : State := { s1 with cxlEvts := s1.cxlEvts ++ [evt false, evt true] }
    s2.msi 0 1
  else s

/-- A read of units: back-invalidation, ECC and HBM_RD. -/
def State.readNow (s : State) (k : Nat) (us : List Nat) : State :=
  let s1 := us.foldl (fun s' u => (s'.snoop k u false).eccUnit k u) s
  s1.modStack k (fun x => { x with rd := x.rd + BitVec.ofNat 64 us.length })

/-- Whether any of some units is poisoned. -/
def Stack.anyPoison (x : Stack) (us : List Nat) : Bool := us.any (fun u => sget false u x.poison)

/-- The distinct units of a list of byte addresses, ascending in order of first appearance. -/
def unitsOfBytes (l : List (Nat × Byte)) : List Nat := ((l.map (·.1 / 64)).dedup)

/-- Whether bytes cover a unit whole. -/
def coversUnit (l : List (Nat × Byte)) (u : Nat) : Bool :=
  (List.range 64).all (fun i => l.any (fun c => c.1 = 64 * u + i))

/-- A write of bytes at local addresses, at once: back-invalidation, the merge read of units written in part, HBM_WR, the seals it clears
(R510: none where the write brings a whole unit's seal with it), and poison: a unit in `pois` becomes poisoned, a unit written
whole loses its poison, and one written in part keeps it. -/
def State.writeNow (s : State) (k : Nat) (l : List (Nat × Byte)) (pois : List Nat) (withSeal : Bool := false) : State :=
  let us := unitsOfBytes l
  let s1 := us.foldl (fun s' u =>
    let s2 := s'.snoop k u true
    if coversUnit l u then s2.modStack k (fun x => { x with bad := sput 0 u 0 x.bad }) else s2.eccUnit k u) s
  s1.modStack k (fun x =>
    { x.putBytes l withSeal with
      wr := x.wr + BitVec.ofNat 64 us.length
      poison := us.foldl (fun p u =>
        if pois.contains u then sput false u true p
        else if coversUnit l u then sput false u false p else p) x.poison })

/-! ### Partition addresses -/

/-- Whether every byte of `[a, a + n)` lies on one stack (R331). -/
def oneStack (s : State) (part a n : Nat) : Bool :=
  match s.hbmMap part a with
  | none => n = 0
  | some (k, _) => (List.range ((n + 4095) / 4096 + 1)).all (fun i =>
      let b := min (a + n - 1) (a / 4096 * 4096 + 4096 * i)
      n = 0 || b < a || (match s.hbmMap part b with | some (k', _) => k' = k | none => false))

/-! ### Staging SRAM (R326, R327) -/

/-- Byte address in the SRAM of staging offset 0. -/
def Stack.stgByte (x : Stack) : Nat := 65536 * x.stgBase.toNat

def Stack.stgRead (x : Stack) (a n : Nat) : List Byte := readBytes x.stg a n

/-- Write staging bytes at SRAM address `a` and set or clear the poison of the words they fill. -/
def Stack.stgWrite (x : Stack) (a : Nat) (l : List Byte) (pois : Bool) : Stack :=
  { x with
    stg := Machine.writeBytes x.stg a l
    stgErr := if x.stgErr = [] then [] else (wordsOf a l.length).foldl (fun p w => sput 0 w 0 p) x.stgErr
    stgPoison := (wordsOf a l.length).foldl (fun p w => sput false w pois p) x.stgPoison }

/-- Whether a staging range holds a poisoned word. -/
def Stack.stgBad (x : Stack) (a n : Nat) : Bool := (wordsOf a n).any (fun w => sget false w x.stgPoison)

/-- What the read of a staging word does (Table 11-1): a correctable word is corrected, a newly uncorrectable one is poisoned as
R217 poisons a shelf word. -/
def Stack.stgTouchWord (x : Stack) (w : Nat) : Stack :=
  let m := sget 0 w x.stgErr
  if m = 0 then x
  else { x with stgErr := sput 0 w 0 x.stgErr, stgPoison := if m = 2 then sput false w true x.stgPoison else x.stgPoison }

/-- The SECDED effects of reading a staging range (Table 11-1). -/
def Stack.stgTouch (x : Stack) (a n : Nat) : Stack := if x.stgErr = [] then x else (wordsOf a n).foldl Stack.stgTouchWord x

/-- The side word of the 64-byte staging unit at SRAM address `a`. -/
def Stack.side (x : Stack) (a : Nat) : BitVec 32 := sget 0 (a / 64) x.stgSide

def Stack.setSide (x : Stack) (a : Nat) (v : BitVec 32) : Stack := { x with stgSide := sput 0 (a / 64) v x.stgSide }

/-- A G16 block in flit form at SRAM address `a`, with its header in the side word of its first unit (R331). -/
def Stack.stgBlock (x : Stack) (a : Nat) : G16 := g16Of (x.stgRead a 128) ((x.side a).toNat % 2 ^ 16)

/-- The 130-byte layout of the block at SRAM address `a`: its bytes and the header in the side word, unchanged (R355). -/
def Stack.stgBlock130 (x : Stack) (a : Nat) : List Byte := x.stgRead a 128 ++ leBytes 2 ((x.side a).toNat % 2 ^ 16)

/-- Put the bytes of a block in flit form, unchanged (R331, R355). -/
def Stack.setStgBlock130 (x : Stack) (a : Nat) (b : List Byte) (pois : Bool) : Stack :=
  ((x.stgWrite a (b.take 128) pois).setSide a (BitVec.ofNat 32 (leNat (b.drop 128) % 2 ^ 16))).setSide (a + 64) 0

/-- Write a G16 block in flit form. -/
def Stack.setStgBlock (x : Stack) (a : Nat) (b : G16) (pois : Bool) : Stack :=
  ((x.stgWrite a b.bytes pois).setSide a (BitVec.ofNat 32 b.header)).setSide (a + 64) 0

/-- The CRC of a 4 KiB staging unit: of its bytes, or of its 32 blocks in the 130-byte layout (R507). -/
def Stack.stgSeal (x : Stack) (a : Nat) (g : Bool) : BitVec 32 :=
  crc32c (if g then (List.range 32).flatMap (fun i => x.stgBlock130 (a + 128 * i)) else x.stgRead a 4096)

/-! ### Memory-side operations (Table 11-5, R338, R343) -/

/-- One lane: add, min or max. -/
def laneOp (fmt aop a b : Nat) : Nat :=
  if fmt = 0xF then
    (if aop = 1 then (a + b) % 2 ^ 64
     else
       let x := toSigned 64 a
       let y := toSigned 64 b
       if aop = 2 then (if y < x then b else a) else (if x < y then b else a))
  else
    let x := elemFx fmt a
    let y := elemFx fmt b
    if aop = 1 then (if fmt = 0 then (a + b) % 2 ^ 32 else toElem fmt .rne (x.add y))
    else toElem fmt .rne (if aop = 2 then x.minNum y else x.maxNum y)

/-- Bits of a lane. -/
def laneBits (fmt : Nat) : Nat := if fmt = 0xF then 64 else fmtBits fmt

/-- An operation on byte strings, lane by lane; a move gives the operand. -/
def lanesOp (fmt aop : Nat) (old new : List Byte) : List Byte :=
  if aop = 0 then new
  else
    let w := laneBits fmt / 8
    (List.range (old.length / w)).flatMap (fun i =>
      leBytes w (laneOp fmt aop (leNat ((old.drop (w * i)).take w)) (leNat ((new.drop (w * i)).take w))))

/-- A G16 contribution into a 32-byte accumulation line (R343); none when it is discarded. -/
def accumLine (ea : Int) (line con : List Byte) : Option (List Byte) :=
  let d := toSigned 8 (con.getD 8 0).toNat - ea
  if 0 ≤ d && d ≤ 47 then
    some ((List.range 4).flatMap (fun i =>
      let v := toSigned 64 (leNat ((line.drop (8 * i)).take 8))
      let c := toSigned 16 (leNat ((con.drop (2 * i)).take 2))
      leBytes 8 (ofSigned 64 (v + c * 2 ^ d.toNat))))
  else none

/-! ### The gather unit (R339–R343, R348) -/

/-- What an element does to the line of its unit: the line after it, the bytes it writes, its reply, whether it was discarded out
of range (R343), and whether it met poison. -/
def NarrowReq.apply (q : NarrowReq) (line : List Byte) (bad : Bool) : List Byte × NarrowReply × Bool :=
  let n := if q.op = 6 && q.fmt = 0xD then 32 else q.es
  let o := q.addr % 64
  let old := (line.drop o).take n
  let put (b : List Byte) : List Byte := line.take o ++ b ++ line.drop (o + n)
  let ack (p : Bool) : NarrowReply := ⟨q.tile, q.num, q.da, [], p⟩
  if q.op = 4 then (line, ⟨q.tile, q.num, q.da, old, bad⟩, false)
  else if q.op = 5 then (put q.opnd, ack false, false)
  else if bad then (line, ack true, false)
  else match (if q.fmt = 0xD then accumLine q.ea old q.opnd else some (lanesOp q.fmt q.aop old q.opnd)) with
    | none => (line, ack false, true)
    | some b => (put b, ack false, false)

/-- The bytes of its unit that an element writes, unless it is discarded out of range (R343). -/
def NarrowReq.writes (q : NarrowReq) (bad : Bool) : List Nat :=
  if q.op = 4 || (q.op = 6 && bad) then []
  else (List.range (if q.op = 6 && q.fmt = 0xD then 32 else q.es)).map (q.addr + ·)

/-- Whether serving an element reads its unit: a GATHER, a memory-side operation, or an 8-byte write, which reads its 16-byte
cipher block (R341). -/
def NarrowReq.reads (q : NarrowReq) : Bool := q.op ≠ 5 || q.es = 8

/-- The waiting elements of one 64-byte unit are served with one access, each applied in the order of its arrival (R340). -/
def State.gatherUnit (s : State) (k u : Nat) : State :=
  let l := (s.stack k).narrowQ.filter (fun q => q.addr / 64 = u)
  if l = [] then s
  else
    let s0 := s.modStack k (fun x => { x with
      narrowQ := x.narrowQ.filter (fun q => q.addr / 64 ≠ u), narrow := x.narrow + BitVec.ofNat 64 l.length })
    let s1 := if l.any NarrowReq.reads then s0.readNow k [u] else s0
    let x := s1.stack k
    let bad := x.anyPoison [u]
    let r := l.foldl (fun (c : List Byte × List NarrowReply × List Nat × Nat) q =>
      let a := q.apply c.1 bad
      (a.1, c.2.1 ++ [a.2.1], c.2.2.1 ++ (if a.2.2 then [] else q.writes bad), c.2.2.2 + b2n a.2.2))
      (x.bytes k (64 * u) 64, [], [], 0)
    let w := r.2.2.1.dedup.map (fun a => (a, r.1.getD (a - 64 * u) 0))
    (if w = [] then s1 else s1.writeNow k w []).modStack k (fun x => { x with
      narrowOut := x.narrowOut ++ r.2.1, g16aRange := satAdd x.g16aRange r.2.2.2 })

/-- The elements that wait for one of some units are served: they arrived before the access that comes (R333). -/
def State.gatherUnits (s : State) (k : Nat) (us : List Nat) : State :=
  if (s.stack k).narrowQ = [] then s else us.foldl (fun s' u => s'.gatherUnit k u) s

/-- Every waiting element of a stack is served, unless a re-key holds its accesses (R351). -/
def State.gatherAll (s : State) (k : Nat) : State :=
  if (s.stack k).rekeying then s
  else ((s.stack k).narrowQ.map (fun q => q.addr / 64)).dedup.foldl (fun s' u => s'.gatherUnit k u) s

/-! ### Accesses in the order of arrival (R333) -/

/-- A read of units, after the elements that arrived for them before. -/
def State.readUnits (s : State) (k : Nat) (us : List Nat) : State := (s.gatherUnits k us).readNow k us

/-- A write of bytes, after the elements that arrived for its units before. -/
def State.writeBytes (s : State) (k : Nat) (l : List (Nat × Byte)) (pois : List Nat) (withSeal : Bool := false) : State :=
  (s.gatherUnits k (unitsOfBytes l)).writeNow k l pois withSeal

/-- The bytes of a partition range, read through the map, each read of a unit with its effects; an address outside the
partition reads as zero. Contiguous runs on one stack are read together. -/
def State.readPart (s : State) (part a n : Nat) : State × List Byte × Bool :=
  let loc := (List.range n).filterMap (fun i => s.hbmMap part (a + i))
  let us := (loc.map (fun c => (c.1, c.2 / 64))).dedup
  let s1 := us.foldl (fun s' c => s'.readUnits c.1 [c.2]) s
  (s1, loc.map (fun c => (s1.stack c.1).byte c.1 c.2), us.any (fun c => (s1.stack c.1).anyPoison [c.2]))

/-- Write bytes to a partition range. -/
def State.writePart (s : State) (part a : Nat) (l : List Byte) (withSeal : Bool := false) : State :=
  let loc := l.zipIdx.filterMap (fun c => (s.hbmMap part (a + c.2)).map (fun m => (m.1, (m.2, c.1))))
  (List.range 12).foldl (fun s' k =>
    let lk := (loc.filter (fun c => c.1 = k)).map (·.2)
    if lk = [] then s' else s'.writeBytes k lk [] withSeal) s

/-! ### Accesses that a re-key holds (R351) -/

/-- Whether a partition range meets a stack that is being re-keyed: an access to it holds (R351). -/
def State.heldRange (s : State) (part a n : Nat) : Bool :=
  (List.range 12).any (fun k => (s.stack k).rekeying) &&
    (List.range n).any (fun i => (s.hbmMap part (a + i)).any (fun c => (s.stack c.1).rekeying))

/-! ### Exact sums of squares (R353, R358) -/

/-- Add a non-negative exact value m·2^e to an accumulator; a sum beyond 640 bits becomes +∞. -/
def XAcc.add (x : XAcc) (m : Nat) (e : Int) : XAcc :=
  let v := x.val + m * 2 ^ (e + 298).toNat
  if x.inf then x else if v < 2 ^ 640 then { x with val := v } else { x with inf := true }

/-- Σ int16² × 2^(2E − 30) of a block; a zero block adds nothing. -/
def XAcc.addBlock (x : XAcc) (b : G16) : XAcc :=
  if b.isZero then x else x.add ((b.els.map (fun v => v.natAbs * v.natAbs)).foldl (· + ·) 0) (2 * b.e - 30)

/-- The value of an accumulator. -/
def XAcc.value (x : XAcc) : Fx := if x.nan then .nan else if x.inf then .inf false else .fin false x.val (-298)

end Sys2Proof.Machine
end

