-- ==== Sys2Proof/Machine/Operands.lean ====
section
/-!
DEFINITION. Operand forms of tile words: immediates (Table 3-5), element addresses (R84), lane masks (R83), the row
addresses of matrix and accumulator words (R153–R155, R196), and the fields of a raw instruction word (Tables 3-1 to
3-9).
-/
namespace Sys2Proof.Machine

/-- The immediate that SH selects (Table 3-5). -/
def immOf (o : OpI) : Word :=
  if o.sh = 0 then o.imm.signExtend 64
  else if o.sh = 1 then (o.imm.zeroExtend 64) <<< 32
  else o.imm.zeroExtend 64

/-- Element size in bytes of a memory word's FMT (R85). -/
def memSize (fmt : BitVec 4) : Nat := fmtBits fmt.toNat / 8

/-- g[RB] + OFF (R84). -/
def memBase (o : OpM) (t : Tile) : Word := t.g o.rb + o.off.signExtend 64

/-- The address of element `j` (R84, Table 3-6); addresses wrap at 2^64 before they are checked. -/
def elemAddr (o : OpM) (t : Tile) (j : Nat) : Nat :=
  let b := memBase o t
  let sz := memSize o.fmt
  if o.mode = 0 then (b + BitVec.ofNat 64 (j * sz)).toNat
  else if o.mode = 1 then (b + BitVec.ofInt 64 (o.stride.toInt * j * sz)).toNat
  else if o.mode = 2 then
    (b + BitVec.ofNat 64 (((t.v (o.stride.truncate 5)).toNat >>> (8 * sz * j)) % 2 ^ (8 * sz))).toNat
  else b.toNat

/-- Whether an element address is misaligned or beyond the shelves (R84). -/
def badElem (sz a : Nat) : Bool := shelfEnd ≤ a || a % sz ≠ 0

/-- Whether element `j` of width `w` is active under lane-mask register VM (R83). -/
def active (t : Tile) (vm : BitVec 5) (w j : Nat) : Bool := vm = 0 || (t.v vm).getLsbD (w * j)

/-- The active elements of a vector word, ascending. -/
def activeList (t : Tile) (vm : BitVec 5) (w : Nat) : List Nat :=
  (List.range (1024 / w)).filter (active t vm w)

/-! ### Rows of matrix and accumulator words -/

/-- Row `i` of a word with a base address and a signed byte stride. -/
def rowAddr (base stride : Word) (i : Nat) : Nat := (base + BitVec.ofNat 64 i * stride).toNat

/-- Bytes of an operand row: 32 elements, or 32 bytes of BIT (R153); the MX scale byte is not counted. -/
def rowBytes (fmt : Nat) : Nat := if fmt = 0xE then 32 else 4 * fmtBits fmt

/-- Bytes of a drained row: a BIT row is 4 bytes (R197) and an MX row carries its scale byte (R198). -/
def drainBytes (fmt : Nat) : Nat := 4 * fmtBits fmt + (if isMx fmt then 1 else 0)

/-- Byte ranges an entry has still to read (R147): the rows of an SLOAD or of an MMUL not yet fetched. -/
def MxaEntry.readsLeft (e : MxaEntry) : List (Nat × Nat) :=
  let f := e.o.fmt.toNat
  match e.op with
  | .sload => (List.range 32).map (fun i => (rowAddr e.base e.stride i, rowBytes f)) ++
      (if isMx f then [(rowAddr e.base e.stride 32, 32)] else [])
  | .mmul => (List.range (e.o.nrow.toNat + 1 - e.fetched)).map
      (fun i => (rowAddr e.base e.stride (e.fetched + i), rowBytes f + (if isMx f then 1 else 0)))
  | _ => []

/-- Byte ranges an ADRAIN has still to write (R46). -/
def MxaEntry.writesLeft (e : MxaEntry) : List (Nat × Nat) :=
  let f := e.o.fmt.toNat
  match e.op with
  | .adrain =>
    if f = 0xD then
      (List.range ((e.o.nrow.toNat + 1) / 2 - e.done / 2)).map
        (fun i => (rowAddr e.base e.stride (e.done / 2 + i), 130))
    else (List.range (e.o.nrow.toNat + 1 - e.done)).map
      (fun i => (rowAddr e.base e.stride (e.done + i), drainBytes f))
  | _ => []

/-- Whether two byte ranges meet. -/
def meets (a b : Nat × Nat) : Bool := a.1 < b.1 + b.2 && b.1 < a.1 + a.2

/-- Whether any range of one list meets any range of the other. -/
def anyMeets (l m : List (Nat × Nat)) : Bool := l.any (fun a => m.any (meets a))

/-- The order of R46 and R147: a load waits for older drain writes to its bytes; a store waits for older matrix reads
and drain writes of its bytes. -/
def queueClash (q : List MxaEntry) (reads writes : List (Nat × Nat)) : Bool :=
  if q = [] then false
  else anyMeets reads (q.flatMap MxaEntry.writesLeft) || anyMeets writes (q.flatMap MxaEntry.writesLeft)
    || anyMeets writes (q.flatMap MxaEntry.readsLeft)

/-! ### Fields of a raw word (Tables 3-1 to 3-9) -/

def wMaj (w : Word) : Nat := bits w.toNat 63 58
def wMin (w : Word) : Nat := bits w.toNat 53 48
def wHdr (w : Word) : Hdr := ⟨w.extractLsb' 55 3, w.getLsbD 54⟩
def wOpR (w : Word) : OpR :=
  ⟨w.extractLsb' 43 5, w.extractLsb' 38 5, w.extractLsb' 33 5, w.extractLsb' 28 5, w.extractLsb' 24 4,
   w.extractLsb' 21 3, w.extractLsb' 16 5, w.extractLsb' 0 16⟩
def wOpI (w : Word) : OpI :=
  ⟨w.extractLsb' 43 5, w.extractLsb' 38 5, w.extractLsb' 36 2, w.extractLsb' 32 4, w.extractLsb' 0 32⟩
def wOpM (w : Word) : OpM :=
  ⟨w.extractLsb' 43 5, w.extractLsb' 38 5, w.extractLsb' 22 16, w.extractLsb' 12 10, w.extractLsb' 8 4,
   w.extractLsb' 3 5, w.extractLsb' 0 3⟩
def wOpX (w : Word) : OpX :=
  ⟨w.extractLsb' 33 15, w.extractLsb' 28 5, w.extractLsb' 16 12, w.extractLsb' 0 16⟩
def wOpS (w : Word) : OpS :=
  ⟨w.extractLsb' 36 12, w.extractLsb' 31 5, w.getLsbD 30, w.extractLsb' 14 16, w.extractLsb' 0 14⟩
def wOpT (w : Word) : OpT :=
  ⟨w.extractLsb' 45 3, w.extractLsb' 40 5, w.extractLsb' 35 5, w.extractLsb' 31 4, w.extractLsb' 28 3,
   w.extractLsb' 25 3, w.extractLsb' 22 3, w.extractLsb' 17 5, w.getLsbD 16, w.extractLsb' 11 5, w.getLsbD 10,
   w.extractLsb' 7 3, w.extractLsb' 0 7⟩

end Sys2Proof.Machine
end

