-- ==== Sys2Proof/Machine/Landing.lean ====
section
/-!
DEFINITION. What the landings of an exchange phase do to those who read the shelves meanwhile (R18, R250): the fields and
shelf addresses of run records, the bytes landed, and the reads that find undefined data.
-/
namespace Sys2Proof.Machine

/-! ### Fields of a run record (Tables 8-6, 8-7) -/

def rCount (w : BitVec 64) : Nat := bits w.toNat 63 48 + 1
def rDest (w : BitVec 64) : Nat := bits w.toNat 47 42
def rSrc (w : BitVec 64) : Nat := bits w.toNat 47 45
def rSrc2 (w : BitVec 64) : Nat := bits w.toNat 44 42
def rOp (w : BitVec 64) : Nat := bits w.toNat 41 40
def rAddr (w : BitVec 64) : Nat := bits w.toNat 39 24
def rStride (w : BitVec 64) : Int := toSigned 16 (bits w.toNat 23 8)
def rSealed (w : BitVec 64) : Bool := w.getLsbD 7
def rG16 (w : BitVec 64) : Bool := w.getLsbD 6

def Exch.inp (e : Exch) (c : Nat) : InPort := sget {} c e.ins
def Exch.out (e : Exch) (o : Nat) : OutPort := sget {} o e.outs

/-! ### Shelf addresses of a record (R239, R574) -/

/-- The shelf byte address of flit `i`, or of the G16 block of its pair. -/
def flitAddr (w : BitVec 64) (i : Nat) : Int :=
  if rG16 w then 64 * rAddr w + 130 * (i / 2 : Nat) * rStride w
  else 64 * (((rAddr w : Int) + i * rStride w) % 65536)

/-- Bytes at that address. -/
def flitLen (w : BitVec 64) : Nat := if rG16 w then 130 else 64

/-- Whether the range lies in the shelves. The address of a G16 block does not wrap (R574); one below 0 lies outside them too. DESIGN
CHOICE, unsafe: assumption 73. -/
def addrIn (w : BitVec 64) (i : Nat) : Bool := 0 ≤ flitAddr w i && flitAddr w i + flitLen w ≤ shelfEnd

/-- An address as TILE_FAULT_ADDR shows it. -/
def faultAddr (a : Int) : Nat := (a % 2 ^ 32).toNat

/-- Whether a range lies wholly inside one landing zone (R249). -/
def inZone (e : Exch) (a n : Nat) : Bool := e.zones.any (fun z => 64 * z.1 ≤ a && a + n ≤ 64 * (z.1 + z.2 + 1))

/-- The ranges that flits `i` and later of a record land in. -/
def landRanges (w : BitVec 64) (i : Nat) : List (Nat × Nat) :=
  (List.range (rCount w - i)).filterMap (fun m => if addrIn w (i + m) then some ((flitAddr w (i + m)).toNat, flitLen w) else none)

/-- Whether a landing of this phase writes a range: one that has landed, or one that the TILE output's records have
still to make (R250). -/
def landsOn (x : Tile) (a n : Nat) : Bool :=
  let p := x.exch.out 4
  let later := (match p.cur with | some r => landRanges r.word r.i | none => []) ++
    (List.range p.recs).flatMap (fun m => landRanges (BitVec.ofNat 64 (readLE x.shelf (p.next + 8 * m) 8)) 0)
  x.exch.landed.any (meets (a, n)) || p.land.any (fun c => a ≤ c.1 && c.1 < a + n)
    || later.any (meets (a, n))

/-- A read of the shelves by any unit but the TILE output: undefined data where a landing of the same phase writes the bytes
(R18, R250). -/
def senderRead (tid : TileId) (a n : Nat) (s : State) : List Byte :=
  let x := s.tile tid
  if !landsOn x a n then readBytes x.shelf a n
  else (List.range n).map (fun i =>
    if landsOn x (a + i) 1 then Config.undefinedByte tid s.undef (a + i) else readByte x.shelf (a + i))

/-- A use of undefined data is counted where a read meets some (R18, R250). -/
def State.readsLanding (s : State) (tid : TileId) (a n : Nat) : State :=
  { s with undef := s.undef + (if landsOn (s.tile tid) a n then 1 else 0) }

end Sys2Proof.Machine
end

