-- ==== Sys2Proof/Machine/Flags.lean ====
section
/-!
DEFINITION. The block has no status flags (R108): its conditions are the predicates p0–p7 and the lane masks. This
file computes them: predication (R76), the scalar relations (R111) and the element relations of the vector compares
(Table 4-6).
-/
namespace Sys2Proof.Machine

/-- Whether a word executes: p[PRED] XOR PINV (R76). -/
def hdrRuns (h : Hdr) (t : Tile) : Bool := t.p h.pred != h.pinv

/-- The relations of CEQ, CNE, CLT, CGE, CLTU and CGEU (R111), on 64-bit values or, with FMT 0x0, on the low 32
bits. -/
inductive Rel where
  | eq | ne | lt | ge | ltu | geu
  deriving DecidableEq, Repr

def Rel.holds (r : Rel) {w : Nat} (a b : BitVec w) : Bool :=
  match r with
  | .eq => a == b
  | .ne => a != b
  | .lt => a.slt b
  | .ge => !a.slt b
  | .ltu => a.ult b
  | .geu => !a.ult b

/-- A relation at the width that FMT gives: 0xF 64 bits, 0x0 the low 32 bits. -/
def Rel.at (r : Rel) (fmt : BitVec 4) (a b : Word) : Bool :=
  if fmt = 0xF then r.holds a b else r.holds (a.truncate 32) (b.truncate 32)

/-- The element relations of VCEQ, VCLT and VCLE: integers signed, floats with a NaN comparing false. -/
inductive VRel where
  | eq | lt | le
  deriving DecidableEq, Repr

def VRel.holds (r : VRel) (fmt a b : Nat) : Bool :=
  let x := elemFx fmt a
  let y := elemFx fmt b
  match r with
  | .eq => x.eq y
  | .lt => x.lt y
  | .le => x.lt y || x.eq y

end Sys2Proof.Machine
end

