-- ==== Sys2Proof/Machine/Bundle.lean ====
section
/-!
DEFINITION. The issue of a bundle (Chapter 3). A `TileWord` is what one decoded instruction word needs and does; the
issue operation takes the two words of a bundle, makes the decode checks of Table 3-12, holds the bundle while a word
is not ready (R73), raises its faults (R66, R93), applies slot A and then slot B with registers read as they stood
before the bundle (R74, R75), and moves the PC (R88, R104).
-/
namespace Sys2Proof.Machine

/-- Tile fault codes (Table 2-7). -/
def tileUE : Nat := 0x01
def tileADDR : Nat := 0x02
def badOP : Nat := 0x03
def accFMT : Nat := 0x04
def exchORDER : Nat := 0x05
def exchZONE : Nat := 0x06
def barZERO : Nat := 0x07
def barOVER : Nat := 0x08
def syncXLATE : Nat := 0x09
def sealFAULT : Nat := 0x0A
def sentinelFAULT : Nat := 0x0B
def barTIMEOUT : Nat := 0x0C
def waitTIMEOUT : Nat := 0x0D
def syncRESIDUE : Nat := 0x0E

/-- One decoded word: `bad` its own decode checks; the registers of each file it writes and the v registers it reads; whether the
sentinel samples it (R512); the shelf ranges it reads and the byte addresses it stores; whether its unit and operands are ready;
its run-time faults (code, TILE_FAULT_ADDR); whether it issues and then holds (WAIT, BAR); what a bundle held by its unit leaves
in the tile (R119); its effect, given the registers before the bundle; a taken branch's target; what it changes for the next
bundle only (R382); of a queue word that will fault, the entry that alone enters the queue: neither word of its bundle commits a
result (R93); and, of a word that the sentinel samples, its bits. -/
structure TileWord where
  bad : Bool
  hdr : Hdr
  nop : Bool := false
  exch : Bool := false
  gd : List (BitVec 5) := []
  vd : List (BitVec 5) := []
  vr : List (BitVec 5) := []
  sk : Bool := false
  reads : Tile → List (Nat × Nat) := fun _ => []
  stores : Tile → List Nat := fun _ => []
  ready : TileId → State → Bool := fun _ _ => true
  check : TileId → Tile → State → List (Nat × Nat) := fun _ _ _ => []
  waits : TileId → State → Bool := fun _ _ => false
  onHold : Option (Tile → Tile) := none
  run : TileId → Tile → State → State := fun _ _ s => s
  target : Tile → Option Nat := fun _ => none
  post : Tile → Tile := fun x => x
  doom : TileId → Tile → State → Option MxaEntry := fun _ _ _ => none
  raw : Word := 0

/-- A word that changes only the tile's registers and shelves. -/
def onTile (f : Tile → Tile → Tile) : TileId → Tile → State → State := fun tid old s => s.modTile tid (f old)

/-- The conditions of Table 3-12 that concern the pair (R92). -/
def pairBad (a b : TileWord) : Bool :=
  a.gd.any (fun r => r ≠ 0 && b.gd.contains r) || a.vd.any (fun r => b.vd.contains r) || (a.exch && !b.nop)

/-- The store addresses as ranges, for the order against the MXA queue. -/
def TileWord.storeRanges (w : TileWord) (x : Tile) : List (Nat × Nat) := (w.stores x).map (fun a => (a, 1))

/-- Whether an executing word is ready: its unit, the v registers a queued AMOV still writes (R95), and the order against older
matrix and accumulator words (R46, R147). DESIGN CHOICE, safe: assumption 10. -/
def TileWord.isReady (w : TileWord) (tid : TileId) (x : Tile) (s : State) : Bool :=
  !hdrRuns w.hdr x ||
    (w.ready tid s && !(x.queue.any (fun e => e.op = .amov && (w.vr ++ w.vd).contains e.o.rb))
      && !(x.queue ≠ [] && queueClash x.queue (w.reads x) (w.storeRanges x)))

/-- The faults of an executing word: its own checks first, then an uncorrectable word it reads (R218) or merges into
(R219). -/
def TileWord.faults (w : TileWord) (tid : TileId) (old : Tile) (s : State) : List (Nat × Nat) :=
  if !hdrRuns w.hdr old then []
  else
    let own := w.check tid old s
    if own ≠ [] then own
    else
      let x := s.tile tid
      if x.bad = [] then []
      else match x.firstBad (w.reads old) with
        | some a => [(tileUE, a)]
        | none => match x.badMerge (w.stores old) with
          | some a => [(tileUE, a)]
          | none => []

/-- The effect of a word, with the ECC effects of what it reads (R216); the ring words that it reads are read (R293). -/
def TileWord.exec (w : TileWord) (tid : TileId) (old : Tile) (s : State) : State :=
  if !hdrRuns w.hdr old then s
  else w.run tid old (if (s.tile tid).bad = [] && (s.tile tid).rings = [] then s
    else s.modTile tid (fun x => (x.touch (w.reads old)).noteReads (w.reads old)))

/-- The v registers `l` of a tile, as a word item carries them (R513). -/
def Tile.vsOf (x : Tile) (l : List (BitVec 5)) : Sparse Row := l.foldl (fun m r => sput 0 r.toNat (x.v r) m) []

/-- Sentinel sampling of a slot-B word (R512, R513): with D > 0, the executed words of the sampled kinds are numbered
from 0 in each compute phase, and word j is an item for the partner when j mod D = ρ. -/
def sampleWord (w : TileWord) (tid : TileId) (old : Tile) (s : State) : State :=
  let d := (s.run old.task).sentD
  if d = 0 || !w.sk || !hdrRuns w.hdr old then s
  else s.modTile tid (fun x =>
    { x with
      wordNum := x.wordNum + 1
      sent := if x.wordNum % d = (x.sstep.toNat + x.rel.toNat) % d
        then x.sent ++ [{ num := x.wordNum, pc := old.pc, result := w.vd.map x.v, isRow := false
                          word := w.raw, vs := old.vsOf (w.vr ++ w.vd) }] else x.sent })

/-- The fetch (R102, R103): a block not held fills its line, with the ECC effects of reading it and a note of the
words that read uncorrectable. -/
def Tile.fill (x : Tile) (block : Nat) : Tile :=
  if (sget ({} : IbufLine) (block % 64) x.ibuf).block = some block then x
  else
    let ws := wordsOf (256 * block) 256
    let line : IbufLine := { block := some block, bad := if x.bad = [] then [] else (ws.filter (fun w => 2 ≤ x.mark w)).map (8 * ·) }
    { x.touch [(256 * block, 256)] with ibuf := sput {} (block % 64) line x.ibuf }

/-- The byte address of an uncorrectable word of the bundle about to issue, if any (R103). -/
def Tile.fetchBad (x : Tile) : Option Nat :=
  (sget ({} : IbufLine) (x.pc.toNat / 256 % 64) x.ibuf).bad.find?
    (fun a => x.pc.toNat ≤ a && a < x.pc.toNat + 16)

/-- Whether the tile can issue a bundle now: it is in COMPUTE, it has not arrived at a barrier (EXCH), it holds in no WAIT or
BAR that has not been released, and no word of its queue is about to fault at its start (R93, R94). DEDUCED, unsafe: assumptions
10, 15 and 47. -/
def Tile.canIssue (x : Tile) : Bool :=
  x.st = 2 && !x.exch.issued && (match x.hold with | some h => h.released | none => true)
    && !x.queue.any (fun e => e.doomed)

/-- Raise the lowest of several faults of one beat at once. -/
def raiseNow (s : State) (tid : TileId) (pc : Nat) (l : List (Nat × Nat)) : State :=
  match l with
  | [] => s
  | f :: r =>
    let m := r.foldl (fun a b => if b.1 < a.1 then b else a) f
    s.raise tid m.1 (r ≠ []) pc m.2

/-- Raise the lowest of several faults of one beat, with MULTI when there are more than one (R66), once the older words of the
command queue have completed (R94). DEDUCED, unsafe: assumption 11. -/
def raiseList (s : State) (tid : TileId) (pc : Nat) (l : List (Nat × Nat)) : State :=
  if (s.tile tid).drained then raiseNow s tid pc l else s

/-- The ECC effects of a faulting bundle's reads stay although it commits nothing (R93, R217). -/
def TileWord.touchReads (w : TileWord) (tid : TileId) (old : Tile) (s : State) : State :=
  if !hdrRuns w.hdr old || old.bad = [] || (w.check tid old s).any (fun f => f.1 ≠ tileUE) then s
  else s.modTile tid (fun x => x.touch (w.reads old ++ (partialWords (w.stores old)).map (fun k => (8 * k, 8))))

/-- What a bundle that holds leaves behind: a SEND notes what it waits for (R73, R119). -/
def holdBundle (tid : TileId) (a : TileWord) (old : Tile) (s : State) : State :=
  match a.onHold with
  | some f => if hdrRuns a.hdr old then s.modTile tid f else s
  | none => s

/-- Issue one bundle (R73–R77, R92, R93): it holds while a word is not ready or a WAIT or BAR of slot A is not met, and a bundle
that faults does so once the older words of the command queue have completed (R94). DESIGN CHOICE, unsafe: assumption 9. -/
def issue (tid : TileId) (a b : TileWord) (s : State) : State :=
  let x := s.tile tid
  if !x.canIssue then s
  else if 0x100000 ≤ x.pc.toNat then s.raiseOlder tid tileADDR false x.pc.toNat x.pc.toNat
  else
    let s0 := s.modTile tid (fun y => y.fill (x.pc.toNat / 256))
    let old := s0.tile tid
    match old.fetchBad with
    | some addr => s0.raiseOlder tid tileUE false x.pc.toNat addr
    | none =>
      if a.bad || b.bad || pairBad a b then s0.raiseOlder tid badOP false x.pc.toNat 0
      else if !(a.isReady tid old s0 && b.isReady tid old s0) then holdBundle tid a old s0
      else
        let fa := a.faults tid old s0
        if fa = [] && hdrRuns a.hdr old && a.waits tid s0 then a.exec tid old s0
        else
        let s1 := if fa ≠ [] then s0 else a.exec tid old s0
        let fb := b.faults tid old s1
        if fa ++ fb ≠ [] then
          if !old.drained then s0 else raiseList (b.touchReads tid old (a.touchReads tid old s0)) tid x.pc.toNat (fa ++ fb)
        else match (if hdrRuns b.hdr old then b.doom tid old s1 else none) with
          | some e => (a.touchReads tid old s0).modTile tid (fun y => { y with queue := y.queue ++ [{ e with doomed := true }] })
          | none =>
            let s2 := sampleWord b tid old (b.exec tid old s1)
            let next := match (if hdrRuns a.hdr old then a.target old else none) with
              | some p => p
              | none => x.pc.toNat + 16
            let post := if hdrRuns a.hdr old then a.post else fun y => y
            s2.modTile tid (fun y => { post y with pc := BitVec.ofNat 32 next, hold := none })

/-- The NOP of either slot (R78). -/
def nopWord (w : Word) : TileWord := { bad := w ≠ 0, hdr := ⟨0, false⟩, nop := w = 0 }

/-- A word whose opcode its slot does not have (R87). -/
def reservedWord : TileWord := { bad := true, hdr := ⟨0, false⟩ }

end Sys2Proof.Machine
end

