-- ==== Sys2Proof/Machine/Csr.lean ====
section
/-!
DEFINITION. The tile CSR window (Table 2-6): reads with their clears, writes, the opening and closing of message rings
(R68–R70), TILE_CTL (R65), and a tile's arrival at a barrier (R49).
-/
namespace Sys2Proof.Machine

/-- Who reads or writes a tile window: a tile's program, the physical function, or the Lamplighter (R227). -/
inductive Reader where
  | tile | host | lmc
  deriving DecidableEq, Repr

/-- The high and low halves of a 64-bit counter. -/
def hi64 (v : Nat) : BitVec 32 := BitVec.ofNat 32 (v / 2 ^ 32)
def lo64 (v : Nat) : BitVec 32 := BitVec.ofNat 32 v

/-- MRINGn_CFG. -/
def Ring.cfg (r : Ring) : BitVec 32 :=
  BitVec.ofNat 32 (b2n r.isOpen * 2 ^ 31 + r.size64.toNat * 2 ^ 15 + r.base64.toNat)

/-- MRINGn_PTR. -/
def Ring.ptr (r : Ring) : BitVec 32 := BitVec.ofNat 32 (r.tail.toNat * 2 ^ 16 + r.head.toNat)

/-- MSG_STATUS. -/
def Tile.msgStatus (x : Tile) : BitVec 32 :=
  BitVec.ofNat 32 (x.msgResult.toNat * 2 ^ 30 + x.msgReason.toNat * 2 ^ 28 + x.msgSeq.toNat)

/-- RNG_STATUS (Chapter 13). -/
def Tile.rngStatus (x : Tile) : BitVec 32 :=
  BitVec.ofNat 32 (b2n x.vu.isWax * 2 ^ 31 + b2n x.dr.isWax * 2 ^ 30 + b2n x.vu.keyed * 2 ^ 29
    + b2n x.dr.keyed * 2 ^ 28 + b2n x.waxUsed * 2 ^ 27 + x.vu.ctr.toNat % 2 ^ 16)

/-- The copy of BANK_CONFLICT_SEL of a reader (R227). The program of another tile of the footprint uses the copy of the target
tile's own program. DESIGN CHOICE, unsafe: assumption 58. -/
def Tile.sel (x : Tile) : Reader → BitVec 6
  | .tile => x.selTile
  | .host => x.selHost
  | .lmc => x.selLmc

/-- A bank counter; indices 40–63 select none. -/
def Tile.conflict (x : Tile) (i : Nat) : BitVec 32 := if i < 40 then sget 0 i x.conflicts else 0

/-- ACC_TAGS. -/
def Tile.accTags (x : Tile) : BitVec 32 :=
  BitVec.ofNat 32 (packNat 4 ((List.range 8).map (fun a => (x.acc (BitVec.ofNat 3 a)).tag.toNat)))

/-- The value of CSR `n` (byte offset / 4) of a tile window, without side effects. -/
def csrValue (who : Reader) (tid : TileId) (n : Nat) (s : State) : BitVec 32 :=
  let x := s.tile tid
  match n with
  | 0 => 0x10002058
  | 1 => 0x40010800
  | 2 => BitVec.ofNat 32 (x.rel.toNat * 2 ^ 21 + blockOf tid * 2 ^ 16 + tid.toNat)
  | 3 => x.foot.zeroExtend 32
  | 4 => BitVec.ofNat 32 (b2n (x.brk != x.brkAct) * 256 + x.st.toNat)
  | 5 => BitVec.ofNat 32 (b2n x.brk)
  | 6 => BitVec.ofNat 32 (b2n x.brkAct)
  | 7 => BitVec.ofNat 32 (b2n x.fValid * 2 ^ 31 + b2n x.fMulti * 2 ^ 30 + x.fCode.toNat)
  | 8 => x.fPc
  | 9 => x.fAddr
  | 10 => x.accTags
  | 11 => x.msgStatus
  | 12 => x.msgTx
  | 13 => x.msgTxNak
  | 14 => hi64 x.sstep.toNat
  | 15 => lo64 x.sstep.toNat
  | 16 => hi64 (s.beats tid)
  | 17 => lo64 (s.beats tid)
  | 18 => hi64 x.freezeFeed.toNat
  | 19 => lo64 x.freezeFeed.toNat
  | 20 => hi64 x.freezeDrain.toNat
  | 21 => lo64 x.freezeDrain.toNat
  | 22 => x.rngStatus
  | 23 => 0
  | 56 => x.shelfCe
  | 57 => x.shelfUe
  | 58 => x.shelfUeAddr
  | 59 => BitVec.ofNat 32 (b2n (if x.st = 8 then x.pilotScrub else s.scrubs tid) * 2 ^ 31 + x.scrubPtr.toNat)
  | 60 => hi64 x.scrubPass.toNat
  | 61 => lo64 x.scrubPass.toNat
  | 62 => (x.sel who).zeroExtend 32
  | 63 => x.conflict (x.sel who).toNat
  | _ =>
    let k := n % 8
    if 24 ≤ n && n < 32 then (x.ring k).cfg
    else if 32 ≤ n && n < 40 then (x.ring k).ptr
    else if 40 ≤ n && n < 48 then (x.ring k).rx
    else if 48 ≤ n && n < 56 then (x.ring k).nak
    else 0

/-- What a read of CSR `n` clears: TILE_FAULT (RC) and the SAT counters (R11, R66, R115). -/
def csrClear (who : Reader) (n : Nat) (x : Tile) : Tile :=
  match n with
  | 7 => { x with fValid := false, fMulti := false, fCode := 0 }
  | 13 => { x with msgTxNak := 0 }
  | 56 => { x with shelfCe := 0 }
  | 57 => { x with shelfUe := 0 }
  | 63 => { x with conflicts := sput 0 (x.sel who).toNat 0 x.conflicts }
  | _ => if 48 ≤ n && n < 56 then x.setRing (n % 8) { x.ring (n % 8) with nak := 0 } else x

/-- Whether two rings share a 64-byte unit. -/
def ringsMeet (b1 z1 b2 z2 : Nat) : Bool := b1 < b2 + z2 && b2 < b1 + z1

/-- The checks of R68 on ring `n` of a tile for a base and size in 64-byte units. -/
def ringOk (x : Tile) (n base size : Nat) : Bool :=
  1 ≤ size && size ≤ 1024 && 64 * (base + size) ≤ 0x100000 &&
    !(List.range 8).any (fun k => k ≠ n && (x.ring k).isOpen
      && ringsMeet base size (x.ring k).base64.toNat (x.ring k).size64.toNat)

/-- Whether a write to MRINGn_CFG opens a closed ring and fails R68. -/
def ringOpenFails (x : Tile) (n : Nat) (v : BitVec 32) : Bool :=
  v.getLsbD 31 && !(x.ring n).isOpen && !ringOk x n (v.toNat % 2 ^ 14) (bits v.toNat 25 15)

/-- A write to MRINGn_CFG (R68, R69). -/
def ringCfgWrite (x : Tile) (n : Nat) (v : BitVec 32) : Tile :=
  let r := x.ring n
  if r.isOpen then (if v.getLsbD 31 then x else x.setRing n { r with isOpen := false })
  else
    let r' := { r with size64 := v.extractLsb' 15 11, base64 := v.extractLsb' 0 14 }
    if v.getLsbD 31 then
      (if ringOpenFails x n v then x else x.setRing n { r' with isOpen := true, head := 0, tail := 0, starts := [], unread := [] })
    else x.setRing n r'

/-- Ring size in words, N = 8·SIZE64. -/
def Ring.words (r : Ring) : Nat := 8 * r.size64.toNat

/-- Whether a new HEAD lies between HEAD and TAIL going forward (R293). -/
def Ring.forward (r : Ring) (h : Nat) : Bool :=
  let n := r.words
  (h + n - r.head.toNat) % n ≤ (r.tail.toNat + n - r.head.toNat) % n

/-- How far word `i` lies ahead of HEAD. -/
def Ring.ahead (r : Ring) (i : Nat) : Nat := (i + r.words - r.head.toNat) % r.words

/-- Whether HEAD may move to word `h`: where it stands, or forward over whole records that the program has read, as far as TAIL
(R293). A word counts as read when a load has met it. DEDUCED, unsafe: assumption 68. -/
def Ring.passes (r : Ring) (h : Nat) : Bool :=
  h = r.head.toNat ||
    (r.forward h && r.starts.head? = some r.head.toNat && (h = r.tail.toNat || r.starts.contains h) &&
      !r.unread.any (fun i => r.ahead i < r.ahead h))

/-- HEAD moves over records; what lies behind it is free (R293). -/
def Ring.moveHead (r : Ring) (h : BitVec 13) : Ring :=
  { r with
    head := h
    starts := if h = r.tail then [] else r.starts.filter (fun i => r.ahead h.toNat ≤ r.ahead i)
    unread := if h = r.tail then [] else r.unread.filter (fun i => r.ahead h.toNat ≤ r.ahead i) }

/-- A write to MRINGn_PTR: HEAD only; at or above N it is ignored; a HEAD moved otherwise than forward over whole records that have
been read leaves undefined contents (R293). -/
def ringPtrWrite (tid : TileId) (n : Nat) (v : BitVec 32) (s : State) : State :=
  let x := s.tile tid
  let r := x.ring n
  let h := v.toNat % 2 ^ 13
  if r.words ≤ h then s
  else
    if r.passes h then s.setTile tid (x.setRing n (r.moveHead (BitVec.ofNat 13 h)))
    else
      let x1 := x.setRing n { r with head := BitVec.ofNat 13 h, starts := [], unread := [] }
      { s.setTile tid (x1.scramble tid s.undef ((List.range r.words).map (fun i => 8 * r.base64.toNat + i))) with
        undef := s.undef + 1 }

/-! ### Superstep boundaries (R65, R225, R493) -/

/-- Whether a tile that a task of partition `p` holds has still an older MODE or SYNC_WDOG in force. -/
def State.holdsOld (s : State) (p : Nat) (f : Tile → Option (BitVec 32)) : Bool :=
  s.tiles.any (fun c => (f c.2).isSome && c.2.assigned && (s.run c.2.task).part = p)

/-- MODE_ACT and SYNC_WDOG_ACT of a partition show a pending value once it is in force in every tile (R493, Table 17-3); a change
of mode is logged (Table 18-6). DEDUCED, unsafe: assumption 33. -/
def State.inForce (s : State) (p : Nat) : State :=
  let q := s.part p
  let s1 := if q.mode = q.modeAct || s.holdsOld p Tile.modeHeld then s
    else (s.logEvent 5 p).modPart p (fun r => { r with modeAct := q.mode })
  if q.wdog = q.wdogAct || s.holdsOld p Tile.wdogHeld then s1 else s1.modPart p (fun r => { r with wdogAct := q.wdog })

/-- What a staged register of a partition leaves in force in a tile: the older value in a tile that a task holds, until its next
boundary, unless the write restores it (R493). -/
def heldSetting (old new : BitVec 32) (h : Option (BitVec 32)) : Option (BitVec 32) :=
  if h.getD old = new then none else some (h.getD old)

/-- A tile passes a superstep boundary: pending TILE_CTL and the staged settings of its partition take effect in it (Table
17-3). -/
def boundary (tid : TileId) (s : State) : State :=
  (s.modTile tid (fun x => { x with brkAct := x.brk, modeHeld := none, wdogHeld := none })).inForce (s.runOf tid).part

/-- Restart the watchdog counts of a footprint (R52, R280). -/
def restartWatch (r : Run) (s : State) : State :=
  r.tiles.foldl (fun s' u => s'.modTile u (fun y =>
    { y with
      since := s'.beats u
      hold := y.hold.map (fun h => { h with since := s'.beats u }) })) s

/-- Whether any tile of a footprint is in HELD (R52). -/
def anyHeld (r : Run) (s : State) : Bool := r.tiles.any (fun u => (s.tile u).st = 6)

/-- A tile in HELD whose BREAK has returned to 0 arrives at its compute barrier, a superstep boundary (R52, R65, Table 2-5); when it was
the last of its footprint, every watchdog count starts again. -/
def leaveHeld (tid : TileId) (s : State) : State :=
  let s1 := boundary tid (s.modTile tid (fun x => { x with st := 3, since := s.beats tid }))
  let r := s1.runOf tid
  if anyHeld r s1 then s1 else restartWatch r s1

/-- A write to TILE_CTL: pending until the boundary; at once on a tile that no task holds, and at once in HELD for
BREAK = 0 (R65, R493). -/
def tileCtlWrite (tid : TileId) (v : BitVec 32) (s : State) : State :=
  let b := v.getLsbD 0
  let x := s.tile tid
  let x1 := { x with brk := b }
  if x.st = 0 then s.setTile tid { x1 with brkAct := b }
  else if x.st = 6 && !b then leaveHeld tid (s.setTile tid { x1 with brkAct := false })
  else s.setTile tid x1

/-- Whether the host, and the Lamplighter likewise, may write the ring registers of a tile now: UNASSIGNED, LOADING or HELD
(R70). DESIGN CHOICE, unsafe: assumption 57. -/
def hostMayWriteRing (x : Tile) : Bool := x.st = 0 || x.st = 1 || x.st = 6

/-- A write to CSR `n` of a tile window (R65, R68–R70, R115); writes to RO fields are ignored. -/
def csrWrite (who : Reader) (tid : TileId) (n : Nat) (v : BitVec 32) (s : State) : State :=
  let x := s.tile tid
  if n = 5 then (if who = .tile then s else tileCtlWrite tid v s)
  else if n = 62 then
    s.setTile tid (match who with
      | .tile => { x with selTile := v.extractLsb' 0 6 }
      | .host => { x with selHost := v.extractLsb' 0 6 }
      | .lmc => { x with selLmc := v.extractLsb' 0 6 })
  else if 24 ≤ n && n < 32 then
    (if who = .tile || hostMayWriteRing x then s.setTile tid (ringCfgWrite x (n % 8) v) else s)
  else if 32 ≤ n && n < 40 then
    (if who = .tile || hostMayWriteRing x then ringPtrWrite tid (n % 8) v s else s)
  else s

/-! ### CSRR and CSRW (R63, R68, R89, R115, R116) -/

/-- The tile a CSR word names: its own with IMM[31] = 0, else the tile with relative ID g[RA] in its footprint; none
when that ID lies outside. -/
def csrTarget (o : OpI) (tid : TileId) (old : Tile) (s : State) : Option TileId :=
  if o.imm.getLsbD 31 then
    let r := s.run old.task
    let rel := (old.g o.ra).toNat
    if rel < r.size then some (r.tileAt rel) else none
  else some tid

/-- The fields of a CSR word: IMM[30:6] is zero, RA is unused with IMM[31] = 0 (R81, R89). -/
def okCsr (o : OpI) : Bool :=
  o.sh = 0 && o.res = 0 && bits o.imm.toNat 30 6 = 0 && (o.imm.getLsbD 31 || o.ra = 0)

/-- Whether a CSR word on another tile stays behind the messages that its tile has sent there, and its reply behind their results
(R32, R263). -/
def csrReady (o : OpI) (tid : TileId) (s : State) : Bool :=
  match csrTarget o tid (s.tile tid) s with
  | some u => !o.imm.getLsbD 31 || (!s.msgs.any (fun m => m.src = tid && m.dst = u) &&
      !(s.tile tid).sends.any (fun p => (s.runOf tid).tileAt p.dest.toNat = u))
  | none => true

/-- A CSR target outside the footprint: TILE_FAULT_ADDR holds bits [31:0] of g[RA] (R63, Table 2-8). -/
def csrCheck (o : OpI) (tid : TileId) (old : Tile) (s : State) : List (Nat × Nat) :=
  match csrTarget o tid old s with
  | some _ => []
  | none => [(tileADDR, (old.g o.ra).toNat % 2 ^ 32)]

def wCsrr (h : Hdr) (o : OpI) : TileWord :=
  { bad := !okCsr o
    hdr := h
    gd := [o.rd]
    ready := csrReady o
    check := csrCheck o
    run := fun tid old s => match csrTarget o tid old s with
      | none => s
      | some u =>
        let n := o.imm.toNat % 64
        let v := csrValue .tile u n s
        (s.modTile u (csrClear .tile n)).modTile tid (fun x => x.setG o.rd (v.zeroExtend 64)) }

/-- A ring open by CSRW that fails R68 is a fault of the CSRW bundle (R68). -/
def wCsrw (h : Hdr) (o : OpI) : TileWord :=
  { bad := !okCsr o
    hdr := h
    ready := csrReady o
    check := fun tid old s => match csrTarget o tid old s with
      | none => csrCheck o tid old s
      | some u =>
        let n := o.imm.toNat % 64
        let v : BitVec 32 := (old.g o.rd).truncate 32
        if 24 ≤ n && n < 32 && ringOpenFails (s.tile u) (n % 8) v then [(tileADDR, 64 * (v.toNat % 2 ^ 14))] else []
    run := fun tid old s => match csrTarget o tid old s with
      | none => s
      | some u => csrWrite .tile u (o.imm.toNat % 64) ((old.g o.rd).truncate 32) s }

end Sys2Proof.Machine
end

