-- ==== Sys2Proof/Machine/SyncMsg.lean ====
section
/-!
DEFINITION. Sync words and events (Table 4-4, Chapter 9) and messages: SIG, WAIT, BAR, CTRD, the increments on their
way, the release of a WAIT, the watchdog, SEND, MSTAT, message arrival, send results and MSG_STUCK.
-/
namespace Sys2Proof.Machine

/-! ### Sync words -/

/-- The reserved and unused fields of a sync word (R81). -/
def okS (o : OpS) : Bool := o.res = 0 && (if o.reg then o.count = 0 else o.ra = 0)

/-- A 16-bit count: COUNT, or bits [15:0] of g[RA]. -/
def sCount (o : OpS) (x : Tile) : BitVec 16 := if o.reg then (x.g o.ra).truncate 16 else o.count

/-- A WAIT target: COUNT zero-extended, or bits [31:0] of g[RA]. -/
def sTarget (o : OpS) (x : Tile) : BitVec 32 := if o.reg then (x.g o.ra).truncate 32 else o.count.zeroExtend 32

/-- The object that a tile's virtual ID translates to (R285). -/
def tileObj (s : State) (x : Tile) (sid : BitVec 12) : Option Nat := s.translate (s.run x.task).part sid.toNat

/-- SYNC_XLATE names the ID (R285). -/
def xlateCheck (o : OpS) (x : Tile) (s : State) : List (Nat × Nat) :=
  match tileObj s x o.sid with
  | some _ => []
  | none => [(syncXLATE, o.sid.toNat)]

/-- SIG sends its increment, which stays behind what the tile did before it (R117, R272). -/
def wSig (h : Hdr) (o : OpS) : TileWord :=
  { bad := !okS o
    hdr := h
    check := fun _ old s => xlateCheck o old s
    run := fun tid old s => match tileObj s old o.sid with
      | none => s
      | some k =>
        { s with incs := s.incs ++ [{ obj := k, amt := (sCount o old).zeroExtend 32, src := some ⟨tid, old.msgTx, old.copyNum, old.mxaNum⟩ }] } }

/-- A word that a node serves stays behind the tile's earlier increments to that node (R32). -/
def syncReady (o : OpS) (tid : TileId) (s : State) : Bool :=
  match tileObj s (s.tile tid) o.sid with
  | some k => !incAhead s.incs tid k
  | none => true

/-- A WAIT already at or past its target passes; otherwise it is placed with its object and the tile holds (R269,
R270). A released WAIT passes when its bundle is sent again. -/
def wWait (h : Hdr) (o : OpS) : TileWord :=
  { bad := !okS o
    hdr := h
    ready := syncReady o
    check := fun _ old s => if old.hold.isSome then [] else xlateCheck o old s
    waits := fun tid s =>
      let x := s.tile tid
      match x.hold, tileObj s x o.sid with
      | none, some k => !atOrPast (s.obj k).value (sTarget o x)
      | _, _ => false
    run := fun tid old s => match old.hold, tileObj s old o.sid with
      | none, some k =>
        let v := s.obj k
        let t := sTarget o old
        if atOrPast v.value t then s
        else
          (s.setObj k { v with waits := v.waits.filter (fun w => w.tile ≠ tid) ++ [{ tile := tid, target := t }] }).modTile tid
            (fun x => { x with hold := some { vid := o.sid, obj := k, isWait := true, since := s.beats tid } })
      | _, _ => s }

/-- BAR_ZERO and SYNC_XLATE of a BAR that has not yet arrived (R276, R285). -/
def barCheck (o : OpS) (old : Tile) (s : State) : List (Nat × Nat) :=
  (if sCount o old = 0 then [(barZERO, o.sid.toNat)] else []) ++ xlateCheck o old s

/-- A tile's arrival sets out for its object, and the tile holds (R274). -/
def barArrive (tid : TileId) (k : Nat) (vid : BitVec 12) (c : BitVec 16) (s : State) : State :=
  let v := s.obj k
  (s.setObj k { v with coming := v.coming ++ [{ tile := some tid, cnt := c, vid := vid }] }).modTile tid
    (fun x => { x with hold := some { vid := vid, obj := k, isWait := false, since := s.beats tid } })

/-- BAR arrives once and holds for its epoch (R274). -/
def wBar (h : Hdr) (o : OpS) : TileWord :=
  { bad := !okS o
    hdr := h
    check := fun _ old s => if old.hold.isSome then [] else barCheck o old s
    waits := fun tid s =>
      let x := s.tile tid
      x.hold = none && (tileObj s x o.sid).isSome
    run := fun tid old s => match old.hold, tileObj s old o.sid with
      | none, some k => barArrive tid k o.sid (sCount o old) s
      | _, _ => s }

/-- Whether an arrival's count differs from that of the epoch in progress (R277), or of the arrivals collected for the next SYNC
frame (R413). -/
def SyncObj.overs (v : SyncObj) (c : BitVec 16) : Bool :=
  (v.arrived ≠ 0 && v.cnt ≠ c) || (v.bound && v.dArr ≠ 0 && v.dCnt ≠ c)

/-- The tile that holds for an arrival: none where its task has ended. -/
def Arrival.holder (a : Arrival) : Option TileId := if a.gone then none else a.tile

/-- The node of object `k` takes an arrival: one whose count differs is not counted and marks its tile's hold (R277); else the
epoch in progress takes it (R274), or the next SYNC frame (R413). -/
def takeArrival (k : Nat) (s : State) (a : Arrival) : State :=
  let v := s.obj k
  let mark (x : Tile) : Tile :=
    { x with hold := x.hold.map (fun h => if h.obj = k && !h.isWait then { h with otherCnt := true } else h) }
  if v.overs a.cnt then (match a.holder with | some t => s.modTile t mark | none => s)
  else if v.bound then
    s.setObj k { v with dArr := v.dArr + 1, dCnt := a.cnt, dBars := v.dBars ++ a.holder.toList }
  else
    let r := v.arrive a.cnt a.holder
    releaseBars k r.2 (s.setObj k r.1)

/-- Where an arrival stands among the inputs of the node that holds object `k`: tiles by place, then the sources that are no tile
(R275). -/
def Arrival.place (k : Nat) (a : Arrival) : Nat := match a.tile with | some t => inputPlace k t | none => 2 ^ 12

/-- Arrivals in the order of the inputs of the node that holds object `k` (R275). -/
def sortArrivals (k : Nat) (l : List Arrival) : List Arrival :=
  l.foldr (List.orderedInsert (fun a b => a.place k ≤ b.place k)) []

/-- Whether an arrival has reached its node: none of its tile's earlier increments is still on its way there (R32). -/
def Arrival.here (s : State) (k : Nat) (a : Arrival) : Bool :=
  match a.tile with | some t => !incAhead s.incs t k | none => true

/-- The arrivals of a beat at object `k` are taken (R275). -/
def takeArrivals (s : State) (k : Nat) : State :=
  let v := s.obj k
  if v.coming = [] then s
  else (sortArrivals k (v.coming.filter (Arrival.here s k))).foldl (takeArrival k)
    (s.setObj k { v with coming := v.coming.filter (fun a => !a.here s k) })

/-- A tile whose arrival found another count raises BAR_OVER (R277) once the older words of its queue have completed (R94). -/
def raiseOver (s : State) (t : TileId) : State :=
  match (s.tile t).hold with
  | some h => if h.otherCnt then s.raiseOlder t barOVER false (s.tile t).pc.toNat h.vid.toNat else s
  | none => s

/-- The nodes take the arrivals of the beat that ends (R275, R283). DESIGN CHOICE, safe: assumption 67. -/
def State.serveArrivals (s : State) : State :=
  let s1 := (s.objs.map (·.1)).foldl takeArrivals s
  (s1.tiles.map (fun c => BitVec.ofNat 11 c.1)).foldl raiseOver s1

/-- CTRD: RA is the destination; REG and COUNT are zero (R81, R273). -/
def wCtrd (h : Hdr) (o : OpS) : TileWord :=
  { bad := !(o.res = 0 && !o.reg && o.count = 0)
    hdr := h
    gd := [o.ra]
    ready := syncReady o
    check := fun _ old s => xlateCheck o old s
    run := fun tid old s => match tileObj s old o.sid with
      | none => s
      | some k => s.modTile tid (fun x => x.setG o.ra ((s.obj k).value.zeroExtend 64)) }

/-! ### Increments, releases, the watchdog -/

/-- Whether what a SIG must follow has happened (R117, R272): older ADRAINs, older sends, older narrow writes and
memory-side adds of its tile. -/
def sigReady (s : State) (q : SigSrc) : Bool :=
  let x := s.tile q.tile
  !(x.queue.any (fun e => e.op = .adrain && e.num < q.drains)) &&
    !(x.sends.any (fun p => (q.seq - p.seq).toNat < 2 ^ 31)) &&
    !(x.copies.any (fun d => (d.op = 5 || d.op = 6) && d.num < q.copies && d.answered < d.len))

/-- SYNC_INCREMENT: the `n`-th increment on its way reaches its object and is applied (R268, R283); those of one source reach one
node in the order of issue (R32). -/
def execSyncIncrement (n : Nat) (s : State) : State :=
  match s.incs[n]? with
  | none => s
  | some i =>
    let free := match i.src with
      | some q => sigReady s q && !incAhead (s.incs.take n) q.tile i.obj
      | none => !unitAhead (s.incs.take n) i
    if free then
      ({ s with incs := s.incs.eraseIdx n } : State).incObj i.obj i.amt.toNat
    else s

/-- WAIT_RELEASE: the release of a WAIT that has been met reaches its tile (R269). -/
def execWaitRelease (tid : TileId) (s : State) : State :=
  match (s.tile tid).hold with
  | none => s
  | some h =>
    let v := s.obj h.obj
    if h.isWait && v.waits.any (fun w => w.tile = tid && w.met) then
      (s.setObj h.obj { v with waits := v.waits.filter (fun w => w.tile ≠ tid) }).modTile tid
        (fun x => { x with hold := some { h with released := true } })
    else s

/-- The watchdog limit in beats that is in force in a tile; 0 disables (R280, R493). -/
def watchLimit (s : State) (x : Tile) : Nat :=
  (x.wdogHeld.getD (s.part (s.run x.task).part).wdog).toNat % 2 ^ 24 * 65536

/-- WATCHDOG_EXPIRY: a tile that holds in WAIT or BAR, or waits at or in an exchange, has counted its limit (R280,
R281); the count is suspended while a tile of the footprint is in HELD (R52). -/
def execWatchdogExpiry (tid : TileId) (s : State) : State :=
  let x := s.tile tid
  let lim := watchLimit s x
  let now := s.beats tid
  if lim = 0 || !x.assigned || anyHeld (s.runOf tid) s then s
  else if x.st = 2 then
    match x.hold with
    | none => s
    | some h =>
      if h.released || now < h.since + lim then s
      else s.raiseOlder tid (if h.isWait then waitTIMEOUT else barTIMEOUT) false x.pc.toNat h.vid.toNat
  else if x.st = 3 || x.st = 4 || x.st = 5 then
    (if now < x.since + lim then s
     else s.raise tid barTIMEOUT false (x.pc.toNat - 16) (if x.st = 3 then 0x10000 else 0x10001))
  else s

/-! ### Messages -/

/-- SEND's number of words and ring. -/
def sendN (o : OpR) : Nat := o.fn.toNat % 8
def sendRing (o : OpR) : BitVec 3 := o.fn.extractLsb' 3 3

/-- MSG_STATUS, MSG_TX and HIST of a new send (R118, R121). -/
def Tile.newSend (x : Tile) : Tile :=
  { x with
    msgTx := x.msgTx + 1
    msgResult := 1
    msgReason := 0
    msgSeq := (x.msgTx + 1).truncate 16
    sendWait := none
    hist := x.hist <<< 1 }

/-- SEND (R90, R118); one that finds 32 sends pending holds until the result of the oldest returns (R119). -/
def wSend (h : Hdr) (o : OpR) : TileWord :=
  let n := sendN o
  { bad := !(o.rd = 0 && o.rb = 0 && o.fmt = 0 && o.rm = 0 && o.vm = 0 && o.fn.toNat < 64
      && (n = 0 || 4 < n || o.rc.toNat + n ≤ 32))
    hdr := h
    ready := fun tid s =>
      let x := s.tile tid
      x.sends.length < 32 && (match x.sendWait with
        | some q => x.sends.all (fun p => p.seq ≠ q)
        | none => true)
    onHold := some (fun x => if x.sends.length < 32 || x.sendWait.isSome then x
      else { x with sendWait := x.sends.head?.map (·.seq) })
    check := fun _ old s =>
      let rel := (old.g o.ra).toNat
      if (s.run old.task).size ≤ rel then [(tileADDR, rel % 2 ^ 32)] else []
    run := fun tid old s =>
      let s1 := s.modTile tid Tile.newSend
      let x := s1.tile tid
      if n = 0 || 4 < n then
        s1.setTile tid { x with msgResult := 3, msgReason := 3, msgTxNak := satInc x.msgTxNak, hist := x.hist ||| 1 }
      else
        let dst := (s.run old.task).tileAt (old.g o.ra).toNat
        let words := (List.range n).map (fun i => old.g (BitVec.ofNat 5 (o.rc.toNat + i)))
        { s1.setTile tid { x with sends := x.sends ++ [{ seq := x.msgTx, dest := (old.g o.ra).truncate 11, ring := sendRing o }] } with
          msgs := s1.msgs ++ [{ src := tid, srcRel := old.rel, dst := dst, ring := sendRing o, words := words, seq := x.msgTx }] } }

/-- The report of MSTAT (Table 4-5). The table gives bits [63:32] of FN 0x0000 no content, and they are zero. DESIGN CHOICE, unsafe:
assumption 71. -/
def mstatValue (x : Tile) (fn : Nat) : Word :=
  if fn = 0 then x.msgStatus.zeroExtend 64
  else if fn = 1 then
    BitVec.ofNat 64 (x.sends.length * 2 ^ 48 + (x.msgTx.toNat % 2 ^ 16) * 2 ^ 32 + x.hist.toNat)
  else
    let r := x.ring (fn % 8)
    BitVec.ofNat 64 (b2n r.isOpen * 2 ^ 31 + r.tail.toNat * 2 ^ 16 + r.head.toNat)

def wMstat (h : Hdr) (o : OpR) : TileWord :=
  { bad := !(o.ra = 0 && o.rb = 0 && o.rc = 0 && o.fmt = 0 && o.rm = 0 && o.vm = 0
      && (o.fn.toNat < 2 || (8 ≤ o.fn.toNat && o.fn.toNat < 16)))
    hdr := h
    gd := [o.rd]
    run := onTile fun old x => x.setG o.rd (mstatValue old o.fn.toNat) }

/-- The header word of a record (Table 9-3). -/
def msgHeader (m : Msg) : Nat :=
  2 ^ 62 + m.words.length * 2 ^ 59 + m.srcRel.toNat * 2 ^ 37 + (m.seq.toNat % 2 ^ 16) * 2 ^ 16

/-- Where the decision of R291 places a record of `l` words: its word offset, whether a PAD precedes it at TAIL, and the
new TAIL; none for RING_FULL. -/
def ringPlace (r : Ring) (l : Nat) : Option (Nat × Bool × Nat) :=
  let n := r.words
  let h := r.head.toNat
  let t := r.tail.toNat
  if t < h then (if l ≤ h - t - 1 then some (t, false, t + l) else none)
  else
    let e := n - t
    if l < e || (l = e && h ≠ 0) then some (t, false, (t + l) % n)
    else if l + 1 ≤ h then some (0, true, l)
    else none

/-- Record a ring's decision in the pending send of its sender. -/
def decide' (seq : BitVec 32) (out : BitVec 2) (l : List PendSend) : List PendSend :=
  l.map (fun p => if p.seq = seq then { p with outcome := some out } else p)

/-- Place an accepted message in its ring (R290–R292, R294). -/
def Tile.accept (x : Tile) (m : Msg) (pos : Nat) (pad : Bool) (tail : Nat) : Tile :=
  let r := x.ring m.ring.toNat
  let base := 64 * r.base64.toNat
  let rec' := leBytes 8 (msgHeader m) ++ m.words.flatMap (fun w => leBytes 8 w.toNat)
  let padB := if pad then at' (base + 8 * r.tail.toNat) (leBytes 8 (2 ^ 63)) else []
  (x.put (padB ++ at' (base + 8 * pos) rec')).setRing m.ring.toNat
    { r with
      tail := BitVec.ofNat 13 tail
      rx := r.rx + 1
      starts := r.starts ++ (if pad then [r.tail.toNat] else []) ++ [pos]
      unread := r.unread ++ (if pad then [r.tail.toNat] else []) ++ (List.range (m.words.length + 1)).map (pos + ·) }

/-- MESSAGE_ARRIVAL: the `n`-th message on its way reaches its ring, which decides (R291); messages of one tile to one
tile arrive in order (R263). -/
def execMessageArrival (n : Nat) (s : State) : State :=
  match s.msgs[n]? with
  | none => s
  | some m =>
    if (s.msgs.take n).any (fun q => q.src = m.src && q.dst = m.dst) then s
    else
      let s0 : State := { s with msgs := s.msgs.eraseIdx n }
      let x := s0.tile m.dst
      let r := x.ring m.ring.toNat
      let refuse (why : BitVec 2) : State :=
        (s0.setTile m.dst (x.setRing m.ring.toNat { r with nak := satInc r.nak })).modTile m.src
          (fun y => { y with sends := decide' m.seq why y.sends })
      if !r.isOpen then refuse 2
      else match ringPlace r (m.words.length + 1) with
        | none => refuse 1
        | some (pos, pad, tail) =>
          (s0.setTile m.dst (x.accept m pos pad tail)).modTile m.src
            (fun y => { y with sends := decide' m.seq 0 y.sends })

/-- The NAK run after a result (R296); BAD_LEN takes no part. -/
def Tile.nakRun (x : Tile) (p : PendSend) (out : BitVec 2) : Tile :=
  if out = 0 then
    (if x.nakDest = p.dest && x.nakRing = p.ring then { x with nakCount := 0 } else x)
  else if x.nakDest = p.dest && x.nakRing = p.ring then { x with nakCount := x.nakCount + 1 }
  else { x with nakDest := p.dest, nakRing := p.ring, nakCount := 1 }

/-- The result of a send returns (R120, R121). -/
def Tile.sendResult (x : Tile) (p : PendSend) (out : BitVec 2) : Tile :=
  let nak := out ≠ 0
  let age := (x.msgTx - p.seq).toNat
  let x1 := if p.seq = x.msgTx then { x with msgResult := if nak then 3 else 2, msgReason := out } else x
  { x1 with
    msgTxNak := if nak then satInc x1.msgTxNak else x1.msgTxNak
    hist := if nak && age < 32 then x1.hist ||| (1#32 <<< age) else x1.hist }

/-- SEND_RESULT: the result of the tile's `n`-th pending send returns; results from one tile return in order (R120,
R263). A tile whose NAK run stands at 2^20 first raises MSG_STUCK (R296). -/
def execSendResult (tid : TileId) (n : Nat) (s : State) : State :=
  let x := s.tile tid
  match x.sends[n]? with
  | none => s
  | some p => match p.outcome with
    | none => s
    | some out =>
      if (x.sends.take n).any (fun q => q.dest = p.dest) || 2 ^ 20 ≤ x.nakCount then s
      else s.setTile tid (({ x with sends := x.sends.eraseIdx n }.sendResult p out).nakRun p out)

/-- MSG_STUCK: a NAK run that reached 2^20 raises the event, counts it in the partition that owns the tile's block and returns
to 0 (R296). -/
def execMsgStuck (tid : TileId) (s : State) : State :=
  let x := s.tile tid
  if x.nakCount < 2 ^ 20 then s
  else
    let owner := s.blockPart (blockOf tid)
    let s1 := s.setTile tid { x with nakCount := 0 }
    let s2 := match owner with
      | some p => (s1.modPart p (fun q => { q with msgStuck := satInc q.msgStuck })).setFlag p 2
      | none => s1
    s2.report 7 1 tid.toNat (owner.getD 0xFF) x.task x.sstep.toNat 0 (x.nakRing.toNat * 2 ^ 11 + x.nakDest.toNat)

end Sys2Proof.Machine
end

