-- ==== Sys2Proof/Machine/Copy.lean ====
section
/-!
DEFINITION. Copy descriptors (Tables 11-2, 11-3): COPY at issue, the copies and narrow operations that complete them,
and the arms at the base-die end of a memory attach link.
-/
namespace Sys2Proof.Machine

/-! ### Attach points (Table 8-2) -/

/-- What a router's ATTACH port leads to. -/
inductive Attach where
  | memory (stack : Nat)
  | lamp (port : Nat)
  | cxl
  deriving DecidableEq, Repr

/-- The stack of a memory port in column `x` on the south (0) or north (1) edge. -/
def memStack (x north : Nat) : Option Nat :=
  if 1 ≤ x && x ≤ 30 then some ((x - 1) / 10 + 3 * north)
  else if 33 ≤ x && x ≤ 62 then some (6 + (x - 33) / 10 + 3 * north)
  else none

/-- The Lampline port index of a row of a west or east column: rows 0–5, 6–11, 20–25, 26–31. -/
def lampRow (y : Nat) : Option Nat :=
  if y ≤ 5 then some 0 else if y ≤ 11 then some 1 else if 20 ≤ y && y ≤ 25 then some 2 else if 26 ≤ y then some 3 else none

/-- The attach of a router (Table 8-2). -/
def attachOf (t : TileId) : Option Attach :=
  let x := tileX t
  let y := tileY t
  if x = 0 then
    (if 14 ≤ y && y ≤ 17 then some .cxl else (lampRow y).map (fun i => .lamp (2 * i)))
  else if x = 63 then (lampRow y).map (fun i => .lamp (2 * i + 1))
  else if y = 0 then (memStack x 0).map .memory
  else if y = 31 then (memStack x 1).map .memory
  else none

/-- The stack of a router's memory attach. -/
def attachStack (t : TileId) : Option Nat :=
  match attachOf t with
  | some (.memory k) => some k
  | _ => none

/-! ### Descriptors (Table 11-2) -/

/-- Whether a copy operation is narrow, or an arm. -/
def isNarrow (op : Nat) : Bool := 4 ≤ op
def isArm (op : Nat) : Bool := op = 2 || op = 3

/-- ESIZE in bytes. -/
def CopyDesc.es (d : CopyDesc) : Nat := 8 * 2 ^ d.esize

/-- The descriptor of four words, with g[RA] added to its source offset (R123, Table 11-3). -/
def parseCopy (w0 w1 w2 w3 : Nat) (ra : Nat) (addr obj : Nat) (x : Tile) (part : Nat) : CopyDesc :=
  let op := bits w0 63 60
  let stage := bits w0 24 0
  let data := bits w3 21 0
  { op := op
    sealed := bit w0 59 = 1
    sumsq := bit w0 58 = 1
    fmt := bits w0 57 54
    aop := bits w0 53 52
    esize := bits w0 51 50
    scale := bits w0 49 44
    stage := if op = 1 || op = 2 || op = 3 then (stage + ra) % 2 ^ 64 else stage
    hbm := if op = 0 || op = 4 then (w1 + ra) % 2 ^ 64 else w1
    rows := bits w2 63 48 + 1
    len := bits w2 31 0
    hstride := if isNarrow op then 0 else toSigned 32 (bits w3 63 32)
    sstride := if isNarrow op then 0 else toSigned 32 (bits w3 31 0)
    idx := if isNarrow op then bits w3 53 32 else 0
    data := if op = 5 || op = 6 then (data + ra) % 2 ^ 64 else if isNarrow op then data else 0
    obj := obj
    addr := addr
    pc := x.pc
    num := x.copyNum
    part := part
    task := x.task }

/-- The reserved bits of the words (Table 11-2). -/
def copyReserved (w0 w2 w3 : Nat) : Bool :=
  bits w0 43 25 ≠ 0 || bits w2 47 32 ≠ 0 || (isNarrow (bits w0 63 60) && (bits w3 63 54 ≠ 0 || bits w3 31 22 ≠ 0))

/-- The fields an operation does not use (R328, Table 11-3). -/
def copyUnused (d : CopyDesc) (w0 w1 : Nat) : Bool :=
  if isNarrow d.op then d.sealed || d.sumsq || bits w0 24 0 ≠ 0 || d.rows ≠ 1
  else
    d.esize ≠ 0 || d.scale ≠ 0 || (d.sumsq && d.op ≠ 1) ||
      (isArm d.op && (w1 ≠ 0 || d.hstride ≠ 0))

/-- FMT, AOP and ESIZE that Tables 11-3 and 11-5 allow. -/
def copyForm (d : CopyDesc) : Bool :=
  match d.op with
  | 0 | 1 => (d.fmt = 0 || d.fmt = 0xD) && d.aop = 0
  | 2 => (d.fmt = 0 && d.aop = 0) || ((d.fmt = 1 || d.fmt = 3 || d.fmt = 0xD) && d.aop = 1)
  | 3 => d.fmt = 0 && d.aop = 0
  | 4 | 5 => d.fmt = 0 && d.aop = 0 && d.esize ≤ 1
  | 6 => d.esize ≤ 1 && d.aop ≠ 0 &&
      (d.fmt = 0 || d.fmt = 1 || d.fmt = 3 || d.fmt = 0xF || (d.fmt = 0xD && d.aop = 1 && d.esize = 1))
  | _ => false

/-- The alignments of FETCH, STORE and the arms (R329). -/
def copyAlign (d : CopyDesc) : Bool :=
  if isNarrow d.op then d.idx % 4 = 0 && d.data % d.es = 0
  else
    let g := d.fmt = 0xD
    d.stage % 64 = 0 &&
      (if isArm d.op then d.len % (if g then 128 else 64) = 0
       else d.len % (if g then 130 else 64) = 0 && d.hbm % (if g then 2 else 64) = 0) &&
      (!d.sealed || (d.stage % 4096 = 0 &&
        (if isArm d.op then d.len % 4096 = 0
         else d.len % (if g then 4160 else 4096) = 0 && d.hbm % 4096 = 0)))

/-- Staging bytes of a row: HBM bytes, or blocks in flit form (R331). -/
def CopyDesc.stageLen (d : CopyDesc) : Nat := if d.fmt = 0xD && !isArm d.op then d.len / 130 * 128 else d.len

/-- HBM address and staging offset of a row (R330). -/
def CopyDesc.rowHbm (d : CopyDesc) (r : Nat) : Int := d.hbm + 64 * r * d.hstride
def CopyDesc.rowStage (d : CopyDesc) (r : Nat) : Int := d.stage + 64 * r * d.sstride

/-- Whether every row of a FETCH, STORE or arm lies inside the partition and the task's allocation, on one stack where
FMT is G16 (R329, R331). A row without bytes leaves nothing. -/
def copyRows (s : State) (r : Run) (d : CopyDesc) : Bool :=
  d.len = 0 || (List.range d.rows).all (fun i =>
    let so := d.rowStage i
    (r.stgOff : Int) ≤ so && so + d.stageLen ≤ r.stgOff + r.stgSize &&
      (isArm d.op ||
        (let ha := d.rowHbm i
         0 ≤ ha && s.inPart r.part ha.toNat d.len && (d.fmt ≠ 0xD || oneStack s r.part ha.toNat d.len))))

/-- Whether a narrow operation's index list and data area lie in the shelves (R329). -/
def copyRanges (d : CopyDesc) : Bool := d.idx + 4 * d.len ≤ shelfEnd && d.data + d.es * d.len ≤ shelfEnd

/-- Whether a descriptor passes every check of R329; a SCALE above 40, which Table 11-2 does not give, does not. DESIGN CHOICE, unsafe:
assumption 74. -/
def copyOk (s : State) (tid : TileId) (r : Run) (d : CopyDesc) (w0 w1 w2 w3 : Nat) : Bool :=
  d.op ≤ 6 && !copyReserved w0 w2 w3 && !copyUnused d w0 w1 && copyForm d && copyAlign d &&
    (!d.sumsq || d.fmt = 0xD) &&
    (if isNarrow d.op then d.scale ≤ 40 && copyRanges d
     else copyRows s r d && (!isArm d.op ||
       (match attachStack tid with
        | some k => (s.stack k).owner = some r.part
        | none => false)))

/-- The descriptor that a COPY reads, for the object its SID translates to. -/
def readCopy (o : OpX) (old : Tile) (s : State) (obj : Nat) : CopyDesc :=
  let a := 32 * o.desc.toNat
  let w (i : Nat) : Nat := readLE old.shelf (a + 8 * i) 8
  parseCopy (w 0) (w 1) (w 2) (w 3) (if o.ra = 0 then 0 else (old.g o.ra).toNat) a obj old (s.run old.task).part

/-- COPY (R99, R123, R328, R329). -/
def wCopy (h : Hdr) (o : OpX) : TileWord :=
  { bad := o.res ≠ 0
    hdr := h
    reads := fun _ => [(32 * o.desc.toNat, 32)]
    ready := fun tid s => (s.tile tid).copies.length < 16
    check := fun tid old s =>
      let a := 32 * o.desc.toNat
      match old.firstBad [(a, 32)] with
      | some b => [(tileUE, b)]
      | none =>
        let w (i : Nat) : Nat := readLE old.shelf (a + 8 * i) 8
        let bad := if copyOk s tid (s.run old.task) (readCopy o old s 0) (w 0) (w 1) (w 2) (w 3) then [] else [(tileADDR, a)]
        bad ++ (match tileObj s old o.sid with | some _ => [] | none => [(syncXLATE, o.sid.toNat)])
    run := fun tid old s => match tileObj s old o.sid with
      | none => s
      | some k => s.modTile tid (fun x =>
          { x with copies := x.copies ++ [readCopy o old s k], copyNum := old.copyNum + 1 }) }

/-! ### FETCH and STORE (R330–R332, R348, R353, R508) -/

/-- The seal that a FETCH loads: the entry's, or one the base die makes and counts in INT_SEAL_MADE where the entry's SV
is 0 (Table 18-1). -/
def fetchSeal (s : State) (k unit : Nat) (made : BitVec 32) : State × BitVec 32 :=
  let e := sget {} unit (s.stack k).seals
  if e.sv then (s, e.crc)
  else ({ s with integ := { s.integ with sealMade := s.integ.sealMade + 1 } }, made)

/-- One 64-byte unit of a raw FETCH; `last` marks the last unit of a sealed 4 KiB. The list collects the stacks that
met poison. -/
def fetchUnit (part a so : Nat) (last : Bool) (acc : State × List Nat) : State × List Nat :=
  match acc.1.hbmMap part a with
  | none => acc
  | some (k, l) =>
    let s1 := acc.1.readUnits k [l / 64]
    let x := s1.stack k
    let p := x.anyPoison [l / 64]
    let y := x.stgWrite (x.stgByte + so) (x.bytes k l 64) p
    let r := if last then fetchSeal (s1.setStack k y) k ((l - 4032) / 4096) (y.stgSeal (x.stgByte + so - 4032) false)
      else (s1.setStack k y, 0)
    (r.1.modStack k (fun z => z.setSide (x.stgByte + so) r.2), if p then acc.2 ++ [k] else acc.2)

/-- One 64-byte unit of a raw STORE; `last` marks the last unit of a sealed 4 KiB, `sealed` a sealed STORE (R510). -/
def storeUnit (part a so : Nat) (last sealed : Bool) (acc : State × List Nat) : State × List Nat :=
  match acc.1.hbmMap part a with
  | none => acc
  | some (k, l) =>
    let ab := (acc.1.stack k).stgByte + so
    let s0 := acc.1.modStack k (fun z => z.stgTouch ab 64)
    let x := s0.stack k
    let p := x.stgBad ab 64
    let s1 := s0.writeBytes k (at' l (x.stgRead ab 64)) (if p then [l / 64] else []) sealed
    let s2 := if last then s1.modStack k (fun z =>
        { z with seals := sput {} ((l - 4032) / 4096) { crc := x.side ab, sv := true, g := false } z.seals }) else s1
    (s2, if p then acc.2 ++ [k] else acc.2)

/-- One G16 block of a FETCH, whose bytes do not change (R355): local address, staging offset; `last` marks the last block of a
sealed unit. -/
def fetchBlock (k l so : Nat) (last : Bool) (acc : State × List Nat) : State × List Nat :=
  let s1 := acc.1.readUnits k (unitsOf l 130)
  let x := s1.stack k
  let p := x.anyPoison (unitsOf l 130)
  let ab := x.stgByte + so
  let y := x.setStgBlock130 ab (x.bytes k l 130) p
  let r := if last then fetchSeal (s1.setStack k y) k ((l - 130 * 31) / 4096) (y.stgSeal (ab - 128 * 31) true)
    else (s1.setStack k y, 0)
  (if last then r.1.modStack k (fun z => z.setSide (ab + 64) r.2) else r.1, if p then acc.2 ++ [k] else acc.2)

/-- One G16 block of a STORE, whose bytes do not change (R355). -/
def storeBlock (k l so : Nat) (last sealed sumsq : Bool) (acc : State × List Nat) : State × List Nat :=
  let ab := (acc.1.stack k).stgByte + so
  let s0 := acc.1.modStack k (fun z => z.stgTouch ab 128)
  let x := s0.stack k
  let p := x.stgBad ab 128
  let s1 := s0.writeBytes k (at' l (x.stgBlock130 ab)) (if p then unitsOf l 130 else []) sealed
  let s2 := if sumsq then s1.modStack k (fun z => { z with wsq := z.wsq.addBlock (x.stgBlock ab) }) else s1
  let e : SealEntry := { crc := x.side (ab + 64), sv := true, g := true, start := (l - 130 * 31) % 4096 }
  let s3 := if last then s2.modStack k (fun z => { z with seals := sput {} ((l - 130 * 31) / 4096) e z.seals }) else s2
  (s3, if p then acc.2 ++ [k] else acc.2)

/-- One row of a FETCH or STORE. -/
def copyRow (d : CopyDesc) (acc : State × List Nat) (r : Nat) : State × List Nat :=
  let ha := (d.rowHbm r).toNat
  let so := (d.rowStage r).toNat
  if d.fmt = 0xD then
    match acc.1.hbmMap d.part ha with
    | none => acc
    | some (k, l) => (List.range (d.len / 130)).foldl (fun a b =>
        let last := d.sealed && b % 32 = 31
        if d.op = 0 then fetchBlock k (l + 130 * b) (so + 128 * b) last a
        else storeBlock k (l + 130 * b) (so + 128 * b) last d.sealed d.sumsq a) acc
  else (List.range (d.len / 64)).foldl (fun a j =>
      let last := d.sealed && j % 64 = 63
      if d.op = 0 then fetchUnit d.part (ha + 64 * j) (so + 64 * j) last a
      else storeUnit d.part (ha + 64 * j) (so + 64 * j) last d.sealed a) acc

/-- Count a copy once in COPY_POISON of every stack where it met poison (R348). DEDUCED, unsafe: assumption 37. -/
def countPoison (l : List Nat) (s : State) : State :=
  l.dedup.foldl (fun s' k => s'.modStack k (fun x => { x with copyPoison := satInc x.copyPoison })) s

/-- Whether a re-key holds an access of a copy: one of the stacks that its rows lie on is re-keying (R351). -/
def copyHeld (d : CopyDesc) (s : State) : Bool :=
  s.hbm.any (fun c => c.2.rekeying) && (List.range d.rows).any (fun r => (List.range (d.len / 64 + 1)).any (fun j =>
    match s.hbmMap d.part ((d.rowHbm r).toNat + min (64 * j) (d.len - 1)) with
    | some (k, _) => (s.stack k).rekeying
    | none => false))

/-- Whether an older arm still waits to be accepted: it holds the copy queue (R334). -/
def armAhead (l : List CopyDesc) (n : Nat) : Bool := (l.take n).any (fun d => isArm d.op)

/-- COPY_COMPLETE: the tile's `n`-th outstanding copy completes: a FETCH or STORE moves its bytes, a narrow operation has every
element answered; its counter advances by 1 (R332). DESIGN CHOICE, unsafe: assumption 34. -/
def execCopyComplete (tid : TileId) (n : Nat) (s : State) : State :=
  match (s.tile tid).copies[n]? with
  | none => s
  | some d =>
    let gone (s' : State) : State := s'.modTile tid (fun x => { x with copies := x.copies.eraseIdx n })
    if isArm d.op || armAhead (s.tile tid).copies n then s
    else if isNarrow d.op then
      (if d.answered < d.len then s
       else
         let s1 := countPoison d.poisoned (gone s)
         if d.silent then s1 else s1.sendInc d.obj 1 (.copies tid))
    else if copyHeld d s then s
    else
      let r := (List.range d.rows).foldl (copyRow d) (s, [])
      (countPoison r.2 (gone r.1)).sendInc d.obj 1 (.copies tid)

/-! ### The narrow path (R339–R343) -/

/-- Replace the tile's `n`-th descriptor. -/
def setCopy (tid : TileId) (n : Nat) (d : CopyDesc) (s : State) : State :=
  s.modTile tid (fun x => { x with copies := x.copies.set n d })

/-- A copy's fault belongs to its task only. -/
def copyFault (tid : TileId) (d : CopyDesc) (code addr : Nat) (s : State) : State :=
  if (s.tile tid).task = d.task then s.raise tid code false d.pc.toNat addr else s

/-- The queue entry of the next element of a narrow operation. -/
def CopyDesc.element (d : CopyDesc) (tid : TileId) (ea : Int) (l da : Nat) (opnd : List Byte) : NarrowReq :=
  ⟨tid, d.num, d.op, d.fmt, d.aop, d.es, ea, l, da, opnd⟩

/-- NARROW_ELEMENT: the next element of the tile's `n`-th copy is formed and checked and reaches the gather unit of its stack, where
it waits (R339, R340); older narrow operations of the tile have formed theirs (R263). Shelf bytes that a landing of the exchange
phase writes are undefined to it (R18). DEDUCED, unsafe: assumption 35. -/
def execNarrowElement (tid : TileId) (n : Nat) (s : State) : State :=
  let x := s.tile tid
  match x.copies[n]? with
  | none => s
  | some d =>
    if !isNarrow d.op || d.len ≤ d.formed || armAhead x.copies n
        || (x.copies.take n).any (fun e => isNarrow e.op && e.formed < e.len) then s
    else
      let ia := d.idx + 4 * d.formed
      let da := d.data + d.es * d.formed
      let rd := (ia, 4) :: (if d.op = 4 then [] else [(da, d.es)])
      let s0 := (rd.foldl (fun s' r => s'.readsLanding tid r.1 r.2) s).modTile tid (fun y => y.touch rd)
      let stop (code addr : Nat) : State :=
        if x.task = d.task && !x.drained then s
        else copyFault tid d code addr (setCopy tid n { d with len := d.formed, silent := true } s0)
      match x.firstBad rd with
      | some a => stop tileUE a
      | none =>
        let ha := d.hbm + leNat (senderRead tid ia 4 s) * 2 ^ d.scale
        let size := if d.op = 6 && d.fmt = 0xD then 32 else d.es
        if ha % size ≠ 0 || !s.inPart d.part ha size then stop tileADDR ia
        else match s.hbmMap d.part ha with
          | none => s
          | some (k, l) =>
            let q := d.element tid (toSigned 8 (s.part d.part).g16aExp.toNat) l da (if d.op = 4 then [] else senderRead tid da d.es s)
            (setCopy tid n { d with formed := d.formed + 1 } s0).modStack k (fun y => { y with narrowQ := y.narrowQ ++ [q] })

/-- Serve the oldest waiting element of a tile's copy at each stack, with the other elements of its unit (R340). -/
def serveCopy (tid : TileId) (num : Nat) (s : State) : State :=
  (List.range 12).foldl (fun s' k =>
    let x := s'.stack k
    match x.narrowQ.find? (fun q => q.tile = tid && q.num = num) with
    | some q => if x.rekeying then s' else s'.gatherUnit k (q.addr / 64)
    | none => s') s

/-- The first stack whose next reply to a tile belongs to the tile's copy `num`: replies of one stack to one tile arrive in order
(R263). -/
def replyFrom (tid : TileId) (num : Nat) (s : State) : Option (Nat × NarrowReply) :=
  (List.range 12).findSome? (fun k =>
    match (s.stack k).narrowOut.find? (fun r => r.tile = tid) with
    | some r => if r.num = num then some (k, r) else none
    | none => none)

/-- NARROW_REPLY: the next reply or acknowledgement of the tile's `n`-th copy returns; a GATHER's bytes land in the shelves,
poisoned where they were (R340, R348). -/
def execNarrowReply (tid : TileId) (n : Nat) (s : State) : State :=
  match (s.tile tid).copies[n]? with
  | none => s
  | some d =>
    let s0 := if (replyFrom tid d.num s).isNone then serveCopy tid d.num s else s
    match replyFrom tid d.num s0 with
    | none => s0
    | some (k, r) =>
      let s1 := (s0.modStack k (fun y => { y with narrowOut := y.narrowOut.erase r })).modTile tid (fun x =>
        let y := x.put (at' r.addr r.data)
        if r.poison then { y with bad := (wordsOf r.addr r.data.length).foldl (fun b w => sput 0 w 3 b) y.bad } else y)
      setCopy tid n { d with answered := d.answered + 1, poisoned := if r.poison then d.poisoned ++ [k] else d.poisoned } s1

/-! ### Arms (R334–R338) -/

def State.armLink (s : State) (tid : TileId) : ArmLink := sget {} tid.toNat s.arms
def State.setArmLink (s : State) (tid : TileId) (a : ArmLink) : State := { s with arms := sput {} tid.toNat a s.arms }

/-- Flits that an arm covers (R335). -/
def CopyDesc.flits (d : CopyDesc) : Nat := d.rows * (d.len / 64)

/-- The staging offset of flit `n` of an arm (R335). -/
def CopyDesc.flitOff (d : CopyDesc) (n : Nat) : Nat :=
  (d.rowStage (n / (d.len / 64))).toNat + 64 * (n % (d.len / 64))

/-- ARM_ACCEPT: the base die accepts the oldest arm of the tile's copy queue when its link's queue has room (R334); an arm
without flits completes at once (R332). DEDUCED, safe: assumption 36. -/
def execArmAccept (tid : TileId) (s : State) : State :=
  let x := s.tile tid
  match x.copies.findIdx? (fun d => isArm d.op) with
  | none => s
  | some i => match x.copies[i]? with
    | none => s
    | some d =>
      let a := s.armLink tid
      let s1 := s.modTile tid (fun y => { y with copies := y.copies.eraseIdx i })
      if d.flits = 0 then s1.sendInc d.obj 1 (.copies tid)
      else if d.op = 2 then
        (if a.ins.length < 16 then s1.setArmLink tid { a with ins := a.ins ++ [{ d := d }] } else s)
      else if a.outs.length < 16 then s1.setArmLink tid { a with outs := a.outs ++ [{ d := d }] }
      else s

/-- The EXCH bundle's address, for faults of the exchange phase that it started. DEDUCED, unsafe: assumption 38. -/
def Tile.exchPc (x : Tile) : Nat := x.pc.toNat - 16

/-- The staging offset that TILE_FAULT_ADDR names with bit 31 set (R348, R511). -/
def stgFaultAddr (off : Nat) : Nat := off % 2 ^ 31 + 2 ^ 31

/-- A seal mismatch is counted and raised (R511). -/
def State.sealMismatch (s : State) (tid : TileId) (addr : Nat) : State :=
  ({ s with integ := { s.integ with sealErr := satInc s.integ.sealErr } }).raise tid sealFAULT false
    (s.tile tid).exchPc addr

/-- ARM_OUT_FLIT: the base-die end sends the next flit of its oldest ARM_OUT, with its side word as AUX and its ORD,
while the router's ATTACH input still expects flits in this phase and its FIFO has room (R335, R336, R348). -/
def execArmOutFlit (tid : TileId) (s : State) : State :=
  let x := s.tile tid
  let a := s.armLink tid
  let p := sget {} 4 x.exch.ins
  match a.outs, attachStack tid with
  | arm :: rest, some k =>
    if x.st ≠ 4 || p.slots ≤ a.kOut || 8 ≤ p.fifo.length || (s.stack k).rekeying then s
    else
      let off := arm.d.flitOff arm.n
      let ab := (s.stack k).stgByte + off
      let s0 := s.modStack k (fun z => z.stgTouch ab 64)
      let st := s0.stack k
      if st.stgBad ab 64 then s0.raise tid tileUE false x.exchPc (stgFaultAddr off)
      else
        let f : Flit := ⟨bytesFlit (st.stgRead ab 64), BitVec.ofNat 8 a.kOut, st.side ab⟩
        let s1 := s0.modTile tid (fun y =>
          { y with exch := { y.exch with ins := sput {} 4 { p with fifo := p.fifo ++ [f] } y.exch.ins } })
        if arm.n + 1 = arm.d.flits then
          (s1.setArmLink tid { a with outs := rest, kOut := a.kOut + 1 }).sendInc arm.d.obj 1 (.copies tid)
        else s1.setArmLink tid { a with outs := { arm with n := arm.n + 1 } :: rest, kOut := a.kOut + 1 }
  | _, _ => s

/-- A poisoned staging operand of an add arm: TILE_UE in the router's tile, counted (R348). -/
def addPoison (tid : TileId) (k off : Nat) (s : State) : State :=
  (s.modStack k (fun x => { x with copyPoison := satInc x.copyPoison })).raise tid tileUE false (s.tile tid).exchPc
    (stgFaultAddr off)

/-- What a flit does in staging (R327, R338): none where an add meets poison, else the stack after it and the bytes
that the seal of the arriving unit covers. -/
def armLand (arm : Arm) (st : Stack) (ab : Nat) (f : Flit) : Option (Stack × List Byte × Option Flit) :=
  let data := flitBytes f.data
  if arm.d.aop = 0 then some ((st.stgWrite ab data false).setSide ab f.aux, data, none)
  else if arm.d.fmt = 0xD then
    match arm.hold with
    | none => some (st, [], some f)
    | some f0 =>
      if st.stgBad (ab - 64) 128 then none
      else
        let b := g16Of (flitBytes f0.data ++ data) (f0.aux.toNat % 2 ^ 16)
        some (st.setStgBlock (ab - 64) ((st.stgBlock (ab - 64)).add b) false,
          flitBytes f0.data ++ data ++ leBytes 2 (f0.aux.toNat % 2 ^ 16), none)
  else if st.stgBad ab 64 then none
  else some ((st.stgWrite ab (lanesOp arm.d.fmt 1 (st.stgRead ab 64) data) false).setSide ab 0, data, none)

/-- ARM_IN_FLIT: the base-die end takes the next flit the router sent: its ORD is checked, and the oldest ARM_IN lands
or adds it, with the seal checks of a sealed arm (R336, R338, R508, R511). Once the router's tile has stopped nothing more is
taken, so a mismatch or a poisoned operand counts once. -/
def execArmInFlit (tid : TileId) (s : State) : State :=
  let a := s.armLink tid
  let pc := (s.tile tid).exchPc
  if !(s.tile tid).working then s
  else match a.fromRouter, attachStack tid with
  | f :: more, some k =>
    let ord := f.ord.toNat
    let exp := a.kIn % 256
    let s0 := s.setArmLink tid { a with fromRouter := more, kIn := a.kIn + 1 }
    match a.ins with
    | [] => s.raise tid exchORDER false pc (ord * 2 ^ 24 + 2 ^ 8 + 5)
    | arm :: rest =>
      if ord ≠ exp then s.raise tid exchORDER false pc (ord * 2 ^ 24 + exp * 2 ^ 16 + 5)
      else if (s.stack k).rekeying then s
      else
        let off := arm.d.flitOff arm.n
        let ab := (s.stack k).stgByte + off
        let g : Bool := arm.d.fmt = 0xD
        let st := if arm.d.aop = 0 || (g && arm.hold.isNone) then s.stack k
          else (s.stack k).stgTouch (if g then ab - 64 else ab) (if g then 128 else 64)
        let u := arm.n % 64
        if arm.d.sealed && arm.d.aop ≠ 0 && u = 0 && st.stgSeal ab g ≠ st.side (ab + 4032) then
          s.sealMismatch tid (stgFaultAddr off)
        else match armLand arm st ab f with
          | none => addPoison tid k (if g then off - 64 else off) (s.setStack k st)
          | some (st1, cov, hold) =>
            let crc := crcStep (if u = 0 then 0xFFFFFFFF else arm.crc) cov
            let last := arm.d.sealed && u = 63
            if last && crcEnd crc ≠ f.aux then (s0.setStack k st1).sealMismatch tid (stgFaultAddr (off - 4032))
            else
              let st2 := if last && arm.d.aop ≠ 0 then st1.setSide ab (st1.stgSeal (ab - 4032) g) else st1
              let s1 := s0.setStack k st2
              let a1 := s1.armLink tid
              if arm.n + 1 = arm.d.flits then (s1.setArmLink tid { a1 with ins := rest }).sendInc arm.d.obj 1 (.copies tid)
              else s1.setArmLink tid { a1 with ins := { arm with n := arm.n + 1, crc := crc, hold := hold } :: rest }
  | _, _ => s

end Sys2Proof.Machine
end

