-- ==== Sys2Proof/Machine/VecAlu.lean ====
section
/-!
DEFINITION. The vector ALU, reduction, prefix, set and merge words of slot B (Tables 4-6, 4-7; R127–R134, R575).
-/
namespace Sys2Proof.Machine

def isFpFmt (f : BitVec 4) : Bool := f = 1 || f = 3 || f = 4
def isIntF (f : BitVec 4) : Bool := f = 0 || f = 2 || f = 5
/-- The width of an element of FMT. -/
def wOf (f : BitVec 4) : Nat := fmtBits f.toNat

/-- New elements under a lane mask: an inactive element of the destination keeps its value (R83). -/
def maskRow (t : Tile) (vm : BitVec 5) (w : Nat) (dst : Row) (new : List Nat) : Row :=
  packRow w (((elems w dst).zip new).zipIdx.map (fun c => if active t vm w c.2 then c.1.2 else c.1.1))

/-- An element-wise word whose result list is a function of its three source registers. -/
def wVec (bad : Bool) (h : Hdr) (o : OpR) (f : List Nat → List Nat → List Nat → List Nat) : TileWord :=
  { bad := bad
    hdr := h
    vd := [o.rd]
    vr := [o.ra, o.rb, o.rc, o.vm]
    sk := true
    run := onTile fun old x =>
      let w := wOf o.fmt
      x.setV o.rd (maskRow old o.vm w (old.v o.rd)
        (f (elems w (old.v o.ra)) (elems w (old.v o.rb)) (elems w (old.v o.rc)))) }

/-- RM of a word that rounds: 0b000 or 0b001 on floats, 0b000 on integers (R575). -/
def okRm (o : OpR) : Bool := o.rm = 0 || (o.rm = 1 && isFpFmt o.fmt)

/-- One element of an arithmetic word: floats form the exact value and round by RM, integers wrap. -/
def arith2 (ff : Fx → Fx → Fx) (fi : Int → Int → Int) (fmt rm a b : Nat) : Nat :=
  match floatOf fmt with
  | some fl => roundF fl (rndOf rm 0) (ff (decodeF fl a) (decodeF fl b))
  | none => ofSigned (fmtBits fmt) (fi (toSigned (fmtBits fmt) a) (toSigned (fmtBits fmt) b))

/-- VADD, VSUB, VMUL. -/
def wVArith (ff : Fx → Fx → Fx) (fi : Int → Int → Int) (h : Hdr) (o : OpR) : TileWord :=
  wVec (!(o.fmt.toNat ≤ 5 && okRm o && o.rc = 0 && o.fn = 0)) h o
    (fun a b _ => (a.zip b).map (fun c => arith2 ff fi o.fmt.toNat o.rm.toNat c.1 c.2))

def wVfma (h : Hdr) (o : OpR) : TileWord :=
  wVec (!(isFpFmt o.fmt && okRm o && o.fn = 0)) h o
    (fun a b c => ((a.zip b).zip c).map (fun e =>
      toElem o.fmt.toNat (rndOf o.rm.toNat 0)
        (((elemFx o.fmt.toNat e.1.1).mul (elemFx o.fmt.toNat e.1.2)).add (elemFx o.fmt.toNat e.2))))

/-- VMIN and VMAX: integers signed, floats minimumNumber and maximumNumber. -/
def wVMinMax (f : Fx → Fx → Fx) (h : Hdr) (o : OpR) : TileWord :=
  wVec (!(o.fmt.toNat ≤ 5 && o.rm = 0 && o.rc = 0 && o.fn = 0)) h o
    (fun a b _ => (a.zip b).map (fun c =>
      toElem o.fmt.toNat .rne (f (elemFx o.fmt.toNat c.1) (elemFx o.fmt.toNat c.2))))

/-- VABS and VNEG: integers wrap at the minimum, a NaN gives the canonical NaN (R109). -/
def wVUnary (ff : Fx → Fx) (fi : Int → Int) (h : Hdr) (o : OpR) : TileWord :=
  wVec (!(o.fmt.toNat ≤ 5 && o.rm = 0 && o.rb = 0 && o.rc = 0 && o.fn = 0)) h o
    (fun a _ _ => a.map (fun e =>
      match floatOf o.fmt.toNat with
      | some fl => roundF fl .rne (ff (decodeF fl e))
      | none => ofSigned (wOf o.fmt) (fi (toSigned (wOf o.fmt) e))))

/-- VAND, VOR, VXOR. -/
def wVBit (f : Nat → Nat → Nat) (h : Hdr) (o : OpR) : TileWord :=
  wVec (!(isIntF o.fmt && o.rm = 0 && o.rc = 0 && o.fn = 0)) h o
    (fun a b _ => (a.zip b).map (fun c => f c.1 c.2))

/-- VSHL, VSHR, VSAR: by vb[j] modulo w, or with FN[15] = 1 by FN[4:0] modulo w with RB 0. -/
def wVShift (f : Nat → Nat → Nat → Nat) (h : Hdr) (o : OpR) : TileWord :=
  let imm := o.fn.getLsbD 15
  wVec (!(isIntF o.fmt && o.rm = 0 && o.rc = 0
      && (if imm then o.rb = 0 && bits o.fn.toNat 14 5 = 0 else o.fn = 0))) h o
    (fun a b _ => (a.zip b).map (fun c =>
      f (wOf o.fmt) c.1 ((if imm then o.fn.toNat % 32 else c.2) % wOf o.fmt)))

def shlE (w a n : Nat) : Nat := (a <<< n) % 2 ^ w
def shrE (_w a n : Nat) : Nat := a >>> n
def sarE (w a n : Nat) : Nat := ofSigned w (toSigned w a / 2 ^ n)

/-- VCEQ, VCLT, VCLE: all ones where the relation holds, else 0. -/
def wVCmp (r : VRel) (h : Hdr) (o : OpR) : TileWord :=
  wVec (!(o.fmt.toNat ≤ 5 && o.rm = 0 && o.rc = 0 && o.fn = 0)) h o
    (fun a b _ => (a.zip b).map (fun c => if r.holds o.fmt.toNat c.1 c.2 then 2 ^ wOf o.fmt - 1 else 0))

def wVsel (h : Hdr) (o : OpR) : TileWord :=
  wVec (!(o.fmt.toNat ≤ 5 && o.rm = 0 && o.fn = 0)) h o
    (fun a b c => ((a.zip b).zip c).map (fun e => if e.2 % 2 = 1 then e.1.1 else e.1.2))

/-- VEXP, VRCP, VRSQ: the exact value rounded once, nearest-even (R127). -/
def wVFun (f : Fx → Fx) (h : Hdr) (o : OpR) : TileWord :=
  wVec (!(isFpFmt o.fmt && o.rm = 0 && o.rb = 0 && o.rc = 0 && o.fn = 0)) h o
    (fun a _ _ => a.map (fun e => toElem o.fmt.toNat .rne (f (elemFx o.fmt.toNat e))))

def wVmov (h : Hdr) (o : OpR) : TileWord :=
  wVec (!(o.fmt.toNat ≤ 5 && o.rm = 0 && o.rb = 0 && o.rc = 0 && o.fn = 0)) h o (fun a _ _ => a)

/-- VBCG broadcasts the low w bits of g[RA]; the sentinel does not sample it (R512). -/
def wVbcg (h : Hdr) (o : OpR) : TileWord :=
  { bad := !(o.fmt.toNat ≤ 5 && o.rm = 0 && o.rb = 0 && o.rc = 0 && o.fn = 0)
    hdr := h
    vd := [o.rd]
    vr := [o.vm]
    run := onTile fun old x =>
      let w := wOf o.fmt
      x.setV o.rd (maskRow old o.vm w (old.v o.rd) (List.replicate (1024 / w) ((old.g o.ra).toNat % 2 ^ w))) }

/-- VEXTG: 32-bit lane FN[4:0], sign-extended for FMT 0x0 and zero-extended for 0x1. -/
def wVextg (h : Hdr) (o : OpR) : TileWord :=
  { bad := !((o.fmt = 0 || o.fmt = 1) && o.rm = 0 && o.vm = 0 && o.rb = 0 && o.rc = 0 && o.fn.toNat < 32)
    hdr := h
    gd := [o.rd]
    vr := [o.ra]
    run := onTile fun old x =>
      let e : BitVec 32 := (old.v o.ra).extractLsb' (32 * (o.fn.toNat % 32)) 32
      x.setG o.rd (if o.fmt = 0 then e.signExtend 64 else e.zeroExtend 64) }

def wVperm (h : Hdr) (o : OpR) : TileWord :=
  wVec (!(o.fmt.toNat ≤ 5 && o.rm = 0 && o.rc = 0 && o.fn = 0)) h o
    (fun a b _ => b.map (fun i => a.getD (i % a.length) 0))

/-! ### Reductions and the segmented prefix (R128–R131) -/

/-- A word of MAJ 0x11 that writes a whole register from one source. -/
def wRed (bad : Bool) (h : Hdr) (o : OpR) (f : List Nat → Row) : TileWord :=
  { bad := bad
    hdr := h
    vd := [o.rd]
    vr := [o.ra]
    sk := true
    run := onTile fun old x => x.setV o.rd (f (elems (wOf o.fmt) (old.v o.ra))) }

/-- The pairwise sum of R129: floats widened exactly to FP32 and rounded to FP32 by RM at every addition, integers
sign-extended to 32 bits and wrapping. -/
def pairSum (fmt rm : Nat) (l : List Nat) : Nat :=
  if isIntFmt fmt then
    tree 0 (fun a b => (a + b) % 2 ^ 32) (l.map (fun e => ofSigned 32 (toSigned (fmtBits fmt) e)))
  else
    tree 0 (fun a b => roundF fp32 (rndOf rm 0) ((f32 a).add (f32 b))) (l.map (fun e => r32 (elemFx fmt e)))

def wVrsum (h : Hdr) (o : OpR) : TileWord :=
  wRed (!(o.fmt.toNat ≤ 5 && okRm o && o.vm = 0 && o.rb = 0 && o.rc = 0 && o.fn = 0)) h o
    (fun l => BitVec.ofNat 1024 (pairSum o.fmt.toNat o.rm.toNat l))

/-- VRMAX and VRMIN: the extreme element to element 0, zero elsewhere (R130). -/
def wVrext (f : Fx → Fx → Fx) (h : Hdr) (o : OpR) : TileWord :=
  wRed (!(o.fmt.toNat ≤ 5 && o.rm = 0 && o.vm = 0 && o.rb = 0 && o.rc = 0 && o.fn = 0)) h o
    (fun l => BitVec.ofNat 1024 (toElem o.fmt.toNat .rne
      ((l.map (elemFx o.fmt.toNat)).foldl f .nan)))

/-- The running result of a segmented scan: pairs of element and segment start. -/
def scanGo (f : Nat → Nat → Nat) (first : Nat → Nat) : Option Nat → List (Nat × Bool) → List Nat
  | _, [] => []
  | acc, (e, start) :: r =>
    let v := match acc with
      | some a => if start then first e else f a e
      | none => first e
    v :: scanGo f first (some v) r

/-- VSCAN and VSCANMAX (R131): element j starts a segment when bit w·j of v[RC] is 1. -/
def wVscan (ok : Bool) (f : Nat → Nat → Nat) (h : Hdr) (o : OpR) : TileWord :=
  { bad := !(o.fmt.toNat ≤ 5 && ok && o.vm = 0 && o.rb = 0 && o.fn = 0)
    hdr := h
    vd := [o.rd]
    vr := [o.ra, o.rc]
    sk := true
    run := onTile fun old x =>
      let w := wOf o.fmt
      let marks := (List.range (1024 / w)).map (fun j => (old.v o.rc).getLsbD (w * j))
      x.setV o.rd (packRow w
        (scanGo f (fun e => toElem o.fmt.toNat .rne (elemFx o.fmt.toNat e)) none
          ((elems w (old.v o.ra)).zip marks))) }

/-! ### Set and merge (R132, R133) -/

/-- The end sentinel of width `w`. -/
def sentinel (w : Nat) : Nat := 2 ^ w - 1

def present (w : Nat) (l : List Nat) : List Nat := l.filter (· ≠ sentinel w)

/-- Pad a list of keys with sentinels to `n` elements. -/
def padTo (w n : Nat) (l : List Nat) : List Nat := l ++ List.replicate (n - l.length) (sentinel w)

/-- Ascending, sentinels last. -/
def sortedKeys : List Nat → Bool
  | a :: b :: r => a ≤ b && sortedKeys (b :: r)
  | _ => true

/-- Merge two ascending lists; fuel is their total length. -/
def mergeKeys : Nat → List Nat → List Nat → List Nat
  | 0, a, b => a ++ b
  | _ + 1, [], b => b
  | _ + 1, a, [] => a
  | n + 1, x :: a, y :: b => if x ≤ y then x :: mergeKeys n a (y :: b) else y :: mergeKeys n (x :: a) b

/-- Each run of equal keys reduced to one. -/
def dedupRuns : List Nat → List Nat
  | a :: b :: r => if a = b then dedupRuns (b :: r) else a :: dedupRuns (b :: r)
  | l => l

/-- Insert a keyed element after the elements of equal key (a stable sort). -/
def insertKey (x : Nat × Nat) : List (Nat × Nat) → List (Nat × Nat)
  | [] => [x]
  | y :: r => if x.1 < y.1 then x :: y :: r else y :: insertKey x r

def sortKeys (l : List (Nat × Nat)) : List (Nat × Nat) := l.foldl (fun acc x => insertKey x acc) []

/-- FMT and the fields of MAJ 0x14 (R132). -/
def okSet (o : OpR) : Bool := (o.fmt = 0 || o.fmt = 2) && o.rm = 0 && o.vm = 0 && o.rc = 0 && o.fn = 0

/-- A one-result set word; an unsorted input leaves an unstated result (R133). -/
def wSet (op : Nat) (bad : Bool) (useB : Bool) (h : Hdr) (o : OpR) (f : List Nat → List Nat → List Nat) : TileWord :=
  { bad := bad
    hdr := h
    vd := [o.rd]
    vr := [o.ra, o.rb]
    sk := true
    run := onTile fun old x =>
      let w := wOf o.fmt
      let a := elems w (old.v o.ra)
      let b := elems w (old.v o.rb)
      x.setV o.rd
        (if sortedKeys a && (!useB || sortedKeys b) then
          packRow w (padTo w (1024 / w) (f (present w a) (present w b)))
        else Config.unsortedMerge op o.fmt.toNat (old.v o.ra) (old.v o.rb) 0) }

def wVisect (h : Hdr) (o : OpR) : TileWord :=
  wSet 1 (!okSet o) true h o (fun a b => a.filter (fun e => b.contains e))

def wVdiff (h : Hdr) (o : OpR) : TileWord :=
  wSet 2 (!okSet o) true h o (fun a b => a.filter (fun e => !b.contains e))

def wVdedup (h : Hdr) (o : OpR) : TileWord :=
  wSet 3 (!(okSet o && o.rb = 0)) false h o (fun a _ => dedupRuns a)

def wVmerge (h : Hdr) (o : OpR) : TileWord :=
  { bad := !(okSet o && o.rd.toNat % 2 = 0)
    hdr := h
    vd := [o.rd, o.rd + 1]
    vr := [o.ra, o.rb]
    sk := true
    run := onTile fun old x =>
      let w := wOf o.fmt
      let n := 1024 / w
      let a := elems w (old.v o.ra)
      let b := elems w (old.v o.rb)
      if sortedKeys a && sortedKeys b then
        let m := padTo w (2 * n) (mergeKeys (2 * n) (present w a) (present w b))
        (x.setV o.rd (packRow w (m.take n))).setV (o.rd + 1) (packRow w (m.drop n))
      else
        (x.setV o.rd (Config.unsortedMerge 0 o.fmt.toNat (old.v o.ra) (old.v o.rb) 0)).setV (o.rd + 1)
          (Config.unsortedMerge 0 o.fmt.toNat (old.v o.ra) (old.v o.rb) 1) }

def wVsort (h : Hdr) (o : OpR) : TileWord :=
  { bad := !(okSet o && (o.rb = 0 || o.rd.toNat % 2 = 0))
    hdr := h
    vd := if o.rb = 0 then [o.rd] else [o.rd, o.rd + 1]
    vr := [o.ra, o.rb]
    sk := true
    run := onTile fun old x =>
      let w := wOf o.fmt
      let m := sortKeys ((elems w (old.v o.ra)).zip (elems w (old.v o.rb)))
      let x1 := x.setV o.rd (packRow w (m.map (·.1)))
      if o.rb = 0 then x1 else x1.setV (o.rd + 1) (packRow w (m.map (·.2))) }

end Sys2Proof.Machine
end

