-- ==== Sys2Proof/Machine/Convert.lean ====
section
/-!
DEFINITION. Conversion, the MX shared scale, the Welford words (R139–R146) and the random words of slot A (R124–R126,
R381, R382, R388–R390).
-/
namespace Sys2Proof.Machine

/-! ### The tile generators -/

/-- `n` outputs of a generator from its counter on, first output first. -/
def Gen.outs (g : Gen) (n : Nat) : List Nat :=
  (List.range n).map (fun i => genOut g.isWax g.key (g.ctr + BitVec.ofNat 128 i))

/-- Take `n` outputs of the vector-unit generator: the counter advances, and an output in Wax mode is noted (R390). -/
def Tile.drawVu (x : Tile) (n : Nat) : Tile :=
  { x with
    vu := { x.vu with ctr := x.vu.ctr + BitVec.ofNat 128 n }
    waxUsed := x.waxUsed || (x.vu.isWax && n ≠ 0) }

/-- RKEY's new generator: the derived key in KCB mode, the salt in Wax mode (R381, R388). -/
def rekeyGen (g : Gen) (isWax : Bool) (a b : Word) : Gen :=
  { g with
    key := if isWax then BitVec.ofNat 128 (a.toNat + b.toNat * 2 ^ 64) else deriveKey a.toNat b.toNat
    isWax := isWax
    keyed := true }

/-- A drain-generator word holds until every older matrix and accumulator word has started (R206). -/
def queueStarted (tid : TileId) (s : State) : Bool := (s.tile tid).queue.all (fun e => e.started)

def wRkey (h : Hdr) (o : OpR) : TileWord :=
  let drain := o.fn.getLsbD 0
  let isWax := o.fn.getLsbD 1
  { bad := !(o.rd = 0 && o.rc = 0 && o.fmt = 0 && o.rm = 0 && o.vm = 0 && o.fn.toNat < 4)
    hdr := h
    ready := fun tid s => !drain || queueStarted tid s
    run := onTile fun old x =>
      if drain then { x with dr := rekeyGen x.dr isWax (old.g o.ra) (old.g o.rb) }
      else { x with vuNext := some (rekeyGen x.vu isWax (old.g o.ra) (old.g o.rb)) }
    post := fun x => match x.vuNext with
      | some g => { x with vu := { g with ctr := x.vu.ctr }, vuNext := none }
      | none => x }

def wRctr (h : Hdr) (o : OpR) : TileWord :=
  let drain := o.fn.getLsbD 0
  { bad := !(o.rd = 0 && o.rc = 0 && o.fmt = 0 && o.rm = 0 && o.vm = 0 && o.fn.toNat < 2)
    hdr := h
    ready := fun tid s => !drain || queueStarted tid s
    run := onTile fun old x =>
      let c := BitVec.ofNat 128 ((old.g o.ra).toNat + (old.g o.rb).toNat * 2 ^ 64)
      if drain then { x with dr := { x.dr with ctr := c } }
      else { x with vuNext := some { x.vu with ctr := c } }
    post := fun x => match x.vuNext with
      | some g => { x with vu := g, vuNext := none }
      | none => x }

def wRdraw (h : Hdr) (o : OpR) : TileWord :=
  { bad := !(o.ra = 0 && o.rb = 0 && o.rc = 0 && o.fmt = 0 && o.rm = 0 && o.vm = 0 && o.fn = 0
      && o.rd.toNat % 2 = 0)
    hdr := h
    gd := [o.rd, o.rd + 1]
    run := onTile fun _ x =>
      let out := genOut x.vu.isWax x.vu.key x.vu.ctr
      ((x.setG o.rd (BitVec.ofNat 64 out)).setG (o.rd + 1) (BitVec.ofNat 64 (out / 2 ^ 64))).drawVu 1 }

def wRdrawv (h : Hdr) (o : OpR) : TileWord :=
  let eight := o.fn.getLsbD 3
  { bad := !(o.ra = 0 && o.rb = 0 && o.rc = 0 && o.fmt = 0 && o.rm = 0 && o.vm = 0 && o.fn.toNat < 16
      && (!eight || o.fn.toNat % 8 = 0))
    hdr := h
    vd := [o.rd]
    run := onTile fun old x =>
      if eight then (x.setV o.rd (packRow 128 (x.vu.outs 8))).drawVu 8
      else
        let q := o.fn.toNat % 8
        (x.setV o.rd (packRow 128 ((elems 128 (old.v o.rd)).set q (genOut x.vu.isWax x.vu.key x.vu.ctr)))).drawVu 1 }

/-! ### VCVT (R139–R143) -/

/-- Rounding of source element `j` of a word with RM, given the outputs drawn, one for each 32 elements (R142). -/
def elemRnd (rm : Nat) (outs : List Nat) (j : Nat) : Rnd := rndOf rm (rndBits rm (outs.getD (j / 32) 0) j)

/-- Whether RM draws random bits. -/
def isSto (rm : Nat) : Bool := rm == 2 || rm == 3

/-- Value of an element of an MX group with its E8M0 scale; a scale of 0xFF makes it NaN. -/
def mxValue (fmt scale c : Nat) : Fx :=
  if scale = 0xFF then .nan else (elemFx fmt c).scale ((scale : Int) - 127)

/-- An element of an MX group: divide by the scale and round; 0x00 under a scale of 0xFF (R140, R143). -/
def toMx (fmt scale : Nat) (rm : Rnd) (x : Fx) : Nat :=
  if scale = 0xFF then 0 else toElem fmt rm (x.scale (127 - (scale : Int)))

/-- The destination element list of a VCVT as (index, value) pairs: source FMT, destination FMT, part, RM, E8M0
scale, source register, outputs drawn. -/
def cvtElems (sf df q rm scale : Nat) (src : Row) (outs : List Nat) : List (Nat × Nat) :=
  let sw := fmtBits sf
  let dw := fmtBits df
  let se := elems sw src
  if isMx df then
    (List.range 32).map (fun j => (32 * q + j, toMx df scale (elemRnd rm outs j) (elemFx sf (se.getD j 0))))
  else if isMx sf then
    (List.range 32).map (fun j =>
      (j, toElem df (elemRnd rm outs j) (mxValue sf scale ((src.toNat >>> (32 * sw * q + sw * j)) % 2 ^ sw))))
  else if dw < sw then
    (List.range (1024 / sw)).map (fun i =>
      (1024 / sw * q + i, toElem df (elemRnd rm outs i) (elemFx sf (se.getD i 0))))
  else
    (List.range (1024 / dw)).map (fun i =>
      (i, toElem df (elemRnd rm outs i) (elemFx sf (se.getD (1024 / dw * q + i) 0))))

/-- Number of source elements converted. -/
def cvtCount (sf df : Nat) : Nat :=
  if isMx sf || isMx df then 32 else 1024 / max (fmtBits sf) (fmtBits df)

/-- Write element `j` of width `w` of a register. -/
def setElem (w : Nat) (r : Row) (j v : Nat) : Row :=
  let m : Row := BitVec.ofNat 1024 ((2 ^ w - 1) <<< (w * j))
  (r &&& ~~~m) ||| BitVec.ofNat 1024 ((v % 2 ^ w) <<< (w * j))

/-- The format and part rules of R139 and R140; a conversion between integers does not round and carries RM = 0 (R81), while one that
widens a float takes RM 0 to 3 although no value of it needs rounding. DEDUCED, unsafe: assumption 53. -/
def okCvt (o : OpR) : Bool :=
  let sf := o.fmt.toNat
  let df := o.fn.toNat % 16
  let q := bits o.fn.toNat 5 4
  let mx := isMx sf || isMx df
  ((sf ≤ 7 && df ≤ 7) || (isMx sf && df == 1) || (sf == 1 && isMx df))
    && o.fn.toNat < 64 && o.rm.toNat ≤ 3 && (!(isIntFmt sf && isIntFmt df) || o.rm = 0) && o.rc = 0 && (mx || o.rb = 0)
    && (if fmtBits sf = fmtBits df then q = 0
        else q * min (fmtBits sf) (fmtBits df) < max (fmtBits sf) (fmtBits df))

def wVcvt (h : Hdr) (o : OpR) : TileWord :=
  let sf := o.fmt.toNat
  let df := o.fn.toNat % 16
  let q := bits o.fn.toNat 5 4
  { bad := !okCvt o
    hdr := h
    vd := [o.rd]
    vr := [o.ra, o.rb, o.vm]
    sk := !isSto o.rm.toNat
    run := onTile fun old x =>
      let n := if isSto o.rm.toNat then cvtCount sf df / 32 else 0
      let l := cvtElems sf df q o.rm.toNat ((old.v o.rb).toNat % 256) (old.v o.ra) (x.vu.outs n)
      let w := fmtBits df
      let r := l.foldl (fun acc c => if active old o.vm w c.1 then setElem w acc c.1 c.2 else acc) (old.v o.rd)
      (x.setV o.rd r).drawVu n }

/-- emax of an MX format (R144). -/
def mxEmax (fmt : Nat) : Int :=
  match fmt with
  | 0x8 => 8
  | 0x9 => 15
  | 0xA => 2
  | 0xB => 4
  | _ => 2

/-- The largest finite magnitude of a list; a zero for none. -/
def maxMag (l : List Fx) : Fx := l.foldl (fun m x => if m.lt x.abs then x.abs else m) (.fin false 0 0)

/-- The E8M0 scale of R144 for FP32 values. -/
def mxScale (fmt : Nat) (l : List Fx) : Nat :=
  if l.any (fun x => match x with | .fin _ _ _ => false | _ => true) then 0xFF
  else
    let m := maxMag l
    if m.isZero then 127
    else (max 0 (min 254 (m.log2 - mxEmax fmt + 127))).toNat

def wVmxsc (h : Hdr) (o : OpR) : TileWord :=
  { bad := !(o.fmt = 1 && o.rm = 0 && o.vm = 0 && o.rb = 0 && o.rc = 0 && 8 ≤ o.fn.toNat && o.fn.toNat ≤ 0xC)
    hdr := h
    vd := [o.rd]
    vr := [o.ra]
    sk := true
    run := onTile fun old x =>
      x.setV o.rd (BitVec.ofNat 1024 (mxScale (o.fn.toNat % 16) ((elems 32 (old.v o.ra)).map f32))) }

/-! ### Welford (R145, R146) -/

/-- A Welford state of one lane: INT32 count, FP32 mean and M2. -/
structure Welf where
  n : Nat
  mean : Nat
  m2 : Nat
  deriving DecidableEq, Repr

/-- float(n) of an INT32 count. -/
def fcount (n : Nat) : Nat := r32 (.ofInt (toSigned 32 n))

def welfStep (a : Welf) (x : Nat) : Welf :=
  if a.n = 0x7FFFFFFF then a
  else
    let n1 := (a.n + 1) % 2 ^ 32
    let d := fsub32 x a.mean
    let mean := fadd32 a.mean (fdiv32 d (fcount n1))
    { n := n1, mean := mean, m2 := fadd32 a.m2 (fmul32 d (fsub32 x mean)) }

/-- The saturating sum of two counts. -/
def countAdd (a b : Nat) : Nat := ofSigned 32 (min 0x7FFFFFFF (toSigned 32 a + toSigned 32 b))

/-- A state with each NaN canonical (R109). -/
def Welf.canon (a : Welf) : Welf := { a with mean := r32 (f32 a.mean), m2 := r32 (f32 a.m2) }

/-- Merge state `b` into state `a` (R146). -/
def welfMerge (a b : Welf) : Welf :=
  if b.n = 0 then a.canon
  else if a.n = 0 then b.canon
  else
    let n := countAdd a.n b.n
    let d := fsub32 b.mean a.mean
    { n := n
      mean := fadd32 a.mean (fmul32 d (fdiv32 (fcount b.n) (fcount n)))
      m2 := fadd32 (fadd32 a.m2 b.m2)
        (fmul32 (fmul32 d d) (fdiv32 (fmul32 (fcount a.n) (fcount b.n)) (fcount n))) }

/-- The lanes of three registers as Welford states. DEDUCED, unsafe: assumption 14. -/
def welfLanes (t : Tile) (r : BitVec 5) : List Welf :=
  ((elems 32 (t.v r)).zip ((elems 32 (t.v (r + 1))).zip (elems 32 (t.v (r + 2))))).map
    (fun c => ⟨c.1, c.2.1, c.2.2⟩)

/-- Write Welford states under a lane mask. -/
def setWelf (old : Tile) (vm r : BitVec 5) (l : List Welf) (x : Tile) : Tile :=
  ((x.setV r (maskRow old vm 32 (old.v r) (l.map (·.n)))).setV (r + 1)
    (maskRow old vm 32 (old.v (r + 1)) (l.map (·.mean)))).setV (r + 2)
    (maskRow old vm 32 (old.v (r + 2)) (l.map (·.m2)))

def wWelf (h : Hdr) (o : OpR) : TileWord :=
  { bad := !(o.fmt = 1 && o.rm = 0 && o.rb = 0 && o.rc = 0 && o.fn = 0 && o.rd.toNat ≤ 29)
    hdr := h
    vd := [o.rd, o.rd + 1, o.rd + 2]
    vr := [o.ra, o.vm]
    sk := true
    run := onTile fun old x =>
      setWelf old o.vm o.rd
        (((welfLanes old o.rd).zip (elems 32 (old.v o.ra))).map (fun c => welfStep c.1 c.2)) x }

def wWelfm (h : Hdr) (o : OpR) : TileWord :=
  let acrossLanes := o.fn.getLsbD 0
  { bad := !(o.fmt = 1 && o.rm = 0 && o.rb = 0 && o.rc = 0 && o.fn.toNat < 2 && o.rd.toNat ≤ 29
      && o.ra.toNat ≤ 29 && (!acrossLanes || o.vm = 0))
    hdr := h
    vd := [o.rd, o.rd + 1, o.rd + 2]
    vr := [o.ra, o.ra + 1, o.ra + 2, o.vm]
    sk := true
    run := onTile fun old x =>
      if acrossLanes then
        let m := tree ⟨0, 0, 0⟩ welfMerge (welfLanes old o.ra)
        ((x.setV o.rd (BitVec.ofNat 1024 m.n)).setV (o.rd + 1) (BitVec.ofNat 1024 m.mean)).setV (o.rd + 2)
          (BitVec.ofNat 1024 m.m2)
      else
        setWelf old o.vm o.rd
          (((welfLanes old o.rd).zip (welfLanes old o.ra)).map (fun c => welfMerge c.1 c.2)) x }

end Sys2Proof.Machine
end

