-- ==== Sys2Proof/Machine/Scalar.lean ====
section
/-!
DEFINITION. The scalar ALU, immediate, compare, predicate, load, store and branch words of slot A (Tables 4-2, 4-3;
R88, R110–R113).
-/
namespace Sys2Proof.Machine

/-! ### Scalar ALU (Table 4-2) -/

/-- A scalar result at the width FMT gives: 64 bits with 0xF, the low 32 bits sign-extended with 0x0. -/
def atWidth (fmt : BitVec 4) (f : (w : Nat) → BitVec w → BitVec w → BitVec w) (a b : Word) : Word :=
  if fmt = 0xF then f 64 a b else (f 32 (a.truncate 32) (b.truncate 32)).signExtend 64

def aluAdd (w : Nat) (a b : BitVec w) : BitVec w := a + b
def aluSub (w : Nat) (a b : BitVec w) : BitVec w := a - b
def aluAnd (w : Nat) (a b : BitVec w) : BitVec w := a &&& b
def aluOr (w : Nat) (a b : BitVec w) : BitVec w := a ||| b
def aluXor (w : Nat) (a b : BitVec w) : BitVec w := a ^^^ b
def aluAndn (w : Nat) (a b : BitVec w) : BitVec w := a &&& ~~~b
/-- Shift amounts are modulo the width (Table 4-2). -/
def aluShl (w : Nat) (a b : BitVec w) : BitVec w := a <<< (b.toNat % w)
def aluShr (w : Nat) (a b : BitVec w) : BitVec w := a >>> (b.toNat % w)
def aluSar (w : Nat) (a b : BitVec w) : BitVec w := a.sshiftRight (b.toNat % w)
def aluRol (w : Nat) (a b : BitVec w) : BitVec w := a.rotateLeft (b.toNat % w)
def aluMul (w : Nat) (a b : BitVec w) : BitVec w := a * b
def aluMulhu (w : Nat) (a b : BitVec w) : BitVec w := BitVec.ofNat w ((a.toNat * b.toNat) >>> w)
def aluMulhs (w : Nat) (a b : BitVec w) : BitVec w := BitVec.ofInt w ((a.toInt * b.toInt) / 2 ^ w)
def aluMin (w : Nat) (a b : BitVec w) : BitVec w := if a.slt b then a else b
def aluMax (w : Nat) (a b : BitVec w) : BitVec w := if a.slt b then b else a
def aluMinu (w : Nat) (a b : BitVec w) : BitVec w := if a.ult b then a else b
def aluMaxu (w : Nat) (a b : BitVec w) : BitVec w := if a.ult b then b else a
/-- Leading zeros; of 0, the width. -/
def aluClz (w : Nat) (a _b : BitVec w) : BitVec w :=
  BitVec.ofNat w (if a.toNat = 0 then w else w - 1 - Nat.log2 a.toNat)
/-- Trailing zeros; of 0, the width. -/
def aluCtz (w : Nat) (a _b : BitVec w) : BitVec w :=
  BitVec.ofNat w (((List.range w).find? (fun i => a.getLsbD i)).getD w)
def aluPopc (w : Nat) (a _b : BitVec w) : BitVec w :=
  BitVec.ofNat w (((List.range w).filter (fun i => a.getLsbD i)).length)

/-- The reserved and unused fields of a slot-A R word: RM and VM are zero and FMT is 0x0 or 0xF (Table 3-4). -/
def okA (o : OpR) : Bool := o.rm = 0 && o.vm = 0 && (o.fmt = 0 || o.fmt = 0xF)

/-- A three-register ALU word. -/
def wAlu (f : (w : Nat) → BitVec w → BitVec w → BitVec w) (h : Hdr) (o : OpR) : TileWord :=
  { bad := !(okA o && o.rc = 0 && o.fn = 0)
    hdr := h
    gd := [o.rd]
    run := onTile fun old x => x.setG o.rd (atWidth o.fmt f (old.g o.ra) (old.g o.rb)) }

/-- A two-register ALU word: RB is unused. -/
def wAlu1 (f : (w : Nat) → BitVec w → BitVec w → BitVec w) (h : Hdr) (o : OpR) : TileWord :=
  { wAlu f h o with bad := (wAlu f h o).bad || o.rb ≠ 0 }

/-- A product word whose FMT must be 0xF (Table 4-2). -/
def wAluH (f : (w : Nat) → BitVec w → BitVec w → BitVec w) (h : Hdr) (o : OpR) : TileWord :=
  { wAlu f h o with bad := (wAlu f h o).bad || o.fmt ≠ 0xF }

/-- SEL: the predicate is FN[2:0] (Table 4-2). -/
def wSel (h : Hdr) (o : OpR) : TileWord :=
  { bad := !(okA o && o.rc = 0 && o.fn.toNat < 8)
    hdr := h
    gd := [o.rd]
    run := onTile fun old x =>
      x.setG o.rd (atWidth o.fmt (fun _ a b => if old.p (o.fn.truncate 3) then a else b)
        (old.g o.ra) (old.g o.rb)) }

/-- The reserved fields of an I word (Table 3-5): SH 0b11 is reserved and bits [35:32] are zero. -/
def okI (o : OpI) : Bool := o.sh ≠ 3 && o.res = 0

/-- An immediate ALU word computes on 64-bit values. -/
def wAluI (f : (w : Nat) → BitVec w → BitVec w → BitVec w) (h : Hdr) (o : OpI) : TileWord :=
  { bad := !okI o
    hdr := h
    gd := [o.rd]
    run := onTile fun old x => x.setG o.rd (f 64 (old.g o.ra) (immOf o)) }

/-! ### Compares and predicates (R111, R112) -/

def wCmp (r : Rel) (h : Hdr) (o : OpR) : TileWord :=
  { bad := !(okA o && o.rc = 0 && o.fn = 0 && o.rd.toNat < 8)
    hdr := h
    run := onTile fun old x => x.setP (o.rd.truncate 3) (r.at o.fmt (old.g o.ra) (old.g o.rb)) }

def wCmpI (r : Rel) (h : Hdr) (o : OpI) : TileWord :=
  { bad := !(okI o && o.rd.toNat < 8)
    hdr := h
    run := onTile fun old x => x.setP (o.rd.truncate 3) (r.holds (old.g o.ra) (immOf o)) }

/-- The unused fields of a predicate word: FMT is not used and must be zero (R81). -/
def okP (o : OpR) : Bool := o.rc = 0 && o.fmt = 0 && o.rm = 0 && o.vm = 0 && o.fn = 0

def wPred (f : Bool → Bool → Bool) (h : Hdr) (o : OpR) : TileWord :=
  { bad := !(okP o && o.rd.toNat < 8 && o.ra.toNat < 8 && o.rb.toNat < 8)
    hdr := h
    run := onTile fun old x =>
      x.setP (o.rd.truncate 3) (f (old.p (o.ra.truncate 3)) (old.p (o.rb.truncate 3))) }

def wPmov (h : Hdr) (o : OpR) : TileWord :=
  { bad := !(okP o && o.rb = 0 && o.rd.toNat < 8)
    hdr := h
    run := onTile fun old x => x.setP (o.rd.truncate 3) ((old.g o.ra).getLsbD 0) }

def wPget (h : Hdr) (o : OpR) : TileWord :=
  { bad := !(okP o && o.rb = 0 && o.ra.toNat < 8)
    hdr := h
    gd := [o.rd]
    run := onTile fun old x => x.setG o.rd (if old.p (o.ra.truncate 3) then 1 else 0) }

/-! ### Scalar loads and stores (R113) -/

/-- The formats and fields of a slot-A memory word (R85). -/
def okMA (o : OpM) : Bool :=
  o.mode = 0 && o.stride = 0 && o.vm = 0 && (o.fmt = 0 || o.fmt = 2 || o.fmt = 5 || o.fmt = 0xF)

/-- The address check of a scalar access (R84). -/
def scalarCheck (o : OpM) (old : Tile) : List (Nat × Nat) :=
  let a := elemAddr o old 0
  if badElem (memSize o.fmt) a then [(tileADDR, a)] else []

def wLoad (signed : Bool) (h : Hdr) (o : OpM) : TileWord :=
  { bad := !okMA o
    hdr := h
    gd := [o.rt]
    reads := fun old => [(elemAddr o old 0, memSize o.fmt)]
    check := fun _ old _ => scalarCheck o old
    run := onTile fun old x =>
      let n := readLE x.shelf (elemAddr o old 0) (memSize o.fmt)
      x.setG o.rt (if signed then BitVec.ofInt 64 (toSigned (8 * memSize o.fmt) n) else BitVec.ofNat 64 n) }

/-- Store bytes for the program: a store into an open ring's free space leaves undefined words there (R48). -/
def storeProg (tid : TileId) (l : List (Nat × Byte)) (s : State) : State :=
  let x := (s.tile tid).put l
  let ws := ((l.map (·.1 / 8)).dedup).filter x.inRingFree
  if ws = [] then s.setTile tid x
  else { s.setTile tid (x.scramble tid s.undef ws) with undef := s.undef + 1 }

def wStore (h : Hdr) (o : OpM) : TileWord :=
  { bad := !okMA o
    hdr := h
    stores := fun old => (List.range (memSize o.fmt)).map (elemAddr o old 0 + ·)
    check := fun _ old _ => scalarCheck o old
    run := fun tid old s =>
      storeProg tid (at' (elemAddr o old 0) (leBytes (memSize o.fmt) (old.g o.rt).toNat)) s }

/-! ### Branches (R88, R104, R105) -/

/-- A branch target outside Shelf N, or one that is not a multiple of 16, faults when the branch is taken (R105). -/
def badTarget (a : Nat) : Bool := 0x100000 ≤ a || a % 16 ≠ 0

def branchCheck (t : Option Nat) : List (Nat × Nat) :=
  match t with
  | some a => if badTarget a then [(tileADDR, a)] else []
  | none => []

/-- PC + 16 × IMM, with IMM signed (R88); the address arithmetic is that of 64-bit g registers. -/
def relTarget (o : OpI) (old : Tile) : Nat :=
  (old.pc.zeroExtend 64 + BitVec.ofInt 64 (16 * o.imm.toInt)).toNat

def wBranch (h : Hdr) (o : OpI) : TileWord :=
  { bad := !(o.rd = 0 && o.ra = 0 && o.sh = 0 && o.res = 0)
    hdr := h
    check := fun _ old _ => branchCheck (some (relTarget o old))
    target := fun old => some (relTarget o old) }

def wBl (h : Hdr) (o : OpI) : TileWord :=
  { bad := !(o.ra = 0 && o.sh = 0 && o.res = 0)
    hdr := h
    gd := [o.rd]
    check := fun _ old _ => branchCheck (some (relTarget o old))
    run := onTile fun old x => x.setG o.rd (BitVec.ofNat 64 (old.pc.toNat + 16))
    target := fun old => some (relTarget o old) }

def wJr (h : Hdr) (o : OpI) : TileWord :=
  { bad := !(o.rd = 0 && o.imm = 0 && o.sh = 0 && o.res = 0)
    hdr := h
    check := fun _ old _ => branchCheck (some (old.g o.ra).toNat)
    target := fun old => some (old.g o.ra).toNat }

/-- Whether DBNZ branches: the decremented g[RA] is not zero; g0 reads as zero and decrements to 2^64 − 1. -/
def dbnzTarget (o : OpI) (old : Tile) : Option Nat :=
  if old.g o.ra - 1 ≠ 0 then some (relTarget o old) else none

def wDbnz (h : Hdr) (o : OpI) : TileWord :=
  { bad := !(o.rd = 0 && o.sh = 0 && o.res = 0)
    hdr := h
    gd := [o.ra]
    check := fun _ old _ => branchCheck (dbnzTarget o old)
    run := onTile fun old x => x.setG o.ra (old.g o.ra - 1)
    target := fun old => dbnzTarget o old }

/-! ### Control (Table 4-3) -/

/-- Whether every older shelf write of the tile has completed: no drain waits in the command queue (R46, R100, R106). -/
def Tile.stored (x : Tile) : Bool := !x.queue.any (fun e => e.op = .adrain)

/-- IFLUSH holds until every older shelf write has completed and empties every line; the bundle's own line is fetched again when
the next bundle issues (R106). -/
def wIflush (h : Hdr) (o : OpI) : TileWord :=
  { bad := !(o.rd = 0 && o.ra = 0 && o.sh = 0 && o.res = 0 && o.imm = 0)
    hdr := h
    ready := fun tid s => (s.tile tid).stored
    run := onTile fun _ x => { x with ibuf := [] } }

/-- FENCE holds until every older shelf write has completed and every older send has its result (R100). -/
def wFence (h : Hdr) (o : OpI) : TileWord :=
  { bad := !(o.rd = 0 && o.ra = 0 && o.sh = 0 && o.res = 0 && o.imm = 0)
    hdr := h
    ready := fun tid s => (s.tile tid).sends = [] && (s.tile tid).stored }

def wTstamp (h : Hdr) (o : OpI) : TileWord :=
  { bad := !(o.ra = 0 && o.sh = 0 && o.res = 0 && o.imm = 0)
    hdr := h
    gd := [o.rd]
    run := fun tid _ s => s.modTile tid (fun x => x.setG o.rd s.time) }

def wBeats (h : Hdr) (o : OpI) : TileWord :=
  { bad := !(o.ra = 0 && o.sh = 0 && o.res = 0 && o.imm = 0)
    hdr := h
    gd := [o.rd]
    run := fun tid _ s => s.modTile tid (fun x => x.setG o.rd (BitVec.ofNat 64 (s.beats tid))) }

end Sys2Proof.Machine
end

