-- ==== Sys2Proof/Machine/Mxa.lean ====
section
/-!
DEFINITION. The matrix array and the accumulators (Chapters 5 and 6): the words that enter the command queue, and the
steps of the queue, the feeders, the array and the add stage.
-/
namespace Sys2Proof.Machine

/-! ### Entries of the command queue -/

/-- The queue entry of a word with the operands read at issue. -/
def mxaEntry (op : MxaOp) (o : OpT) (old : Tile) : MxaEntry :=
  { op := op
    o := o
    base := old.g o.rb
    stride := old.g o.rc
    vdata := old.v o.rb
    pc := old.pc
    num := old.mxaNum }

/-- The formats each semiring accepts (R152, Table 5-3). -/
def semiFmt (semi fmt : Nat) : Bool :=
  match semi with
  | 0 => 1 ≤ fmt && fmt ≤ 0xC
  | 1 | 2 => 2 ≤ fmt && fmt ≤ 4
  | 3 => fmt == 3 || fmt == 4
  | 4 => fmt == 0xE
  | _ => false

/-! ### Tags (Table 6-1, Table 5-3) -/

/-- The tag and kind that an MMUL with CLR = 1 sets: SEMI, FMT, Rounding mode KV3-stochastic. -/
def tagFor (semi fmt : Nat) (stoch : Bool) : BitVec 4 × Bool :=
  match semi with
  | 0 => if isIntFmt fmt then (3, true) else (if stoch then 2 else 1, false)
  | 1 => (4, fmt == 2)
  | 2 => (5, fmt == 2)
  | 3 => (6, false)
  | _ => (7, true)

/-- The identity of ⊕ as 32 bits (Table 5-3). -/
def identity (tag : BitVec 4) (kind : Bool) : Nat :=
  if tag = 4 then (if kind then 0x7FFFFFFF else 0x7F800000)
  else if tag = 5 then (if kind then 0x80000000 else 0xFF800000)
  else if tag = 6 then 0xFF800000
  else 0

def identityRow (tag : BitVec 4) (kind : Bool) : Row := packRow 32 (List.replicate 32 (identity tag kind))

/-- All 32 rows of an accumulator at the identity, error half zero (R165). -/
def clearedAcc (a : Acc) (tag : BitVec 4) (kind : Bool) : Acc :=
  { a with
    val := (List.range 32).foldl (fun m r => sput 0 r (identityRow tag kind) m) []
    err := [] }

/-! ### Combining (R187–R189, R193) -/

/-- The two-sum of R187: (t, err). -/
def twoSum (s x : Nat) : Nat × Nat :=
  let t := fadd32 s x
  let z := fsub32 t s
  (t, fadd32 (fsub32 s (fsub32 t z)) (fsub32 x z))

/-- Whether an FP32 code is infinite or NaN. -/
def special32 (c : Nat) : Bool := bits c 30 23 == 255

/-- Combine x into a compensated element (s, e) (R187). -/
def compAdd (se : Nat × Nat) (x : Nat) : Nat × Nat :=
  let ts := twoSum se.1 x
  if special32 ts.1 then (ts.1, 0) else (ts.1, fadd32 se.2 ts.2)

/-- ⊕ of a tag on 32-bit values (R163, R189). -/
def oplus (tag : BitVec 4) (kind : Bool) (a b : Nat) : Nat :=
  if tag = 3 then (a + b) % 2 ^ 32
  else if tag = 7 then a ||| b
  else
    let f := if tag = 4 then Fx.minNum else Fx.maxNum
    if kind then toElem 0 .rne (f (elemFx 0 a) (elemFx 0 b)) else r32 (f (f32 a) (f32 b))

/-- The random bits of element j for a tag-0x2 addition with k = 4, or 3 under SR3 (R184, R188). -/
def stoRnd (sr3 : Bool) (out j : Nat) : Rnd :=
  if sr3 then .sto 3 (rndBits 3 out j) else .sto 4 (rndBits 2 out j)

/-- Combine a row of values into row `r` of an accumulator under a tag; `out` is the row's generator output. -/
def combineRow (a : Acc) (tag : BitVec 4) (kind : Bool) (sr3 : Bool) (out : Nat) (r : Nat) (c : List Nat) : Acc :=
  let s := elems 32 (a.row false r)
  if tag = 1 then
    let se := ((s.zip (elems 32 (a.row true r))).zip c).map (fun q => compAdd q.1 q.2)
    (a.setRow false r (packRow 32 (se.map (·.1)))).setRow true r (packRow 32 (se.map (·.2)))
  else if tag = 2 then
    a.setRow false r (packRow 32 (((s.zip c).zipIdx).map (fun q =>
      roundF fp32 (stoRnd sr3 out q.2) ((f32 q.1.1).add (f32 q.1.2)))))
  else a.setRow false r (packRow 32 ((s.zip c).map (fun q => oplus tag kind q.1 q.2)))

/-- AADD of row `r` (Table 6-2); in tag 0x1 a row value t that is infinite or NaN leaves e = +0, as R187 has it for every
addition. DESIGN CHOICE, unsafe: assumption 55. -/
def aaddRow (a b : Acc) (tag : BitVec 4) (kind : Bool) (sr3 : Bool) (out : Nat) (r : Nat) : Acc :=
  if tag = 1 then
    let se := (((elems 32 (a.row false r)).zip (elems 32 (a.row true r))).zip
      ((elems 32 (b.row false r)).zip (elems 32 (b.row true r)))).map (fun q =>
        let ts := twoSum q.1.1 q.2.1
        if special32 ts.1 then (ts.1, 0) else (ts.1, fadd32 (fadd32 q.1.2 q.2.2) ts.2))
    (a.setRow false r (packRow 32 (se.map (·.1)))).setRow true r (packRow 32 (se.map (·.2)))
  else combineRow a tag kind sr3 out r (elems 32 (b.row false r))

/-! ### The array (R148–R165) -/

/-- 32 elements of a raw operand row (R153). -/
def rowElems (fmt : Nat) (r : Row) : List Nat :=
  (List.range 32).map (fun j => (r.toNat >>> (fmtBits fmt * j)) % 2 ^ fmtBits fmt)

/-- One column of (×, +): moving elements `a`, column elements `w` (R158, R159, R161). -/
def columnMulAdd (mf sf sa sw : Nat) (a w : List Nat) : Nat :=
  if isIntFmt mf then
    ofSigned 32 ((a.zip w).foldl (fun acc c => acc + toSigned (fmtBits mf) c.1 * toSigned (fmtBits sf) c.2) 0)
  else
    let ps := (a.zip w).map (fun c => (elemFx mf c.1).mul (elemFx sf c.2))
    if mf = 1 || mf = 3 || mf = 4 then
      match ps with
      | [] => 0
      | p :: r => r.foldl (fun s q => r32 ((f32 s).add q)) (r32 p)
    else
      let total := match ps with
        | [] => .fin false 0 0
        | p :: r => r.foldl Fx.add p
      if isMx mf then
        if sa = 0xFF || sw = 0xFF then r32 .nan
        else r32 (total.scale ((sa : Int) - 127 + ((sw : Int) - 127)))
      else r32 total

/-- One column of a (min, +), (max, +) or (max, ×) product (R163). -/
def columnSemi (semi fmt : Nat) (a w : List Nat) : Nat :=
  let pick := if semi = 1 then Fx.minNum else Fx.maxNum
  let op := if semi = 3 then Fx.mul else Fx.add
  if fmt = 2 then
    toElem 0 .rne (((a.zip w).map (fun c => (elemFx 2 c.1).add (elemFx 2 c.2))).foldl pick .nan)
  else
    r32 (((a.zip w).map (fun c => f32 (r32 (op (elemFx fmt c.1) (elemFx fmt c.2))))).foldl pick .nan)

/-- The result row of one moving row (R149): SEMI, moving format, moving row and its scale, stationary operand. -/
def productRow (semi fmt : Nat) (row : Row) (sa : Nat) (st : Operand) : List Nat :=
  let sf := st.fmt.toNat
  if semi = 4 then
    (List.range 32).map (fun n => if (List.range 32).any (fun r =>
      ((row.toNat >>> (8 * r)) % 256) &&& (((sget 0 r st.rows).toNat >>> (8 * n)) % 256) ≠ 0) then 1 else 0)
  else
    let a := rowElems fmt row
    let w := (List.range 32).map (fun r => rowElems sf (sget 0 r st.rows))
    (List.range 32).map (fun n =>
      let col := w.map (fun l => l.getD n 0)
      if semi = 0 then columnMulAdd fmt sf sa ((st.scales.toNat >>> (8 * n)) % 256) a col
      else columnSemi semi fmt a col)

/-- Valid pairs of moving and stationary formats (R160). -/
def pairOk (m s : Nat) : Bool := m == s || ((m == 6 || m == 7) && (s == 6 || s == 7)) || (isMx m && isMx s)

/-- Whether a step carries two moving rows: MXFP6 and MXFP4 on both sides (Table 5-2). -/
def twoRow (m s : Nat) : Bool := 0xA ≤ m && m ≤ 0xC && 0xA ≤ s && s ≤ 0xC

/-! ### Starting a word (R185) -/

/-- The first row address that is not a multiple of `al` or whose bytes pass the end of the shelves. -/
def badRow (rows : List (Nat × Nat)) (al : Nat) : Option Nat :=
  (rows.find? (fun r => r.1 % al ≠ 0 || shelfEnd < r.1 + r.2)).map (·.1)

/-- The format the stationary operand will hold once the older entries have taken effect (R160). -/
def predictedFmt (x : Tile) (older : List MxaEntry) : Nat :=
  (older.foldl (fun (p : BitVec 4 × BitVec 4) e => match e.op with
    | .sload => (p.1, e.o.fmt)
    | .sswap => (p.2, p.2)
    | _ => p) (x.stat.fmt, x.shadow.fmt)).1.toNat

/-- Whether a queued entry or a row in the drain FIFO still works on an accumulator (R98, R175). -/
def accBusy (x : Tile) (older : List MxaEntry) (a : BitVec 3) : Bool :=
  older.any (fun e => (e.op = .mmul && e.o.acc = a)
    || ((e.op = .adrain || e.op = .aadd) && (e.o.acc = a || ((e.op = .aadd || e.o.fuse ≠ 0) && e.o.acc2 = a))))
    || x.fifo.any (fun d => d.acc = a)

/-- Reserve `n` drain-generator values (R205). -/
def Tile.reserve (x : Tile) (n : Nat) : Tile :=
  { x with dr := { x.dr with ctr := x.dr.ctr + BitVec.ofNat 128 n }, waxUsed := x.waxUsed || x.dr.isWax }

/-- Whether a drain format and fused operation are allowed for a tag and kind (Table 6-3). -/
def drainOk (tag : BitVec 4) (kind : Bool) (fmt fuse : Nat) : Bool :=
  if tag = 1 || tag = 2 then (fmt == 1 || fmt == 3 || fmt == 4 || (6 ≤ fmt && fmt ≤ 0xD))
  else if (tag = 4 || tag = 5 || tag = 6) && !kind then (fmt == 1 || fmt == 3 || fmt == 4) && fuse == 0
  else if tag = 3 || tag = 4 || tag = 5 then
    (fmt == 0 || fmt == 1 || fmt == 2 || fmt == 5) && fuse == 0
  else if tag = 7 then (fmt == 0 || fmt == 0xE) && fuse == 0
  else false

/-- The rows an ADRAIN writes. -/
def drainRows (e : MxaEntry) : List (Nat × Nat) := MxaEntry.writesLeft { e with done := 0 }

/-- The alignment of a drained row: 8 bytes, or the row length where the row is shorter; 2 for a G16 block (R196). -/
def drainAlign (fmt : Nat) : Nat := if fmt = 0xD then 2 else if 4 * fmtBits fmt < 8 then 4 * fmtBits fmt else 8

/-- The conditions under which an ADRAIN that starts raises BAD_OP (R194, R196, R199, R200). -/
def drainBadOp (o : OpT) : Bool :=
  31 < o.row.toNat + o.nrow.toNat || (o.fuse ≠ 0 && o.acc2 = o.acc)
    || (o.fmt = 0xD && (o.nrow.toNat % 2 = 0 || o.row.toNat % 2 = 1))

/-- Whether the rows of an older ADRAIN in the queue will cover a shelf word, so that what it holds now does not matter. -/
def coveredBy (older : List MxaEntry) (w : Nat) : Bool :=
  (older.flatMap MxaEntry.writesLeft).any (fun r => r.1 ≤ 8 * w && 8 * w + 8 ≤ r.1 + r.2)

/-- The words that row `r` of a word reads: a source row whole, of a drained row those that it covers in part (R219). -/
def rowWords (e : MxaEntry) (r : Nat × Nat) : List Nat :=
  if e.op = .adrain then partialWords ((List.range r.2).map (r.1 + ·)) else wordsOf r.1 r.2

/-- The first row of a word, counting from 0, that will read an uncorrectable or poisoned shelf word, and that word's byte address:
the queue runs in program order, so this is known when the word enters it (R93, R94, R172). DEDUCED, safe: assumption 15. -/
def firstUe (x : Tile) (older : List MxaEntry) (e : MxaEntry) : Option (Nat × Nat) :=
  if x.bad = [] then none
  else ((MxaEntry.readsLeft e ++ MxaEntry.writesLeft e).zipIdx).findSome? (fun c =>
    ((rowWords e c.1).find? (fun w => 2 ≤ x.mark w && !coveredBy older w)).map (fun w => (c.2, 8 * w)))

/-- The checks of a word at its start, as faults (code, TILE_FAULT_ADDR): R155, R160, R186, R190, R191, R193, R194,
R196, R199, R200. The FMT of an AMOVI onto a clear tag that is neither 0x0 nor 0x1 fails its check. DESIGN CHOICE, unsafe:
assumption 54. -/
def startFaults (x : Tile) (stoch : Bool) (older : List MxaEntry) (e : MxaEntry) : List (Nat × Nat) :=
  let o := e.o
  let a := x.acc o.acc
  let f := o.fmt.toNat
  let addr (rows : List (Nat × Nat)) (al : Nat) : List (Nat × Nat) :=
    match badRow rows al with | some r => [(tileADDR, r)] | none => []
  let fmtIf (b : Bool) : List (Nat × Nat) := if b then [(accFMT, 0)] else []
  match e.op with
  | .sload => addr (MxaEntry.readsLeft e) 8
  | .sswap => []
  | .mmul =>
    addr (MxaEntry.readsLeft { e with fetched := 0 }) 8 ++
      fmtIf (!pairOk f (predictedFmt x older)
        || (!o.clr && (a.tag, a.kind) ≠ tagFor o.semi.toNat f stoch))
  | .amov => fmtIf (a.tag = 0 || (o.err && a.tag ≠ 1))
  | .amovi =>
    let bad :=
      if a.tag = 0 then
        !(f == 0 || f == 1) || (f == 0 && o.semi = 3) || (f == 1 && o.semi = 4)
          || (o.err && amoviTag o stoch ≠ 1)
      else
        !(if a.kind then f == 0 else f == 1) || semiOf a.tag ≠ o.semi.toNat || (o.err && a.tag ≠ 1)
    fmtIf bad
  | .aclr => []
  | .adrain =>
    addr (drainRows e) (drainAlign f) ++ (if drainBadOp o then [(badOP, 0)] else []) ++
      fmtIf (!drainOk a.tag a.kind f o.fuse.toNat
        || (o.fuse ≠ 0 && !((x.acc o.acc2).tag = 0 || (x.acc o.acc2).tag = 1)))
  | .aadd =>
    let b := x.acc o.acc2
    fmtIf (a.tag = 0 || a.tag ≠ b.tag || a.kind ≠ b.kind)
where
  /-- The semiring of a tag. -/
  semiOf (tag : BitVec 4) : Nat :=
    if tag = 4 then 1 else if tag = 5 then 2 else if tag = 6 then 3 else if tag = 7 then 4 else 0
  /-- The tag AMOVI sets on a clear tag: FMT 0x1 stands for every float format and 0x0 for every integer format
  (R191). -/
  amoviTag (o : OpT) (stoch : Bool) : BitVec 4 :=
    (tagFor o.semi.toNat (if o.fmt = 0 then 2 else if o.semi = 0 then 1 else 3) stoch).1

/-- The tag and kind AMOVI sets on a clear tag (R191). -/
def amoviTagKind (o : OpT) (stoch : Bool) : BitVec 4 × Bool :=
  tagFor o.semi.toNat (if o.fmt = 0 then 2 else if o.semi = 0 then 1 else 3) stoch

/-- The tags and kinds that a tile's accumulators will carry once the queue words not yet started have started, as far as
the checks of a younger word see them (R185): MMUL with CLR = 1, AMOVI on a clear tag, ACLR, and the state of a fused
drain. -/
def Tile.afterQueue (x : Tile) (stoch : Bool) : Tile :=
  (x.queue.filter (fun e => !e.started)).foldl (fun y e =>
    let a := y.acc e.o.acc
    match e.op with
    | .mmul =>
      let tk := tagFor e.o.semi.toNat e.o.fmt.toNat stoch
      if e.o.clr then y.setAcc e.o.acc { a with tag := tk.1, kind := tk.2 } else y
    | .amovi =>
      let tk := amoviTagKind e.o stoch
      if a.tag = 0 then y.setAcc e.o.acc { a with tag := tk.1, kind := tk.2 } else y
    | .aclr => y.setAcc e.o.acc {}
    | .adrain =>
      let b := y.acc e.o.acc2
      if e.o.fuse ≠ 0 && b.tag = 0 then y.setAcc e.o.acc2 { b with tag := 1, kind := false } else y
    | _ => y) x

/-- The entry of a word that will fault, at its start or at a row (R93, R155, R172, R185): the queue runs in program order, so
what it will see is fixed at issue. DEDUCED, safe: assumption 15. -/
def doomedEntry (x : Tile) (stoch : Bool) (e : MxaEntry) : Option MxaEntry :=
  let ue := firstUe x x.queue e
  if startFaults (x.afterQueue stoch) stoch x.queue e ≠ [] || ue.isSome then some { e with ue := ue } else none

/-! ### Words that enter the command queue (R98, Table 4-9) -/

/-- Enter the command queue with the operands read at issue; a full queue holds issue (R98). The store of slot A comes before what
the word reads (R75). -/
def wMxa (op : MxaOp) (bad : Bool) (h : Hdr) (o : OpT) : TileWord :=
  { bad := bad || o.res ≠ 0
    hdr := h
    vd := if op = .amov then [o.rb] else []
    vr := if op = .amovi then [o.rb] else []
    ready := fun tid s => (s.tile tid).queue.length < 4
    run := onTile fun old x =>
      { x with queue := x.queue ++ [mxaEntry op o old], mxaNum := old.mxaNum + 1 }
    doom := fun tid old s => doomedEntry { old with bad := (s.tile tid).bad } (s.runOf tid).stoch (mxaEntry op o old) }

def wSload (h : Hdr) (o : OpT) : TileWord :=
  wMxa .sload (!(o.acc = 0 && o.semi = 0 && o.rm = 0 && o.fuse = 0 && o.nrow = 31 && !o.clr && o.row = 0 && !o.err
    && o.acc2 = 0 && o.fmt ≠ 0 && o.fmt ≠ 0xD && o.fmt ≠ 0xF)) h o

def wSswap (h : Hdr) (o : OpT) : TileWord :=
  wMxa .sswap (!(o.acc = 0 && o.rb = 0 && o.rc = 0 && o.fmt = 0 && o.semi = 0 && o.rm = 0 && o.fuse = 0
    && o.nrow = 0 && !o.clr && o.row = 0 && !o.err && o.acc2 = 0)) h o

def wMmul (h : Hdr) (o : OpT) : TileWord :=
  wMxa .mmul (!(semiFmt o.semi.toNat o.fmt.toNat && o.rm = 0 && o.fuse = 0 && !o.err && o.acc2 = 0
    && o.row.toNat + o.nrow.toNat ≤ 31)) h o

def wAmov (h : Hdr) (o : OpT) : TileWord :=
  wMxa .amov (!(o.rc = 0 && o.fmt = 0 && o.semi = 0 && o.nrow = 0 && !o.clr && o.rm = 0 && o.fuse = 0
    && o.acc2 = 0)) h o

def wAmovi (h : Hdr) (o : OpT) : TileWord :=
  wMxa .amovi (!(o.rc = 0 && o.semi.toNat ≤ 4 && o.nrow = 0 && !o.clr && o.rm = 0 && o.fuse = 0
    && o.acc2 = 0)) h o

def wAclr (h : Hdr) (o : OpT) : TileWord :=
  wMxa .aclr (!(o.rb = 0 && o.rc = 0 && o.fmt = 0 && o.semi = 0 && o.rm = 0 && o.fuse = 0 && o.nrow = 0 && !o.clr
    && o.row = 0 && !o.err && o.acc2 = 0)) h o

/-- A drain to an integer format or to BIT does not round, so it carries RM = 0 (R81, Table 6-3). -/
def wAdrain (h : Hdr) (o : OpT) : TileWord :=
  wMxa .adrain (!(o.semi = 0 && !o.err && o.rm.toNat ≤ 3 && o.fuse.toNat ≤ 3 && (o.fuse ≠ 0 || o.acc2 = 0)
    && (!(isIntFmt o.fmt.toNat || o.fmt = 0xE) || o.rm = 0))) h o

def wAadd (h : Hdr) (o : OpT) : TileWord :=
  wMxa .aadd (!(o.rb = 0 && o.rc = 0 && o.fmt = 0 && o.semi = 0 && o.rm = 0 && o.fuse = 0 && !o.clr && !o.err
    && o.row.toNat + o.nrow.toNat ≤ 31)) h o

/-! ### Starting an entry -/

/-- Replace entry `i` of the queue. -/
def Tile.setEntry (x : Tile) (i : Nat) (e : MxaEntry) : Tile := { x with queue := x.queue.set i e }

/-- Remove entry `i` of the queue. -/
def Tile.dropEntry (x : Tile) (i : Nat) : Tile := { x with queue := x.queue.eraseIdx i }

/-- Load 32 stationary rows, and the MX scale row, into the shadow (R166, R154). In a format that is not MX the shadow keeps the
scales it held. DESIGN CHOICE, unsafe: assumption 70. -/
def loadShadow (x : Tile) (e : MxaEntry) : Tile :=
  let f := e.o.fmt.toNat
  { x with
    shadow :=
      { fmt := e.o.fmt
        rows := (List.range 32).foldl
          (fun m r => sput 0 r (BitVec.ofNat 1024 (readLE x.shelf (rowAddr e.base e.stride r) (rowBytes f))) m) []
        scales := if isMx f then BitVec.ofNat 256 (readLE x.shelf (rowAddr e.base e.stride 32) 32)
          else x.shadow.scales } }

/-- The first `n` rows of a stationary load in the shadow, as an SLOAD that meets an uncorrectable word leaves it (R172). -/
def landRows (x : Tile) (e : MxaEntry) (n : Nat) : Tile :=
  { x with
    shadow :=
      { x.shadow with
        fmt := e.o.fmt
        rows := (List.range (min n 32)).foldl
          (fun m r => sput 0 r (BitVec.ofNat 1024 (readLE x.shelf (rowAddr e.base e.stride r) (rowBytes e.o.fmt.toNat))) m)
          x.shadow.rows } }

/-- Start entry `i` of a tile's queue: its checks, then what it does at its start (R155, R185, R205). A word that waits
for older words holds, and so does one whose fault must wait for them (R94). -/
def startEntry (tid : TileId) (i : Nat) (e : MxaEntry) (s : State) : State :=
  let x := s.tile tid
  let r := s.runOf tid
  let older := x.queue.take i
  let o := e.o
  let fs := startFaults x r.stoch older e
  let waits : Bool := match e.op with
    | .sload => older.any (fun q => q.op = .sswap) || anyMeets (MxaEntry.readsLeft e) (older.flatMap MxaEntry.writesLeft)
    | .amov | .amovi | .aclr => accBusy x older o.acc
    | _ => false
  if waits then s
  else if fs ≠ [] then (if older = [] && x.fifo = [] then raiseNow s tid e.pc.toNat fs else s)
  else
    let a := x.acc o.acc
    match e.op with
    | .sload =>
      match e.ue.or (firstUe x [] e) with
      | some (n, addr) =>
        if older = [] && x.fifo = [] then
          (s.setTile tid (landRows (x.touch ((MxaEntry.readsLeft e).take (n + 1))) e n)).raise tid tileUE false e.pc.toNat addr
        else s
      | none => s.setTile tid ((loadShadow (x.touch (MxaEntry.readsLeft e)) e).dropEntry i)
    | .sswap => s.setTile tid (x.setEntry i { e with started := true })
    | .mmul =>
      let tk := tagFor o.semi.toNat o.fmt.toNat r.stoch
      let a1 : Acc := { a with tag := tk.1, kind := tk.2 }
      let x1 := if !o.clr then x else x.setAcc o.acc (if accBusy x older o.acc then a1 else clearedAcc a1 tk.1 tk.2)
      let x2 := if tk.1 = 2 then x1.reserve (o.nrow.toNat + 1) else x1
      s.setTile tid (x2.setEntry i { e with started := true, tag := tk.1, kind := tk.2, gen := x.dr })
    | .amov => s.setTile tid ((x.setV o.rb (a.row o.err o.row.toNat)).dropEntry i)
    | .amovi =>
      let tk := if a.tag = 0 then amoviTagKind o r.stoch else (a.tag, a.kind)
      s.setTile tid ((x.setAcc o.acc
        (({ a with tag := tk.1, kind := tk.2 } : Acc).setRow o.err o.row.toNat e.vdata)).dropEntry i)
    | .aclr => s.setTile tid ((x.setAcc o.acc {}).dropEntry i)
    | .adrain =>
      let b := x.acc o.acc2
      let init := o.fuse ≠ 0 && b.tag = 0
      let x1 := if init then x.setAcc o.acc2 { b with tag := 1, kind := false } else x
      let x2 := if isSto o.rm.toNat then x1.reserve (o.nrow.toNat + 1) else x1
      s.setTile tid (x2.setEntry i { e with started := true, tag := a.tag, kind := a.kind, fuseInit := init, gen := x.dr })
    | .aadd =>
      let x1 := if a.tag = 2 then x.reserve (o.nrow.toNat + 1) else x
      s.setTile tid (x1.setEntry i { e with started := true, tag := a.tag, kind := a.kind, gen := x.dr })

/-- MXA_QUEUE_START: the oldest word not yet started starts, in program order (R98, R185). -/
def execMxaQueueStart (tid : TileId) (s : State) : State :=
  let x := s.tile tid
  if !x.working then s
  else match x.queue.findIdx? (fun e => !e.started) with
    | none => s
    | some i => match x.queue[i]? with
      | none => s
      | some e => startEntry tid i e s

/-- SSWAP_TAKE_EFFECT: once every older SLOAD has completed and every row of every older MMUL has begun, the shadow
becomes the stationary operand; the shadow keeps its contents (R168, R176). -/
def execSswapTakeEffect (tid : TileId) (s : State) : State :=
  let x := s.tile tid
  if !x.working then s
  else match x.queue.findIdx? (fun e => e.op = .sswap && e.started) with
    | none => s
    | some i =>
      if (x.queue.take i).any (fun q => q.op = .sload || q.op = .mmul || q.op = .sswap) then s
      else s.setTile tid ({ x with stat := x.shadow }.dropEntry i)

/-- FEEDER_REFILL: the next moving row in program order is read into the feeders, at most 16 rows ahead (R170–R172). -/
def execFeederRefill (tid : TileId) (s : State) : State :=
  let x := s.tile tid
  if !x.working || 16 ≤ x.feeders.length then s
  else match x.queue.findIdx? (fun e => e.op = .mmul && e.fetched < e.o.nrow.toNat + 1) with
    | none => s
    | some i => match x.queue[i]? with
      | none => s
      | some e =>
        let f := e.o.fmt.toNat
        let a := rowAddr e.base e.stride e.fetched
        let rng := (a, rowBytes f + (if isMx f then 1 else 0))
        if !e.started || anyMeets [rng] ((x.queue.take i).flatMap MxaEntry.writesLeft) then s
        else
          let row : FeedRow :=
            { data := BitVec.ofNat 1024 (readLE x.shelf a (rowBytes f))
              scale := if isMx f then readByte x.shelf (a + rowBytes f) else 0
              bad := if e.ue.any (fun u => u.1 = e.fetched) then e.ue.map (·.2)
                else if x.bad = [] then none else x.firstBad [rng] }
          s.setTile tid (((x.touch [rng]).setEntry i { e with fetched := e.fetched + 1 }) |> fun y =>
            { y with feeders := y.feeders ++ [row] })

/-- The oldest FIFO entry is combined into its accumulator row; the first row of an MMUL with CLR = 1 first sets every
row to the identity (R165, R173, R187–R189). -/
def drainHead (sr3 : Bool) (x : Tile) : Tile :=
  match x.fifo with
  | [] => x
  | d :: rest =>
    let a0 := x.acc d.acc
    let a := if d.clr then clearedAcc a0 d.tag d.kind else a0
    let out := genOut d.gen.isWax d.gen.key d.gen.ctr
    { x.setAcc d.acc (combineRow a d.tag d.kind sr3 out d.row (elems 32 d.data)) with fifo := rest }

/-- `n` FIFO entries combined. -/
def drainMany (sr3 : Bool) : Nat → Tile → Tile
  | 0, x => x
  | n + 1, x => drainMany sr3 n (drainHead sr3 x)

/-- The partner of a tile in superstep `n` with share D (R513). -/
def partnerOf (t : TileId) (n d : Nat) : TileId :=
  if n / d % 2 = 0 then tileOf (tileX t) (tileY t ^^^ 1) else tileOf (tileX t ^^^ 1) (tileY t)

/-- The stationary operand that the partner holds once the items on their way have come; `reg` is its sentinel register
(R513). -/
def heldOperand (reg : Operand) (x : Tile) : Operand := (x.sent.reverse.findSome? (fun i => i.stat)).getD reg

/-- Sample a result row for the sentinel (R512, R513). -/
def sampleRow (d : Nat) (reg : Operand) (e : MxaEntry) (row : FeedRow) (c : List Nat) (x : Tile) : Tile :=
  if d = 0 then x
  else
    { x with
      rowNum := x.rowNum + 1
      sent := if x.rowNum % d = (x.sstep.toNat + x.rel.toNat) % d
        then x.sent ++ [{ num := x.rowNum, pc := e.pc, result := [packRow 32 c], isRow := true, moving := row.data
                          scale := row.scale, semi := e.o.semi, fmt := e.o.fmt
                          stat := if heldOperand reg x = x.stat then none else some x.stat }] else x.sent }

/-- The drain FIFO entry of row `i` of an MMUL. -/
def drainRowOf (e : MxaEntry) (i : Nat) (c : List Nat) : DrainRow :=
  { acc := e.o.acc
    row := e.o.row.toNat + i
    tag := e.tag
    kind := e.kind
    semi := e.o.semi
    clr := e.o.clr && i = 0
    data := packRow 32 c
    gen := { e.gen with ctr := e.gen.ctr + BitVec.ofNat 128 i } }

/-- One moving row through the array into the output stage and the drain FIFO. -/
def arrayRow (e : MxaEntry) (i d : Nat) (reg : Operand) (row : FeedRow) (x : Tile) : Tile :=
  let c := productRow e.o.semi.toNat e.o.fmt.toNat row.data row.scale.toNat x.stat
  sampleRow d reg e row c
    { x with
      feeders := x.feeders.drop 1
      fifo := x.fifo ++ [drainRowOf e i c] }

/-- Whether the oldest MMUL may begin a step: its SSWAPs have taken effect and no older accumulator word names its
accumulator (R168, R175). -/
def stepReady (x : Tile) (older : List MxaEntry) (e : MxaEntry) : Bool :=
  e.started && !older.any (fun q => q.op = .sswap || q.op = .mmul
    || ((q.op = .amov || q.op = .amovi || q.op = .aclr) && q.o.acc = e.o.acc)
    || ((q.op = .adrain || q.op = .aadd) && (q.o.acc = e.o.acc || ((q.op = .aadd || q.o.fuse ≠ 0) && q.o.acc2 = e.o.acc))))
    && x.st ≠ 7

/-- The tile when row `n` of an MMUL meets an uncorrectable word (R172): the rows before it have updated their accumulator rows,
and an MMUL with CLR = 1 has set its accumulator to the identity even where `n` is 0 (R165). -/
def stopStep (sr3 : Bool) (e : MxaEntry) (n : Nat) (x : Tile) : Tile :=
  let y := drainMany sr3 x.fifo.length x
  if e.o.clr && n = 0 then y.setAcc e.o.acc (clearedAcc (y.acc e.o.acc) e.tag e.kind) else y

/-- MULTIPLY_STEP, one beat of the array: the next row, or two rows in the two-row formats, begin their multiply step. The beat
freezes the array while the output stage holds a row that the full drain FIFO cannot take, or where a due row is missing (R151,
R156, R157, R172, R178). An uncorrectable row faults once the older queue words have completed (R94). -/
def execMultiplyStep (tid : TileId) (s : State) : State :=
  let x := s.tile tid
  let r := s.runOf tid
  if !x.working then s
  else if 32 < x.fifo.length then s.setTile tid { x with freezeDrain := x.freezeDrain + 1 }
  else match x.queue.findIdx? (fun e => e.op = .mmul) with
    | none => s
    | some i => match x.queue[i]? with
      | none => s
      | some e =>
        let left := e.o.nrow.toNat + 1 - e.begun
        let n := if twoRow e.o.fmt.toNat x.stat.fmt.toNat then min 2 left else 1
        if !stepReady x (x.queue.take i) e then s
        else if x.feeders.length < n then s.setTile tid { x with freezeFeed := x.freezeFeed + 1 }
        else
          let rows := x.feeders.take n
          let good := rows.takeWhile (fun w => w.bad.isNone)
          let reg := (s.tile (partnerOf tid x.sstep.toNat r.sentD)).sentReg
          let x1 := good.zipIdx.foldl (fun y w => arrayRow e (e.begun + w.2) r.sentD reg w.1 y) x
          match (rows.drop good.length).head? with
          | some w =>
            if i ≠ 0 then s
            else (s.setTile tid (stopStep r.sr3 e (e.begun + good.length) x1)).raise tid tileUE false e.pc.toNat (w.bad.getD 0)
          | none =>
            if e.begun + n = e.o.nrow.toNat + 1 then s.setTile tid (x1.dropEntry i)
            else s.setTile tid (x1.setEntry i { e with begun := e.begun + n })

/-! ### Draining (R194–R204) -/

/-- The exact value converted: s + e in tag 0x1, else s (R197). -/
def drainValues (a : Acc) (tag : BitVec 4) (kind : Bool) (r : Nat) : List Fx :=
  let s := elems 32 (a.row false r)
  if tag = 1 then ((s.zip (elems 32 (a.row true r))).map (fun c => (f32 c.1).add (f32 c.2)))
  else if kind then s.map (elemFx 0)
  else s.map f32

/-- The FP32 exponential of VEXP (R127). -/
def exp32 (c : Nat) : Nat := r32 (f32 c).exp

/-- Online softmax on a row y with state (m, l): new state (m, l, α) and p, as the pseudocode of R202 gives them: where mn is −∞
no y[j] enters l, a NaN among them included. DESIGN CHOICE, unsafe: assumption 55. -/
def softmaxRow (m l : Nat) (y : List Nat) : (Nat × Nat × Nat) × List Nat :=
  let mx := r32 ((y.map f32).foldl Fx.maxNum .nan)
  let mn := r32 ((f32 m).maxNum (f32 mx))
  if mn = 0xFF800000 then ((mn, l, 0x3F800000), y.map (fun _ => 0))
  else
    let alpha := exp32 (fsub32 m mn)
    let p := y.map (fun v => exp32 (fsub32 v mn))
    ((mn, fadd32 (fmul32 l alpha) (pairSum 1 0 p), alpha), p)

/-- The row sum of squares in the tree order, each square exact (R203). -/
def squareSum (y : List Nat) : Nat :=
  r32 (tree (.fin false 0 0) (fun a b => f32 (r32 (a.add b))) (y.map (fun v => (f32 v).mul (f32 v))))

/-- The fused operation of one row on its state row of ACC2 (Table 6-4): new ACC2 and, for the softmax, p. -/
def fuseRow (fuse : Nat) (init : Bool) (b : Acc) (r : Nat) (y : List Nat) : Acc × Option (List Nat) :=
  let v := elems 32 (b.row false r)
  let er := elems 32 (b.row true r)
  let g (i : Nat) (dflt : Nat) : Nat := if init then dflt else v.getD i 0
  match fuse with
  | 1 =>
    let q := softmaxRow (g 0 0xFF800000) (g 1 0) y
    (b.setRow false r (packRow 32 (((v.set 0 q.1.1).set 1 q.1.2.1).set 2 q.1.2.2)), some q.2)
  | 2 =>
    let se := compAdd (g 0 0, if init then 0 else er.getD 0 0) (squareSum y)
    ((b.setRow false r (packRow 32 (v.set 0 se.1))).setRow true r (packRow 32 (er.set 0 se.2)), none)
  | 3 =>
    let m := tree ⟨0, 0, 0⟩ welfMerge (y.map (fun c => ⟨1, c, 0⟩))
    let w := welfMerge ⟨g 0 0, g 1 0, g 2 0⟩ m
    (b.setRow false r (packRow 32 (((v.set 0 w.n).set 1 w.mean).set 2 w.m2)), none)
  | _ => (b, none)

/-- The bytes of a drained row that is not G16 (R153, R197, R198). -/
def drainRowBytes (fmt rm out : Nat) (xs : List Fx) (scaleOf : List Fx) : List Byte :=
  let rnd (j : Nat) : Rnd := rndOf rm (rndBits rm out j)
  if isMx fmt then
    let sc := mxScale fmt scaleOf
    leBytes (4 * fmtBits fmt) (packNat (fmtBits fmt) (xs.zipIdx.map (fun c => toMx fmt sc (rnd c.2) c.1)))
      ++ [BitVec.ofNat 8 sc]
  else if fmt = 0xE then
    leBytes 4 (packNat 1 (xs.map (fun x => if x.isZero then 0 else 1)))
  else leBytes (4 * fmtBits fmt) (packNat (fmtBits fmt) (xs.zipIdx.map (fun c => toElem fmt (rnd c.2) c.1)))

/-- One row of an ADRAIN: the fused update, the values written, and the clear of CLR (R195, R200, R201). Answers the
tile with the values of the row. -/
def drainOneRow (e : MxaEntry) (i : Nat) (x : Tile) : Tile × List Fx :=
  let r := e.o.row.toNat + i
  let a := x.acc e.o.acc
  let xs := drainValues a e.tag e.kind r
  let q := fuseRow e.o.fuse.toNat e.fuseInit (x.acc e.o.acc2) r (xs.map r32)
  let x1 := if e.o.fuse = 0 then x else x.setAcc e.o.acc2 q.1
  let x2 := if e.o.clr then
      x1.setAcc e.o.acc (((x1.acc e.o.acc).setRow false r (identityRow e.tag e.kind)).setRow true r 0)
    else x1
  (x2, match q.2 with | some p => p.map f32 | none => xs)

/-- The output of the generator value reserved for row `i` (R205). -/
def rowOut (e : MxaEntry) (i : Nat) : Nat := genOut e.gen.isWax e.gen.key (e.gen.ctr + BitVec.ofNat 128 i)

/-- One row of an ADRAIN through the add stage, or one block (two rows) of a G16 drain. A row that meets an uncorrectable word
faults once the older words have completed (R94), and until then the add stage serves the drain FIFO (R174). -/
def adrainStep (sr3 : Bool) (tid : TileId) (k : Nat) (e : MxaEntry) (s : State) : State :=
  let x := s.tile tid
  let f := e.o.fmt.toNat
  let rm := e.o.rm.toNat
  let i := e.done
  let g16 := f = 0xD
  let p0 := drainOneRow e i x
  let p1 := if g16 then drainOneRow e (i + 1) p0.1 else p0
  let rnd (j c : Nat) : Rnd := rndOf rm (rndBits rm (rowOut e j) c)
  let bytes :=
    if g16 then
      (drainG16 ((p0.2.zipIdx.map (fun c => (c.1, rnd i c.2))) ++ (p1.2.zipIdx.map (fun c => (c.1, rnd (i + 1) c.2))))).bytes130
    else drainRowBytes f rm (rowOut e i) p0.2 (p0.2.map (fun v => f32 (r32 v)))
  let addr := rowAddr e.base e.stride (if g16 then i / 2 else i)
  let l := at' addr bytes
  match (if e.ue.any (fun u => u.1 = (if g16 then i / 2 else i)) then e.ue.map (·.2) else x.badMerge (l.map (·.1))) with
  | some a =>
    if k ≠ 0 || x.fifo ≠ [] then s.setTile tid (drainHead sr3 x)
    else (s.setTile tid (x.touch [(a, 8)])).raise tid tileUE false e.pc.toNat a
  | none =>
    let n := if g16 then 2 else 1
    let s1 := storeProg tid l (s.setTile tid p1.1)
    s1.modTile tid (fun y =>
      if e.done + n = e.o.nrow.toNat + 1 then y.dropEntry k else y.setEntry k { e with done := e.done + n })

/-- One row of an AADD (R193). -/
def aaddStep (sr3 : Bool) (k : Nat) (e : MxaEntry) (x : Tile) : Tile :=
  let r := e.o.row.toNat + e.done
  let x1 := x.setAcc e.o.acc (aaddRow (x.acc e.o.acc) (x.acc e.o.acc2) e.tag e.kind sr3 (rowOut e e.done) r)
  if e.done = e.o.nrow.toNat then x1.dropEntry k else x1.setEntry k { e with done := e.done + 1 }

/-- The ADRAIN or AADD whose next row is ready: the first started one, with no result row still due in its accumulators (R98,
R174), and whose next drained row meets no row that an older MMUL has still to read (R46, R147). -/
def addStageEntry (x : Tile) : Option (Nat × MxaEntry) :=
  match x.queue.findIdx? (fun e => e.op = .adrain || e.op = .aadd) with
  | none => none
  | some i => match x.queue[i]? with
    | none => none
    | some e =>
      let older := x.queue.take i
      if e.started && !accBusy x older e.o.acc
          && !anyMeets ((MxaEntry.writesLeft e).take 1) (older.flatMap MxaEntry.readsLeft)
          && !((e.op = .aadd || e.o.fuse ≠ 0) && accBusy x older e.o.acc2) then some (i, e)
      else none

/-- DRAIN_ADD: the add stage serves a ready ADRAIN or AADD row first, else the head of the drain FIFO (R173, R174). -/
def execDrainAdd (tid : TileId) (s : State) : State :=
  let x := s.tile tid
  let r := s.runOf tid
  if !x.working then s
  else match addStageEntry x with
    | some (k, e) => if e.op = .adrain then adrainStep r.sr3 tid k e s else s.setTile tid (aaddStep r.sr3 k e x)
    | none => s.setTile tid (drainHead r.sr3 x)

end Sys2Proof.Machine
end

