-- ==== Sys2Proof/Machine/Exchange.lean ====
section
/-!
DEFINITION. The scheduled exchange (Chapter 8): EXCH and EXCH_LAST, the fetch and check of run records, the movement
of flits slot by slot, in-network adds, landings, and the two barriers of a superstep.
-/
namespace Sys2Proof.Machine

/-! ### EXCH and EXCH_LAST (R86, R101, R236, R248) -/

/-- The exchange descriptor at a shelf address (Table 8-4). -/
structure ExchDesc where
  prog : Nat
  len : Nat
  zone : Nat
  nz : Nat
  deriving DecidableEq, Repr

def readExch (x : Tile) (a : Nat) : ExchDesc :=
  ⟨readLE x.shelf a 4, readLE x.shelf (a + 4) 4, readLE x.shelf (a + 8) 4, readLE x.shelf (a + 12) 1⟩

/-- A header entry's fields (Table 8-5). -/
def hdrRecs (w : Nat) : Nat := bits w 47 32
def hdrSlots (w : Nat) : Nat := bits w 16 0

/-- The eleven header entries (R237). -/
def hdrEntries (x : Tile) (d : ExchDesc) : List Nat :=
  if d.len = 0 then List.replicate 11 0 else (List.range 11).map (fun i => readLE x.shelf (d.prog + 8 * i) 8)

/-- Whether the header totals agree (R236, R237): reserved bits zero, SLOTS at most 65,536 and within what RECS records
can cover, and PROG_LEN equal to 88 + 8 × the sum of RECS. -/
def headerOk (x : Tile) (d : ExchDesc) : Bool :=
  let l := hdrEntries x d
  d.len = 0 ||
    (l.all (fun w => bits w 63 48 = 0 && bits w 31 17 = 0 && hdrSlots w ≤ 65536 &&
        hdrRecs w ≤ hdrSlots w && hdrSlots w ≤ 65536 * hdrRecs w) &&
      d.len = 88 + 8 * (l.map hdrRecs).foldl (· + ·) 0)

/-- A zone entry as (START, LEN_M1); none where it breaks R248. -/
def zoneOf (w : Nat) : Option (Nat × Nat) :=
  let st := bits w 15 0
  let ln := bits w 47 32
  if bits w 63 48 ≠ 0 || bits w 31 16 ≠ 0 || 0xFFFF < st + ln then none else some (st, ln)

/-- The zone list of a descriptor. -/
def zoneList (x : Tile) (d : ExchDesc) : List (Option (Nat × Nat)) :=
  (List.range d.nz).map (fun i => zoneOf (readLE x.shelf (d.zone + 8 * i) 8))

/-- Whether the addresses of a descriptor are multiples of 8 and its ranges lie in the shelves (R236); an empty range lies where
its address points. DESIGN CHOICE, unsafe: assumption 64. -/
def exchAddrOk (d : ExchDesc) : Bool :=
  d.prog % 8 = 0 && d.zone % 8 = 0 && d.prog + d.len ≤ shelfEnd && d.zone + 8 * d.nz ≤ shelfEnd

/-- The shelf ranges that EXCH reads at issue. -/
def exchReads (o : OpX) (x : Tile) : List (Nat × Nat) :=
  let a := 32 * o.desc.toNat
  let d := readExch x a
  (a, 32) ::
    (if exchAddrOk d then (if d.len = 0 then [] else [(d.prog, 88)]) ++ [(d.zone, 8 * d.nz)] else [])

/-- The faults of EXCH at issue (R236, R248). -/
def exchCheck (o : OpX) (x : Tile) : List (Nat × Nat) :=
  let a := 32 * o.desc.toNat
  match x.firstBad (exchReads o x) with
  | some b => [(tileUE, b)]
  | none =>
    let d := readExch x a
    (if exchAddrOk d then [] else [(tileADDR, a)]) ++
    (if (readBytes x.shelf (a + 13) 19).any (· ≠ 0) || (exchAddrOk d && !headerOk x d) then [(exchORDER, a)] else []) ++
    (if 16 < d.nz || (exchAddrOk d && (zoneList x d).any (· = none)) then [(exchZONE, a)] else [])

/-- Records before queue `q` in the program. -/
def recsBefore (l : List Nat) (q : Nat) : Nat := ((l.take q).map hdrRecs).foldl (· + ·) 0

/-- The exchange that a descriptor starts. -/
def newExch (x : Tile) (d : ExchDesc) (last : Bool) : Exch :=
  let l := hdrEntries x d
  let base := d.prog + 88
  { issued := true
    last := last
    zones := (zoneList x d).filterMap (fun z => z)
    ins := (List.range 5).foldl (fun m q => sput {} q
      ({ slots := hdrSlots (l.getD q 0), recs := hdrRecs (l.getD q 0), next := base + 8 * recsBefore l q } : InPort) m) []
    outs := (List.range 6).foldl (fun m q => sput {} q
      ({ slots := hdrSlots (l.getD (5 + q) 0), recs := hdrRecs (l.getD (5 + q) 0), next := base + 8 * recsBefore l (5 + q) } : OutPort) m) []
    qs := []
    landed := [] }

/-- A tile's arrival at the compute barrier: the feeders are emptied (R49), staged settings take effect (R65), and
with BREAK in force the tile holds instead of arriving (Table 2-5). -/
def arriveCbar (tid : TileId) (s : State) : State :=
  let s1 := boundary tid s
  s1.modTile tid (fun x => { x with feeders := [], st := if x.brkAct then 6 else 3, since := s1.beats tid })

/-- EXCH (last = false) and EXCH_LAST. -/
def wExch (last : Bool) (h : Hdr) (o : OpX) : TileWord :=
  { bad := !(h.pred = 0 && !h.pinv && o.ra = 0 && o.sid = 0 && o.res = 0)
    hdr := h
    exch := true
    reads := exchReads o
    ready := fun tid s => (s.tile tid).drained && !(s.tile tid).copies.any (fun d => isArm d.op)
    check := fun _ old _ => exchCheck o old
    run := fun tid old s => arriveCbar tid (s.modTile tid (fun x =>
      { x with exch := newExch old (readExch old (32 * o.desc.toNat)) last })) }

/-! ### Run records (Tables 8-6, 8-7, 8-8; R573) -/

/-- The port code of input queue `c` in the order N, E, S, W, ATTACH. -/
def inCode (c : Nat) : Nat := if c = 4 then 5 else c

/-- Whether a port code names an input queue. -/
def isInput (p : Nat) : Bool := p < 4 || p = 5

/-- The tile across a link of a router, inside the footprint (R229, R230). -/
def neighbour (r : Run) (t : TileId) (p : Nat) : Option TileId :=
  let x := tileX t
  let y := tileY t
  let u : Option TileId :=
    if p = 0 then (if y < 31 then some (tileOf x (y + 1)) else none)
    else if p = 1 then (if x < 63 then some (tileOf (x + 1) y) else none)
    else if p = 2 then (if 0 < y then some (tileOf x (y - 1)) else none)
    else if p = 3 then (if 0 < x then some (tileOf (x - 1) y) else none)
    else none
  match u with
  | some v => if r.has v then some v else none
  | none => none

/-- Whether a port exists at a router for its task: TILE, a link inside the footprint, or the ATTACH it carries. -/
def portExists (r : Run) (t : TileId) (p : Nat) : Bool :=
  p = 4 || (p = 5 && (attachOf t).isSome) || (p < 4 && (neighbour r t p).isSome)

/-- The combinations of Table 8-8; SRC2 of an add, like SRC, is no input of the output's own port. DESIGN CHOICE, unsafe:
assumption 65. -/
def comboOk (o src src2 op : Nat) : Bool :=
  if op = 0 then
    src2 = 7 && (if o = 4 then isInput src else src = 4 || (isInput src && src ≠ o))
  else
    isInput src && src ≠ o && (src2 = 4 || (isInput src2 && src2 ≠ src && src2 ≠ o))

/-- An input record obeys R238 and names only ports that exist. -/
def inRecForm (pe : Nat → Bool) (c : Nat) (w : BitVec 64) : Bool :=
  bits w.toNat 41 0 = 0 && rDest w ≠ 0 && !(rDest w).testBit (inCode c) &&
    (List.range 6).all (fun p => !(rDest w).testBit p || pe p)

/-- The same at a router of a footprint. -/
def inRecOk (r : Run) (t : TileId) (c : Nat) (w : BitVec 64) : Bool := inRecForm (portExists r t) c w

/-- An output record obeys R239 and R240 and names only ports that exist. -/
def outRecForm (pe : Nat → Bool) (o : Nat) (w : BitVec 64) : Bool :=
  let usesTile := o = 4 || rSrc w = 4 || rSrc2 w = 4
  bits w.toNat 5 0 = 0 && comboOk o (rSrc w) (rSrc2 w) (rOp w) &&
    (usesTile || (rAddr w = 0 && rStride w = 0)) &&
    (!rSealed w || rCount w % 64 = 0) && (!rG16 w || rCount w % 2 = 0) &&
    (rOp w ≠ 3 || rG16 w) && (!(rOp w = 1 || rOp w = 2) || !rG16 w) &&
    pe o && pe (rSrc w) && (rSrc2 w = 7 || pe (rSrc2 w))

/-- The same at a router of a footprint. -/
def outRecOk (r : Run) (t : TileId) (o : Nat) (w : BitVec 64) : Bool := outRecForm (portExists r t) o w

/-- TILE_FAULT_ADDR of a refused record (R573). -/
def recFault (addr : Nat) (isOut : Bool) (port : Nat) : Nat :=
  2 ^ 9 + (addr / 8 % 2 ^ 19) * 2 ^ 12 + (if isOut then 8 else 0) + port

def Tile.setIn (x : Tile) (c : Nat) (p : InPort) : Tile := { x with exch := { x.exch with ins := sput {} c p x.exch.ins } }
def Tile.setOut (x : Tile) (o : Nat) (p : OutPort) : Tile := { x with exch := { x.exch with outs := sput {} o p x.exch.outs } }

/-- Whether the count of a fetched record agrees with what SLOTS still leaves (R237). -/
def countOk (cnt left recs : Nat) : Bool := cnt ≤ left && (recs ≠ 1 || cnt = left)

/-- RUN_RECORD_FETCH: a record that a landing of the phase writes is undefined (R18). The router fetches and checks the next
record of queue `q` in header order, 0–4 the inputs, 5–10 the outputs (R242, R573). DEDUCED, unsafe: assumption 39. -/
def execRunRecordFetch (tid : TileId) (q : Nat) (s : State) : State :=
  let x := s.tile tid
  let r := s.runOf tid
  let i := x.exch.inp q
  let p := x.exch.out (q - 5)
  let isOut : Bool := 5 ≤ q
  let recs := if isOut then p.recs else i.recs
  let a := if isOut then p.next else i.next
  let busy := if isOut then p.cur.isSome else i.cur.isSome
  if !(x.st = 3 || x.st = 4) || 11 ≤ q || recs = 0 || busy then s
  else
    let s0 := (s.readsLanding tid a 8).modTile tid (fun y => y.touch [(a, 8)])
    match x.firstBad [(a, 8)] with
    | some b => s0.raise tid tileUE false x.exchPc b
    | none =>
      let w := BitVec.ofNat 64 (leNat (senderRead tid a 8 s))
      let left := if isOut then p.slots - p.j else i.slots - i.k
      let ok := countOk (rCount w) left recs && (if isOut then outRecOk r tid (q - 5) w else inRecOk r tid q w)
      if !ok then s0.raise tid exchORDER false x.exchPc (recFault a isOut (if isOut then q - 5 else inCode q))
      else s0.modTile tid (fun y =>
        if isOut then y.setOut (q - 5) { p with cur := some ⟨w, a, 0⟩, recs := p.recs - 1, next := a + 8 }
        else y.setIn q { i with cur := some ⟨w, a, 0⟩, recs := i.recs - 1, next := a + 8 })

/-! ### Arrivals (R238, R242–R246) -/

/-- A record after one more of its flits, or none when it is complete. -/
def RunRec.step (r : RunRec) (n : Nat) : Option RunRec :=
  if r.i + n < rCount r.word then some { r with i := r.i + n } else none

/-- FLIT_ARRIVAL: the first flit at input queue `c` is checked against the ordinal it must carry; a copy enters the queue of each
output in DEST that has room, and the flit leaves once every copy has entered (R238, R245, Table 8-9). -/
def execFlitArrival (tid : TileId) (c : Nat) (s : State) : State :=
  let x := s.tile tid
  let i := x.exch.inp c
  match i.fifo with
  | [] => s
  | f :: rest =>
    let ord := f.ord.toNat
    if !(x.st = 4 || x.st = 5) || 5 ≤ c then s
    else if i.slots ≤ i.k then s.raise tid exchORDER false x.exchPc (ord * 2 ^ 24 + 2 ^ 8 + inCode c)
    else if ord ≠ i.k % 256 then
      s.raise tid exchORDER false x.exchPc (ord * 2 ^ 24 + (i.k % 256) * 2 ^ 16 + inCode c)
    else match i.cur with
      | none => s
      | some r =>
        let ds := (List.range 6).filter (fun p => (rDest r.word).testBit p)
        let q (p : Nat) : List Flit := sget [] (8 * inCode c + p) x.exch.qs
        let go := ds.filter (fun p => !i.copied.contains p && (q p).length < 4)
        let have' := i.copied ++ go
        let i1 : InPort := if ds.all have'.contains then { i with fifo := rest, k := i.k + 1, cur := r.step 1, copied := [] }
          else { i with copied := have' }
        s.modTile tid (fun y =>
          let y1 := y.setIn c i1
          let m := go.foldl (fun m p => sput [] (8 * inCode c + p) (q p ++ [f]) m) y1.exch.qs
          { y1 with exch := { y1.exch with qs := m } })

/-- A read by the TILE output itself, which sees every earlier landing of its phase (R250). -/
def inPlaceRead (x : Tile) (a n : Nat) : List Byte :=
  (List.range n).map (fun i => match (x.exch.out 4).land.reverse.find? (fun c => c.1 = a + i) with
    | some c => c.2
    | none => readByte x.shelf (a + i))

/-! ### Supplying a slot (R233, R243, R252) -/

/-- Capacity of a link input FIFO: 16 at the seam, else 4 (Table 8-9). -/
def linkCap (t : TileId) (p : Nat) : Nat := if (p = 1 && tileX t = 31) || (p = 3 && tileX t = 32) then 16 else 4

/-- The input queue at the far end of a link output. -/
def farSide (p : Nat) : Nat := (p + 2) % 4

/-- Whether the far end of an output has room. -/
def outRoom (s : State) (r : Run) (t : TileId) (o : Nat) : Bool :=
  if o < 4 then match neighbour r t o with
    | some u => ((s.tile u).exch.inp (farSide o)).fifo.length < linkCap t o
    | none => false
  else true

/-- A flit leaves through a link or ATTACH output. -/
def deliver (r : Run) (t : TileId) (o : Nat) (f : Flit) (s : State) : State :=
  if o < 4 then match neighbour r t o with
    | some u => s.modTile u (fun y =>
        let i := y.exch.inp (farSide o)
        y.setIn (farSide o) { i with fifo := i.fifo ++ [f] })
    | none => s
  else
    let a := s.armLink t
    s.setArmLink t { a with fromRouter := a.fromRouter ++ [f] }

/-- The flits of queue (input code, output). -/
def Exch.queue (e : Exch) (c o : Nat) : List Flit := sget [] (8 * c + o) e.qs

/-- Take `n` flits off queue (input code, output). -/
def Tile.dropQ (x : Tile) (c o n : Nat) : Tile :=
  { x with exch := { x.exch with qs := sput [] (8 * c + o) ((x.exch.queue c o).drop n) x.exch.qs } }

/-- A block as its two flits, the header in AUX of the first (R251, R574). -/
def blockFlits (b : List Byte) : BitVec 512 × BitVec 512 × BitVec 32 :=
  (bytesFlit (b.take 64), bytesFlit ((b.drop 64).take 64), BitVec.ofNat 32 (leNat (b.drop 128)))

/-- A block from its two flits. -/
def flitsBlock (f g : Flit) : List Byte := flitBytes f.data ++ flitBytes g.data ++ leBytes 2 (f.aux.toNat % 2 ^ 16)

/-- A CRC that starts again with each sealed unit. -/
def unitCrc (u : Nat) (crc : BitVec 32) (l : List Byte) : BitVec 32 := crcStep (if u = 0 then 0xFFFFFFFF else crc) l

/-- Send one slot of an output: the flit gets its ORD, the table advances. -/
def sendSlot (r : Run) (t : TileId) (o : Nat) (p : OutPort) (rec : RunRec) (data : BitVec 512) (aux : BitVec 32)
    (s : State) : State :=
  deliver r t o ⟨data, BitVec.ofNat 8 p.j, aux⟩
    (s.modTile t (fun y => y.setOut o { p with j := p.j + 1, cur := rec.step 1 }))

/-- A slot that the tile's shelves supply (R252, R574). -/
def sendFromTile (r : Run) (t : TileId) (o : Nat) (p : OutPort) (rec : RunRec) (s : State) : State :=
  let x := s.tile t
  let w := rec.word
  let u := rec.i % 64
  let last := rSealed w && u = 63
  match p.stash with
  | some f => sendSlot r t o { p with stash := none } rec f.data (if last then crcEnd p.crc else f.aux) s
  | none =>
    if !addrIn w rec.i then s.raise t tileADDR false x.exchPc (faultAddr (flitAddr w rec.i))
    else
      let a := (flitAddr w rec.i).toNat
      let n := flitLen w
      let s0 := s.modTile t (fun y => y.touch [(a, n)])
      match x.firstBad [(a, n)] with
      | some b => s0.raise t tileUE false x.exchPc b
      | none =>
        let b := senderRead t a n s
        let s1 := s0.readsLanding t a n
        let crc := unitCrc u p.crc b
        if rG16 w then
          let fs := blockFlits b
          sendSlot r t o { p with crc := crc, stash := some ⟨fs.2.1, 0, 0⟩ } rec fs.1 fs.2.2 s1
        else sendSlot r t o { p with crc := crc } rec (bytesFlit b) (if last then crcEnd crc else 0) s1

/-- SLOT_SEND: a link or ATTACH output supplies its next slot as a move, from the shelves or from an input whose flit
has come (R243, Table 8-8). -/
def execSlotSend (tid : TileId) (o : Nat) (s : State) : State :=
  let x := s.tile tid
  let r := s.runOf tid
  let p := x.exch.out o
  match p.cur with
  | none => s
  | some rec =>
    if x.st ≠ 4 || o = 4 || rOp rec.word ≠ 0 || !outRoom s r tid o then s
    else
      let c := rSrc rec.word
      if c = 4 then sendFromTile r tid o p rec s
      else match x.exch.queue c o with
        | [] => s
        | f :: _ => sendSlot r tid o p rec f.data f.aux (s.modTile tid (fun y => y.dropQ c o 1))

/-! ### Landings (R247–R250, R574) -/

/-- The byte ranges that a list of written bytes makes up. -/
def rangesOf (l : List (Nat × Byte)) : List (Nat × Nat) :=
  l.foldr (fun c acc => match acc with
    | (a, n) :: r => if c.1 + 1 = a then (c.1, n + 1) :: r else (c.1, 1) :: acc
    | [] => [(c.1, 1)]) []

/-- Land bytes in the shelves and note the ranges that they fill. -/
def landBytes (tid : TileId) (l : List (Nat × Byte)) (s : State) : State :=
  s.modTile tid (fun x =>
    let y := x.put l
    { y with exch := { y.exch with landed := y.exch.landed ++ rangesOf l } })

/-- Check one flit or block at the TILE output before it lands: the shelves (R574), the zones (R249) and, where it lands at once, a
merge into an uncorrectable word. R219 says that landings cover whole words, which a G16 block of R574 need not: the words that it
covers in part are merged. DESIGN CHOICE, unsafe: assumption 73. -/
def landFault (x : Tile) (w : BitVec 64) (i : Nat) : Option (Nat × Nat) :=
  let a := flitAddr w i
  if !addrIn w i then some (tileADDR, faultAddr a)
  else if !inZone x.exch a.toNat (flitLen w) then some (exchZONE, a.toNat)
  else if rSealed w then none
  else (x.badMerge ((List.range (flitLen w)).map (a.toNat + ·))).map (fun b => (tileUE, b))

/-- A landing that fails its check raises its fault; a merge read has met the word that it names (R217, R219). -/
def State.raiseLanding (s : State) (tid : TileId) (f : Nat × Nat) : State :=
  (if f.1 = tileUE then s.modTile tid (fun y => y.touch [(f.2, 8)]) else s).raise tid f.1 false (s.tile tid).exchPc f.2

/-- A sealed unit that has passed its check lands, unless a word that it covers in part reads uncorrectable (R219, R508). -/
def landUnit (tid : TileId) (l : List (Nat × Byte)) (p : OutPort) (s : State) : State :=
  match (s.tile tid).badMerge (l.map (·.1)) with
  | some a => s.raiseLanding tid (tileUE, a)
  | none => landBytes tid l (s.modTile tid (fun y => y.setOut 4 p))

/-- Write what a slot of the TILE output brings: at once, or with its sealed unit when that has passed its check. `n`
slots are done; `okSeal` is the check of the unit's operands at its last slot. -/
def landSlot (tid : TileId) (p : OutPort) (rec : RunRec) (n : Nat) (b : List Byte) (okSeal : Bool) (s : State) : State :=
  let w := rec.word
  let a := (flitAddr w rec.i).toNat
  let u := rec.i % 64
  let p1 := { p with j := p.j + n, cur := rec.step n }
  if !rSealed w then landBytes tid (at' a b) (s.modTile tid (fun y => y.setOut 4 p1))
  else if u + n = 64 then
    (if okSeal then landUnit tid (p.land ++ at' a b) { p1 with land := [] } s
     else s.sealMismatch tid (faultAddr (flitAddr w (rec.i - u))))
  else s.modTile tid (fun y => y.setOut 4 { p1 with land := p.land ++ at' a b })

/-- FLIT_LANDING: the TILE output takes the next flit, or pair of a G16 block, that its source has routed to it, checks
it and writes it (R249, R252, R508). -/
def execFlitLanding (tid : TileId) (s : State) : State :=
  let x := s.tile tid
  let p := x.exch.out 4
  match p.cur with
  | none => s
  | some rec =>
    let w := rec.word
    let c := rSrc w
    let q := x.exch.queue c 4
    let n := if rG16 w then 2 else 1
    if x.st ≠ 4 || rOp w ≠ 0 || q.length < n then s
    else match landFault x w rec.i with
      | some f => s.raiseLanding tid f
      | none =>
        let f0 := q.headD ⟨0, 0, 0⟩
        let f1 := (q.drop (n - 1)).headD f0
        let b := if rG16 w then flitsBlock f0 f1 else flitBytes f0.data
        let crc := unitCrc (rec.i % 64) p.crcA b
        landSlot tid { p with crcA := crc } rec n b (crcEnd crc = f1.aux) (s.modTile tid (fun y => y.dropQ c 4 n))

/-! ### In-network adds (R207, R250–R252) -/

/-- The sum of two flits or blocks (Table 6-5). -/
def addBytes (op : Nat) (a b : List Byte) : List Byte :=
  if op = 3 then ((g16From a).add (g16From b)).bytes130 else lanesOp (if op = 1 then 1 else 3) 1 a b

/-- What the joining contribution of an add is: none while it has not come; a fault of its shelf read; or its bytes,
its AUX at a unit's last slot, and the shelf range read. -/
inductive Joining where
  | wait
  | fault (code addr : Nat)
  | ready (b : List Byte) (aux : BitVec 32) (range : List (Nat × Nat))
  deriving DecidableEq, Repr

/-- The flits of an operand as bytes, with the AUX of the last. -/
def takeOperand (q : List Flit) (g : Bool) : List Byte × BitVec 32 :=
  let f0 := q.headD ⟨0, 0, 0⟩
  let f1 := (q.drop 1).headD f0
  if g then (flitsBlock f0 f1, f1.aux) else (flitBytes f0.data, f0.aux)

def joining (tid : TileId) (o : Nat) (rec : RunRec) (s : State) : Joining :=
  let x := s.tile tid
  let w := rec.word
  let n := if rG16 w then 2 else 1
  if rSrc2 w = 4 then
    let a := (flitAddr w rec.i).toNat
    if !addrIn w rec.i then .fault tileADDR (faultAddr (flitAddr w rec.i))
    else if o = 4 && !inZone x.exch a (flitLen w) then .fault exchZONE a
    else match x.firstBad [(a, flitLen w)] with
      | some b => .fault tileUE b
      | none => .ready (if o = 4 then inPlaceRead x a (flitLen w) else senderRead tid a (flitLen w) s) 0 [(a, flitLen w)]
  else
    let q := x.exch.queue (rSrc2 w) o
    if q.length < n then .wait else .ready (takeOperand q (rG16 w)).1 (takeOperand q (rG16 w)).2 []

/-- Where a seal mismatch of an add's operand is reported (R511). -/
def addSealAddr (o : Nat) (rec : RunRec) (port : Nat) : Nat :=
  if o = 4 then faultAddr (flitAddr rec.word (rec.i - rec.i % 64)) else 2 ^ 30 + port

/-- The second operand of an add mismatches in the same beat as the first: it counts, causes a record of its own (R511), and is a
second fault of its tile in the beat (R66). -/
def State.secondSeal (s : State) (tid : TileId) (addr : Nat) : State :=
  (({ s with integ := { s.integ with sealErr := satInc s.integ.sealErr } } : State).report 1 sealFAULT tid.toNat
    (s.runOf tid).part (s.tile tid).task (s.tile tid).sstep.toNat addr 0).raise tid sealFAULT true (s.tile tid).exchPc addr

/-- IN_NETWORK_ADD: an add record takes its two operands, checks their seals at the end of a sealed unit, and sends or
lands their sum with a fresh seal; the second flit of a G16 result follows in the next slot (R243, R251, R252). -/
def execInNetworkAdd (tid : TileId) (o : Nat) (s : State) : State :=
  let x := s.tile tid
  let r := s.runOf tid
  let p := x.exch.out o
  match p.cur with
  | none => s
  | some rec =>
    let w := rec.word
    let g := rG16 w
    let n := if g then 2 else 1
    let u := rec.i % 64
    let c := rSrc w
    let q := x.exch.queue c o
    if x.st ≠ 4 || rOp w = 0 || 6 ≤ o || !outRoom s r tid o then s
    else match p.stash with
      | some f =>
        sendSlot r tid o { p with stash := none } rec f.data (if rSealed w && u = 63 then crcEnd p.crc else f.aux) s
      | none =>
        if q.length < n then s
        else match joining tid o rec s with
          | .wait => s
          | .fault code addr => (s.modTile tid (fun y => y.touch [((flitAddr w rec.i).toNat, flitLen w)])).raise tid code false x.exchPc addr
          | .ready b auxB rd =>
            match (if o = 4 then landFault x w rec.i else none) with
            | some f => s.raiseLanding tid f
            | none =>
              let a := takeOperand q g
              let crcA := unitCrc u p.crcA a.1
              let crcB := unitCrc u p.crcB b
              let sum := addBytes (rOp w) a.1 b
              let p1 := { p with crcA := crcA, crcB := crcB, crc := unitCrc u p.crc sum }
              let endUnit := rSealed w && u + n = 64
              let badA := endUnit && crcEnd crcA ≠ a.2
              let badB := endUnit && rSrc2 w ≠ 4 && crcEnd crcB ≠ auxB
              let s1 : State := { s with undef := s.undef + (if o ≠ 4 && rd.any (fun z => landsOn x z.1 z.2) then 1 else 0) }
              let s2 := s1.modTile tid (fun y =>
                let y1 := (y.touch rd).dropQ c o n
                if rSrc2 w = 4 then y1 else y1.dropQ (rSrc2 w) o n)
              if badA then
                let s3 := s.sealMismatch tid (addSealAddr o rec c)
                if badB then s3.secondSeal tid (addSealAddr o rec (rSrc2 w)) else s3
              else if badB then s.sealMismatch tid (addSealAddr o rec (rSrc2 w))
              else if o = 4 then landSlot tid p1 rec n sum true s2
              else if g then
                let fs := blockFlits sum
                sendSlot r tid o { p1 with stash := some ⟨fs.2.1, 0, 0⟩ } rec fs.1 fs.2.2 s2
              else sendSlot r tid o p1 rec (bytesFlit sum) (if endUnit then crcEnd p1.crc else 0) s2

/-! ### The barriers of a superstep (R15, R247, R279) -/

/-- Whether a router has completed every input and output record and every landing, and the base die has written what
its ATTACH output sent (R247, R337). -/
def exchDone (s : State) (tid : TileId) : Bool :=
  let e := (s.tile tid).exch
  (List.range 5).all (fun c => (e.inp c).recs = 0 && (e.inp c).cur = none) &&
    (List.range 6).all (fun o => (e.out o).recs = 0 && (e.out o).cur = none) &&
    (s.armLink tid).fromRouter = []

/-- EXCHANGE_PHASE_END: a tile whose exchange has completed arrives at the exchange barrier (R247, R49). -/
def execExchangePhaseEnd (tid : TileId) (s : State) : State :=
  let x := s.tile tid
  if x.st = 4 && exchDone s tid then
    s.setTile tid { x with st := 5, since := s.beats tid, feeders := [] }
  else s

/-- Whether every tile of a footprint satisfies a condition. -/
def allTiles (r : Run) (s : State) (f : Tile → Bool) : Bool := r.tiles.all (fun t => f (s.tile t))

/-- COMPUTE_BARRIER_RELEASE: every tile of task `k` has arrived; the exchange phase starts, with ordinals from 0 (R15,
R233, R279). -/
def execComputeBarrierRelease (k : Nat) (s : State) : State :=
  let r := s.run k
  if sget false k s.live && allTiles r s (fun x => x.st = 3 && x.task = k) then
    r.tiles.foldl (fun s' t =>
      let a := s'.armLink t
      (s'.setArmLink t { a with kIn := 0, kOut := 0 }).modTile t
        (fun x => { x with st := 4, since := s'.beats t })) s
  else s

/-- Instruction-buffer lines that a landing touched are emptied (R107). -/
def dropLines (landed : List (Nat × Nat)) (m : Sparse IbufLine) : Sparse IbufLine :=
  m.filter (fun e => match e.2.block with
    | some b => !landed.any (meets (256 * b, 256))
    | none => true)

/-- Sentinel share D of an INTEG setting: 0 for Seals only (R512). -/
def sentinelD (mode : BitVec 32) : Nat :=
  let v := bits mode.toNat 28 27
  if v = 1 then 64 else if v = 2 then 16 else 0

/-- Whether an arm is pending in a footprint: in a copy queue or at a base die (R334). -/
def armPending (r : Run) (s : State) : Bool :=
  r.tiles.any (fun t => (s.tile t).copies.any (fun d => isArm d.op) || (s.armLink t).ins ≠ [] || (s.armLink t).outs ≠ [])

/-- EXCHANGE_BARRIER_RELEASE: every tile of task `k` has arrived and every sentinel comparison is done (R514). Where a
re-bind will save the task, the Sideboard holds the release for its save point, unless an arm is pending (R452). The
superstep serial advances, staged settings take effect (R65, R544), and the next compute phase starts. The release after
the last superstep is the task's end (R24). -/
def execExchangeBarrierRelease (k : Nat) (s : State) : State :=
  let r := s.run k
  let fifosEmpty (x : Tile) : Bool := (List.range 5).all (fun c => (x.exch.inp c).fifo = [])
  if sget false k s.live && allTiles r s (fun x => x.st = 5 && x.task = k && x.sent = [] && fifosEmpty x)
      && !allTiles r s (fun x => x.exch.last) && !(s.rebind.saving.any (fun c => c.1 = k) && !armPending r s) then
    (r.tiles.foldl (fun s' t => (boundary t s').modTile t (fun x =>
      { x with
        st := 2
        since := s'.beats t
        sstep := x.sstep + 1
        ibuf := dropLines x.exch.landed x.ibuf
        rowNum := 0
        wordNum := 0
        exch := { issued := x.exch.last, last := x.exch.last } })) s).modRun k
          (fun q => { q with sentD := sentinelD (s.part r.part).mode })
  else s

end Sys2Proof.Machine
end

