-- ==== Sys2Proof/Machine/Engine.lean ====
section
/-!
DEFINITION. Update engines (Chapter 12): job descriptors and microprograms, the checks of a job, its parts, the words of a
microprogram, reductions, the end of a job, and the actions of UE_CTL, UE_PROG_DATA and UE_DOORBELL.
-/
namespace Sys2Proof.Machine

/-! ### Job descriptors (Table 12-4) -/

def jobWord (j : Job) (i : Nat) : Nat := (j[i]?.getD 0).toNat
def jobEntry (j : Job) : Nat := bits (jobWord j 0) 31 24
def jobNstr (j : Job) : Nat := bits (jobWord j 0) 23 20
def jobWaitEn (j : Job) : Bool := bits (jobWord j 1) 31 31 = 1
def jobSigEn (j : Job) : Bool := bits (jobWord j 1) 30 30 = 1
def jobWaitVid (j : Job) : Nat := bits (jobWord j 1) 23 12
def jobSigVid (j : Job) : Nat := bits (jobWord j 1) 11 0
def jobTarget (j : Job) : BitVec 32 := BitVec.ofNat 32 (jobWord j 2)
def jobRedVid (j : Job) : Nat := bits (jobWord j 3) 11 0
def jobNelem (j : Job) : Nat := jobWord j 4
def jobElem0 (j : Job) : Nat := jobWord j 5 + 2 ^ 32 * jobWord j 6
def jobSeed (j : Job) : Nat := jobWord j 7 + 2 ^ 32 * jobWord j 8
def jobStream (j : Job) : Nat := jobWord j 9
def strAddr (j : Job) (n : Nat) : Nat := jobWord j (26 + 2 * n) + 2 ^ 32 * bits (jobWord j (27 + 2 * n)) 8 0
def strFmt (j : Job) (n : Nat) : Nat := bits (jobWord j (27 + 2 * n)) 31 28
def strOut (j : Job) (n : Nat) : Bool := bits (jobWord j (27 + 2 * n)) 27 27 = 1

/-- Groups of 64 elements. -/
def jobGroups (j : Job) : Nat := (jobNelem j + 63) / 64

/-- Element size of a stream format: 4 bytes for FP32, else 2 (R372). -/
def strSize (fmt : Nat) : Nat := if fmt = 1 then 4 else 2

/-- Bytes that a stream occupies (R372). -/
def strBytes (j : Job) (n : Nat) : Nat :=
  if strFmt j n = 0xD then 130 * jobGroups j else strSize (strFmt j n) * jobNelem j

/-- Whether partition address `a` lies in more than one stream of the job (R377). -/
def overlapped (j : Job) (a : Nat) : Bool :=
  1 < ((List.range (min (jobNstr j) 8)).filter (fun n => strAddr j n ≤ a && a < strAddr j n + strBytes j n)).length

/-! ### Microprogram words (Table 12-5) -/

def uOp (w : BitVec 32) : Nat := bits w.toNat 31 26
def uD (w : BitVec 32) : Nat := bits w.toNat 25 22
def uA (w : BitVec 32) : Nat := bits w.toNat 21 18
def uB (w : BitVec 32) : Nat := bits w.toNat 17 14
def uC (w : BitVec 32) : Nat := bits w.toNat 13 10
def uBS (w : BitVec 32) : Bool := w.getLsbD 9
def uCS (w : BitVec 32) : Bool := w.getLsbD 8
def uS (w : BitVec 32) : Nat := bits w.toNat 7 5
def uRM (w : BitVec 32) : Nat := bits w.toNat 4 3
def uMode (w : BitVec 32) : Nat := bits w.toNat 2 0

/-- The program from ENTRY to its END; none where no END follows within the program memory (R374). -/
def progOf (e : Engine) (entry : Nat) : Option (List (BitVec 32)) :=
  let l := (List.range (256 - entry)).map (fun i => sget 0 (entry + i) e.prog)
  match l.findIdx? (fun w => uOp w = 2) with
  | none => none
  | some i => some (l.take (i + 1))

/-- Whether a word keeps the encoding rules of Tables 12-2, 12-5 and 12-6 and the streams of the job (R373). -/
def uWordOk (j : Job) (w : BitVec 32) : Bool :=
  uOp w ≤ 0x15
    && !(uOp w = 0x11 && 3 < uMode w)
    && !(uOp w = 0x14 && uMode w % 4 = 3)
    && !(uOp w = 0x15 && uMode w = 7)
    && !((uOp w = 3 || uOp w = 4) && jobNstr j ≤ uS w)
    && !(uOp w = 4 && !strOut j (uS w))

/-- Words that the PRE part may hold: NOP, SOP, RED and XCLR (R374). -/
def preOk (w : BitVec 32) : Bool := uOp w = 0 || uOp w = 0x13 || uOp w = 0x14 || uOp w = 0x15

/-- Words that the body may hold (R374). DEDUCED, unsafe: assumption 40. -/
def bodyOk (w : BitVec 32) : Bool := uOp w ≠ 1 && uOp w ≠ 2

/-- Whether a program is well formed: PRE, BODY, body, END (R374). -/
def progOk (j : Job) (l : List (BitVec 32)) : Bool :=
  l.all (uWordOk j) &&
    match l.findIdx? (fun w => uOp w = 1) with
    | none => false
    | some b => (l.take b).all preOk && ((l.drop (b + 1)).dropLast).all bodyOk

/-- Whether a program contains RED. -/
def hasRed (e : Engine) (entry : Nat) : Bool :=
  ((progOf e entry).getD []).any (fun w => uOp w = 0x14)

/-! ### Registers of an engine -/

def Engine.lane (e : Engine) (r l : Nat) : Nat := (sget 0 (64 * r + l) e.es).toNat
def Engine.setLane (e : Engine) (r l v : Nat) : Engine := { e with es := sput 0 (64 * r + l) (BitVec.ofNat 32 v) e.es }
def Engine.p (e : Engine) (r : Nat) : Nat := (sget 0 r e.ps).toNat
def Engine.setP (e : Engine) (r v : Nat) : Engine := { e with ps := sput 0 r (BitVec.ofNat 32 v) e.ps }
def Engine.x (e : Engine) (r : Nat) : XAcc := sget {} r e.xs
def Engine.setX (e : Engine) (r : Nat) (v : XAcc) : Engine := { e with xs := sput {} r v e.xs }

/-- Active lanes of group `g` (R376). -/
def activeLanes (j : Job) (g : Nat) : Nat := min 64 (jobNelem j - 64 * g)

/-- The B source of a lane: e[B], or P[B] broadcast. -/
def Engine.srcB (e : Engine) (w : BitVec 32) (l : Nat) : Nat := if uBS w then e.p (uB w) else e.lane (uB w) l

/-- The C source of a lane. -/
def Engine.srcC (e : Engine) (w : BitVec 32) (l : Nat) : Nat := if uCS w then e.p (uC w) else e.lane (uC w) l

/-- Write e[D] in every active lane. -/
def Engine.mapLanes (j : Job) (w : BitVec 32) (f : Nat → Nat) (e : Engine) : Engine :=
  (List.range (activeLanes j e.group)).foldl (fun e' l => e'.setLane (uD w) l (f l)) e

/-! ### Faults (R373, R378) -/

def ueOP : Nat := 1
def ueADDR : Nat := 2
def ueXLATE : Nat := 3
def uePOISON : Nat := 4
def ueRED : Nat := 5

def State.engine (s : State) (k : Nat) : Engine := (s.stack k).eng
def State.setEngine (s : State) (k : Nat) (e : Engine) : State := s.modStack k (fun x => { x with eng := e })
def State.modEngine (s : State) (k : Nat) (f : Engine → Engine) : State := s.setEngine k (f (s.engine k))

/-- The job ends with a fault: the group in progress is not written, the engine halts, and a fault record follows
(R378). -/
def State.ueFault (s : State) (k code : Nat) : State :=
  let x := s.stack k
  let e := x.eng
  (s.setEngine k { e with
    queue := e.queue.drop 1
    phase := 0
    writes := []
    reducing := none
    total := none
    halted := true
    faultValid := true
    faultCode := BitVec.ofNat 8 code
    faultGroup := BitVec.ofNat 32 e.group }).report 4 code k (x.owner.getD 0xFF) 0 0 0 0

/-! ### The start of a job (R370, R373) -/

/-- Whether a live scalar descriptor in a port of the partition binds an object (R361). -/
def State.scalarBound (s : State) (part o : Nat) : Bool :=
  s.ports.any (fun c => c.2.owner = some part && c.2.colls.any (fun d =>
    d.2.w0.getLsbD 31 && d.2.state ≠ 3 && bits d.2.w0.toNat 30 28 = 3 && d.2.trigObj = o))

/-- First physical index of the objects held at the root (Table 9-2). -/
def rootBase : Nat := 28672

/-- Whether every byte of a stream lies in the partition on stack `k` (R373). -/
def strOnStack (s : State) (k part a n : Nat) : Bool :=
  n = 0 || (s.inPart part a n && oneStack s part a n && (match s.hbmMap part a with | some (k', _) => k' = k | none => false))

/-- Whether a stream is well formed and lies where it must (R373). -/
def strOk (s : State) (k part : Nat) (j : Job) (n : Nat) : Bool :=
  strOnStack s k part (strAddr j n) (strBytes j n)
    && strAddr j n % strSize (strFmt j n) = 0 && !(strFmt j n = 0xD && strOut j n)

/-- The fault of step 1, if any (R373). -/
def jobFault (s : State) (k : Nat) (j : Job) : Option Nat :=
  let x := s.stack k
  let part := x.owner.getD 0
  let red := hasRed x.eng (jobEntry j)
  let un (b : Bool) (v : Nat) : Bool := b && (s.translate part v).isNone
  if un (jobWaitEn j) (jobWaitVid j) || un (jobSigEn j) (jobSigVid j) || un red (jobRedVid j) then some ueXLATE
  else
    let o := (s.translate part (jobRedVid j)).getD 0
    let lamp := (s.xlateEntry part (jobRedVid j)).getLsbD 30
    if red && (o < rootBase || (lamp && !s.scalarBound part o)) then some ueRED
    else match progOf x.eng (jobEntry j) with
      | none => some ueOP
      | some l =>
        if !progOk j l || 8 < jobNstr j
            || (List.range (min 8 (jobNstr j))).any (fun n => !([0x1, 0x3, 0x4, 0xD].contains (strFmt j n))) then some ueOP
        else if (List.range (jobNstr j)).any (fun n => !strOk s k part j n) then some ueADDR
        else none

/-- Steps 2 and 3: once the object of WAIT_VID is at or past its target, zero e0–e15, load P0–P15 and start PRE. -/
def jobBegin (k : Nat) (j : Job) (s : State) : State :=
  let e := s.engine k
  if jobWaitEn j && !atOrPast (s.obj e.waitObj).value (jobTarget j) then s
  else
    s.setEngine k { e with
      phase := 2
      ip := jobEntry j
      es := []
      ps := (List.range 16).foldl (fun m i => sput 0 i (BitVec.ofNat 32 (jobWord j (10 + i))) m) []
      key := deriveKey (jobSeed j) (jobStream j) }

/-- UE_JOB_START: the engine takes the next queued job, translates its IDs and checks it (R373), then waits and starts
its PRE part; a job that waits is looked at again (R370). -/
def ueJobStart (k : Nat) (s : State) : State :=
  let x := s.stack k
  let e := x.eng
  match e.queue with
  | [] => s
  | j :: _ =>
    if e.halted || s.dim.banked then s
    else if e.phase = 1 then jobBegin k j s
    else if e.phase ≠ 0 then s
    else
      let s0 := s.setEngine k { e with group := 0 }
      match jobFault s k j with
      | some c => s0.ueFault k c
      | none =>
        let part := x.owner.getD 0
        let tr (v : Nat) : Nat := (s.translate part v).getD 0
        jobBegin k j (s.setEngine k { e with
          group := 0
          phase := 1
          waitObj := tr (jobWaitVid j)
          sigObj := tr (jobSigVid j)
          redObj := tr (jobRedVid j)
          redLamp := (s.xlateEntry part (jobRedVid j)).getLsbD 30 })

/-! ### Words of the microprogram (Table 12-6) -/

/-- Run a word on the engine's registers when it is the next word of the job, and advance. -/
def ueStep (k op : Nat) (f : Job → BitVec 32 → Engine → Engine) (s : State) : State :=
  let e := s.engine k
  match e.queue with
  | [] => s
  | j :: _ =>
    let w := sget 0 e.ip e.prog
    if (e.phase = 2 || e.phase = 3) && e.reducing.isNone && uOp w = op then
      s.setEngine k { f j w e with ip := e.ip + 1 }
    else s

/-- A two-operand FP32 word. -/
def ueBin (f : Fx → Fx → Fx) (j : Job) (w : BitVec 32) (e : Engine) : Engine :=
  e.mapLanes j w (fun l => r32 (f (f32 (e.lane (uA w) l)) (f32 (e.srcB w l))))

/-- A one-operand FP32 word on e[A]. -/
def ueUn (f : Fx → Fx) (j : Job) (w : BitVec 32) (e : Engine) : Engine :=
  e.mapLanes j w (fun l => r32 (f (f32 (e.lane (uA w) l))))

def ueNop (k : Nat) (s : State) : State := ueStep k 0x00 (fun _ _ e => e) s
def ueMov (k : Nat) (s : State) : State := ueStep k 0x05 (fun j w e => e.mapLanes j w (e.srcB w)) s
def ueAdd (k : Nat) (s : State) : State := ueStep k 0x06 (ueBin Fx.add) s
def ueSub (k : Nat) (s : State) : State := ueStep k 0x07 (ueBin Fx.sub) s
def ueMul (k : Nat) (s : State) : State := ueStep k 0x08 (ueBin Fx.mul) s
/-- e[A] × B + C, rounded once. -/
def ueFma (k : Nat) (s : State) : State :=
  ueStep k 0x09 (fun j w e => e.mapLanes j w (fun l =>
    r32 (((f32 (e.lane (uA w) l)).mul (f32 (e.srcB w l))).add (f32 (e.srcC w l))))) s
def ueDiv (k : Nat) (s : State) : State := ueStep k 0x0A (ueBin Fx.div) s
def ueSqrt (k : Nat) (s : State) : State := ueStep k 0x0B (ueUn Fx.sqrt) s
def ueMin (k : Nat) (s : State) : State := ueStep k 0x0C (ueBin Fx.minNum) s
def ueMax (k : Nat) (s : State) : State := ueStep k 0x0D (ueBin Fx.maxNum) s
def ueAbs (k : Nat) (s : State) : State := ueStep k 0x0E (ueUn Fx.abs) s
def ueNeg (k : Nat) (s : State) : State := ueStep k 0x0F (ueUn Fx.neg) s
def ueSel (k : Nat) (s : State) : State :=
  ueStep k 0x10 (fun j w e => e.mapLanes j w (fun l =>
    if (f32 (e.lane (uA w) l)).isZero then e.srcC w l else e.srcB w l)) s

/-- The relation of CMP; a NaN compares false, except under ne. -/
def ueRel (mode : Nat) (a b : Fx) : Bool :=
  match mode with
  | 0 => a.eq b
  | 1 => a.lt b
  | 2 => a.lt b || a.eq b
  | _ => !a.eq b

def ueCmp (k : Nat) (s : State) : State :=
  ueStep k 0x11 (fun j w e => e.mapLanes j w (fun l =>
    if ueRel (uMode w) (f32 (e.lane (uA w) l)) (f32 (e.srcB w l)) then 0x3F800000 else 0)) s

/-- Add the exact square of a value; NaN and infinities stay (R375). -/
def XAcc.addSq (x : XAcc) (v : Fx) : XAcc :=
  match v with
  | .nan => { x with nan := true }
  | .inf _ => { x with inf := true }
  | .fin _ m e => x.add (m * m) (2 * e)

def ueAccsq (k : Nat) (s : State) : State :=
  ueStep k 0x12 (fun j w e =>
    e.setX (uS w) ((List.range (activeLanes j e.group)).foldl (fun x l => x.addSq (f32 (e.lane (uA w) l))) (e.x (uS w)))) s

def ueXclr (k : Nat) (s : State) : State := ueStep k 0x13 (fun _ w e => e.setX (uS w) {}) s

/-- The function of SOP. -/
def sopFn (mode a b : Nat) : Nat :=
  match mode with
  | 0 => fadd32 a b
  | 1 => fsub32 a b
  | 2 => fmul32 a b
  | 3 => fdiv32 a b
  | 4 => r32 (f32 a).sqrt
  | 5 => r32 ((f32 a).minNum (f32 b))
  | _ => r32 ((f32 a).maxNum (f32 b))

def ueSop (k : Nat) (s : State) : State :=
  ueStep k 0x15 (fun _ w e => e.setP (uD w) (sopFn (uMode w) (e.p (uA w)) (e.p (uB w)))) s

/-- The next word, when it is `op` and the engine may run it. -/
def ueNext (k op : Nat) (s : State) : Option (Job × BitVec 32) :=
  let e := s.engine k
  match e.queue with
  | [] => none
  | j :: _ =>
    let w := sget 0 e.ip e.prog
    if (e.phase = 2 || e.phase = 3) && e.reducing.isNone && uOp w = op then some (j, w) else none

/-- BODY ends PRE and starts the body at group 0; a job without elements goes to its end (R370). -/
def ueBody (k : Nat) (s : State) : State :=
  match ueNext k 1 s with
  | none => s
  | some (j, _) => s.modEngine k (fun e =>
      { e with ip := e.ip + 1, bodyIp := e.ip + 1, phase := if jobNelem j = 0 then 4 else 3, group := 0 })

/-- Advance past the word in progress. -/
def ueAdvance (k : Nat) (s : State) : State := s.modEngine k (fun e => { e with ip := e.ip + 1 })

/-- Bytes of a stream as read: bytes in an overlap of streams are undefined (R377). -/
def strRead (k : Nat) (j : Job) (x : Stack) (a l n : Nat) : List Byte :=
  (List.range n).map (fun i =>
    if overlapped j (a + i) then Config.overlapByte k x.eng.group (a + i) else x.byte k (l + i))

/-- Flags of a loaded G16 block, counted (R368). -/
def Engine.countFlags (e : Engine) (b : G16) : Engine :=
  { e with
    hole := if b.flags.testBit 0 then satInc e.hole else e.hole
    late := if b.flags.testBit 1 then satInc e.late else e.late
    satblk := if b.flags.testBit 2 then satInc e.satblk else e.satblk }

/-- LDS, held while the stack re-keys (R351): e[D] takes the group's elements of stream S as FP32, +0 in inactive lanes; a
poisoned unit ends the job (R376, R378). -/
def ueLds (k : Nat) (s : State) : State :=
  match (if (s.stack k).rekeying then none else ueNext k 3 s) with
  | none => s
  | some (j, w) =>
    let g := (s.engine k).group
    let n := uS w
    let fmt := strFmt j n
    let act := activeLanes j g
    let sz := strSize fmt
    let a := strAddr j n + (if fmt = 0xD then 130 * g else sz * (64 * g))
    let len := if fmt = 0xD then 130 else sz * act
    let loc := ((s.hbmMap ((s.stack k).owner.getD 0) a).getD (k, 0)).2
    let us := unitsOf loc len
    let s1 := s.readUnits k us
    let x := s1.stack k
    if x.anyPoison us then s1.ueFault k uePOISON
    else
      let b := strRead k j x a loc len
      let v (l : Nat) : Nat :=
        if act ≤ l then 0
        else if fmt = 0xD then r32 ((g16From b).value l)
        else if fmt = 1 then leNat ((b.drop (4 * l)).take 4)
        else r32 (elemFx fmt (leNat ((b.drop (2 * l)).take 2)))
      let e1 := if fmt = 0xD then x.eng.countFlags (g16From b) else x.eng
      ueAdvance k (s1.setEngine k ((List.range 64).foldl (fun e' l => e'.setLane (uD w) l (v l)) e1))

/-- The rounding of STS for element index `n` (R376). -/
def stsRnd (e : Engine) (rm n : Nat) : Rnd :=
  rndOf rm (rndBits rm (genOut false e.key (BitVec.ofNat 128 (n / 32))) (n % 32))

/-- STS: the active lanes of e[A], converted to the stream's format, join the group's writes (R376, R377). -/
def ueSts (k : Nat) (s : State) : State :=
  match ueNext k 4 s with
  | none => s
  | some (j, w) =>
    let e := s.engine k
    let n := uS w
    let fmt := strFmt j n
    let sz := strSize fmt
    let a := strAddr j n + sz * (64 * e.group)
    let loc := ((s.hbmMap ((s.stack k).owner.getD 0) a).getD (k, 0)).2
    let code (l : Nat) : Nat :=
      if fmt = 1 then e.lane (uA w) l
      else toElem fmt (stsRnd e (uRM w) (jobElem0 j + 64 * e.group + l)) (f32 (e.lane (uA w) l))
    let bs := (List.range (activeLanes j e.group)).flatMap (fun l =>
      (leBytes sz (code l)).zipIdx.map (fun c =>
        let o := sz * l + c.2
        (loc + o, if overlapped j (a + o) then Config.overlapByte k e.group (a + o) else c.1)))
    ueAdvance k (s.setEngine k { e with writes := e.writes ++ bs })

/-- Units that writes cover in part. -/
def partialUnits (l : List (Nat × Byte)) : List Nat := (unitsOfBytes l).filter (fun u => !coversUnit l u)

/-- END, held while the stack re-keys (R351): the group's writes are applied and the next group begins; a poisoned read-merge ends
the job with the group unwritten (R370, R376, R378). -/
def ueEnd (k : Nat) (s : State) : State :=
  match (if (s.stack k).rekeying then none else ueNext k 2 s) with
  | none => s
  | some (j, _) =>
    let e := s.engine k
    if e.phase ≠ 3 then s
    else
      let ps := partialUnits e.writes
      let s1 := ps.foldl (fun s' u => (s'.snoop k u true).eccUnit k u) (s.gatherUnits k (unitsOfBytes e.writes))
      if (s1.stack k).anyPoison ps then s1.ueFault k uePOISON
      else
        let s2 := s1.writeBytes k e.writes []
        s2.modEngine k (fun e' =>
          { e' with
            writes := []
            elems := e'.elems + BitVec.ofNat 64 (activeLanes j e.group)
            group := if e.group + 1 < jobGroups j then e.group + 1 else e.group
            ip := if e.group + 1 < jobGroups j then e.bodyIp else e.ip + 1
            phase := if e.group + 1 < jobGroups j then 3 else 4 })

/-! ### Reductions (R360–R364) -/

def State.red (s : State) (o : Nat) : Red := sget {} o s.reds
def State.setRed (s : State) (o : Nat) (r : Red) : State := { s with reds := sput {} o r s.reds }

/-- The exact sum of two accumulators. -/
def XAcc.sum (a b : XAcc) : XAcc := ⟨a.val + b.val, a.inf || b.inf, a.nan || b.nan⟩

/-- The stacks that a partition owns. -/
def State.stacksOf (s : State) (p : Nat) : List Nat := (List.range 12).filter (fun k => (s.stack k).owner = some p)

/-- T is on its way to the engines that contributed. -/
def State.redReturn (s : State) (o : Nat) (t : BitVec 64) : State :=
  let r := s.red o
  r.waiting.foldl (fun s' k => s'.modEngine k (fun e => { e with total := some t })) (s.setRed o { r with total := none })

/-- The RED that waits on an object receives no T (R361). -/
def State.redFail (s : State) (o : Nat) : State :=
  let r := s.red o
  let ks := (r.waiting ++ r.parts.map (·.1)).dedup
  ks.foldl (fun s' k => if (s'.engine k).reducing.isSome then s'.ueFault k ueRED else s') (s.setRed o {})

/-- When every stack of the partition has contributed, the exact sum is rounded once to FP64; it returns to the engines,
or enters the Lampline where the object has LAMP = 1 (R360). -/
def State.redClose (s : State) (p o : Nat) (lamp : Bool) : State :=
  let r := s.red o
  if (s.stacksOf p).all (fun k => r.parts.any (fun c => c.1 = k)) then
    let t := BitVec.ofNat 64 (roundF fp64 .rne ((r.parts.map (·.2)).foldl XAcc.sum {}).value)
    let s1 := s.setRed o { parts := [], total := some t, waiting := r.parts.map (·.1) }
    if lamp then s1 else s1.redReturn o t
  else s

/-- RED: a snapshot of WSQ, which it clears, or of X[S] goes to the object of RED_VID, and the word waits for T (R360,
Table 12-2). -/
def ueRed (k : Nat) (s : State) : State :=
  match ueNext k 0x14 s with
  | none => s
  | some (_, w) =>
    let x := s.stack k
    let e := x.eng
    let p := x.owner.getD 0
    let wsq := (uMode w).testBit 2
    let src := if wsq then x.wsq else e.x (uS w)
    let s1 := s.setStack k { x with
      wsq := if wsq then {} else x.wsq
      eng := { e with reducing := some w } }
    let r := s1.red e.redObj
    (s1.setRed e.redObj { r with parts := r.parts ++ [(k, src)] }).redClose p e.redObj e.redLamp

/-- What RED writes to P[D] (Table 12-2): the square root and the quotient are FP64 steps. -/
def redValue (mode : Nat) (t : BitVec 64) (pb : Nat) : Nat :=
  let x := decodeF fp64 t.toNat
  let b := f32 pb
  match mode % 4 with
  | 0 => r32 x
  | 1 => r32 (decodeF fp64 (roundF fp64 .rne x.sqrt))
  | _ =>
    if x.isNan || b.isNan then 0x7FC00000
    else if x.isZero then 0x3F800000
    else if x = .inf false then 0
    else
      let q := decodeF fp64 (roundF fp64 .rne x.sqrt)
      let d := decodeF fp64 (roundF fp64 .rne (b.div q))
      r32 ((Fx.fin false 1 0).minNum d)

/-- RED_RESULT: T returns to an engine and the word writes P[D]; when the last contributing engine has it, the object's
VALUE increments by 1 (R360, R363). -/
def ueRedResult (k : Nat) (s : State) : State :=
  let e := s.engine k
  match e.reducing, e.total with
  | some w, some t =>
    let s1 := s.setEngine k { e.setP (uD w) (redValue (uMode w) t (e.p (uB w))) with
      reducing := none
      total := none
      ip := e.ip + 1 }
    let r := s1.red e.redObj
    let rest := r.waiting.filter (· ≠ k)
    let s2 := s1.setRed e.redObj { r with waiting := rest }
    if rest = [] then s2.incObj e.redObj 1 else s2
  | _, _ => s

/-! ### Groups and the end of a job -/

/-- The next word of the body, whichever it is. -/
def ueAny (k : Nat) (s : State) : State :=
  let e := s.engine k
  match uOp (sget 0 e.ip e.prog) with
  | 0x00 => ueNop k s
  | 0x02 => ueEnd k s
  | 0x03 => ueLds k s
  | 0x04 => ueSts k s
  | 0x05 => ueMov k s
  | 0x06 => ueAdd k s
  | 0x07 => ueSub k s
  | 0x08 => ueMul k s
  | 0x09 => ueFma k s
  | 0x0A => ueDiv k s
  | 0x0B => ueSqrt k s
  | 0x0C => ueMin k s
  | 0x0D => ueMax k s
  | 0x0E => ueAbs k s
  | 0x0F => ueNeg k s
  | 0x10 => ueSel k s
  | 0x11 => ueCmp k s
  | 0x12 => ueAccsq k s
  | 0x13 => ueXclr k s
  | 0x14 => ueRed k s
  | 0x15 => ueSop k s
  | _ => s

/-- Words of the body until the group ends, the job stops, or a RED waits for T. -/
def ueRun (k g : Nat) : Nat → State → State
  | 0, s => s
  | n + 1, s =>
    let e := s.engine k
    if e.phase = 3 && e.group = g && e.reducing.isNone then
      (if uOp (sget 0 e.ip e.prog) = 2 then ueEnd k s else ueRun k g n (ueAny k s))
    else s

/-- UE_GROUP: the body runs for the group in progress (R370). -/
def ueGroup (k : Nat) (s : State) : State := ueRun k (s.engine k).group 256 s

/-- UE_JOB_END: every write of the job is complete; the job signals SIG_VID and leaves the queue (R370). -/
def ueJobEnd (k : Nat) (s : State) : State :=
  let e := s.engine k
  match e.queue with
  | [] => s
  | j :: r =>
    if e.phase ≠ 4 then s
    else
      let s1 := s.setEngine k { e with queue := r, phase := 0 }
      if jobSigEn j then s1.sendInc e.sigObj 1 (.engine k) else s1

/-! ### UPDATE ENGINES registers (Table 12-10) -/

/-- UE_STATUS.BUSY. -/
def Engine.busy (e : Engine) : Bool := e.phase ≠ 0

/-- UE_DOORBELL: UE_JOB joins the queue unless the queue holds 64 jobs. -/
def Engine.ring (e : Engine) : Engine :=
  if 64 ≤ e.queue.length then { e with doorbell := 2 }
  else
    { e with
      queue := e.queue ++ [Vector.ofFn (fun i => sget 0 i.val e.jobRegs)]
      doorbell := if e.halted then 3 else 1 }

/-- UE_PROG_DATA: a program word is written and ADDR advances; ignored while BUSY. -/
def Engine.progData (e : Engine) (v : BitVec 32) : Engine :=
  if e.busy then e else { e with prog := sput 0 e.progAddr.toNat v e.prog, progAddr := e.progAddr + 1 }

/-- CLR_WSQ; ignored while BUSY. -/
def Stack.clrWsq (x : Stack) : Stack := if x.eng.busy then x else { x with wsq := {} }

/-- CLR_X; ignored while BUSY. -/
def Engine.clrX (e : Engine) : Engine := if e.busy then e else { e with xs := [] }

/-- SNAP: WSQ rounded to FP64. -/
def Stack.snap (x : Stack) : Stack :=
  { x with eng := { x.eng with wsqF64 := BitVec.ofNat 64 (roundF fp64 .rne x.wsq.value) } }

/-- ABORT in HALTED. -/
def Engine.abort (e : Engine) : Engine := if e.halted then { e with queue := [], halted := false } else e

/-- RESUME in HALTED. -/
def Engine.resume (e : Engine) : Engine := if e.halted then { e with halted := false } else e

/-- The queue is discarded without signals (R434, R503, R547). -/
def State.discardQueue (s : State) (k : Nat) : State :=
  let e := s.engine k
  let s1 := s.setEngine k { e with queue := [], phase := 0, writes := [], reducing := none, total := none }
  s1.reds.foldl (fun s' c => s'.setRed c.1
    { c.2 with parts := c.2.parts.filter (fun d => d.1 ≠ k), waiting := c.2.waiting.filter (· ≠ k) }) s1

end Sys2Proof.Machine
end

