-- ==== Sys2Proof/Machine/Records.lean ====
section
/-!
DEFINITION. Fault records, their mailboxes, the event log and the CXL event records (R519–R523, R572).
-/
namespace Sys2Proof.Machine

/-! ### Events and severities -/

/-- CPER severities. -/
def sevRecoverable : Nat := 0
def sevFatal : Nat := 1
def sevCorrected : Nat := 2
def sevInfo : Nat := 3

/-- The CPER severity of an event (Table 18-4, Table 18-11). -/
def severityOf (source code : Nat) : Nat :=
  if source = 1 then (if code = tileUE || code = sealFAULT || code = sentinelFAULT then sevRecoverable else sevInfo)
  else if source = 7 then sevInfo
  else if source = 8 then (if code = 3 then sevCorrected else sevFatal)
  else sevRecoverable

/-! ### The record (Table 18-5) -/

/-- The section type GUID 7a1e6f2c-4b3d-4e58-9c1a-5f20b8d34e71 in the byte order of UEFI. -/
def sectionGuid : List Byte :=
  [0x2C, 0x6F, 0x1E, 0x7A, 0x3D, 0x4B, 0x58, 0x4E, 0x9C, 0x1A, 0x5F, 0x20, 0xB8, 0xD3, 0x4E, 0x71]

/-- Bytes 2–5, 7 and 40–43 of the vendor section. -/
def signedBytes (e : FaultEvt) : List Byte :=
  leBytes 2 e.source ++ leBytes 2 e.unit ++ leBytes 1 e.code ++ leBytes 4 e.aux

/-- SIGNATURE. -/
def signature (e : FaultEvt) : BitVec 32 := crc32c (signedBytes e)

/-- The vendor section of Table 18-5. -/
def vendorSection (e : FaultEvt) : List Byte :=
  leBytes 2 1 ++ leBytes 2 e.source ++ leBytes 2 e.unit ++ leBytes 1 e.part ++ leBytes 1 e.code
    ++ leBytes 8 e.tstamp ++ leBytes 8 e.serial ++ leBytes 8 e.sstep ++ leBytes 8 e.addr ++ leBytes 4 e.aux
    ++ leBytes 4 (signature e).toNat ++ leBytes 4 e.count ++ leBytes 12 0

/-- Bytes of the record header and of the section descriptor that UEFI leaves to the platform. -/
def cperFree (n a len : Nat) : List Byte := (List.range len).map (fun i => Config.cperByte n (a + i))

/-- The CPER record: header of 128 bytes, one section descriptor of 72 bytes, the vendor section of 64 bytes. The header fields
that UEFI fixes are given; the others are free. `n` numbers the record. PRESUMED, unsafe: assumption 7. -/
def cperRecord (n : Nat) (e : FaultEvt) : List Byte :=
  [0x43, 0x50, 0x45, 0x52] ++ leBytes 2 0x0100 ++ leBytes 4 0xFFFFFFFF ++ leBytes 2 1
    ++ leBytes 4 (severityOf e.source e.code) ++ cperFree n 16 4 ++ leBytes 4 264 ++ cperFree n 24 104
    ++ leBytes 4 200 ++ leBytes 4 64 ++ cperFree n 136 8 ++ sectionGuid ++ cperFree n 160 16
    ++ leBytes 4 (severityOf e.source e.code) ++ cperFree n 180 20
    ++ vendorSection e

/-! ### The event log (R522) -/

/-- A write of EL_RD: above EL_SEQ it is ignored, below the oldest entry held it is raised to it (R522). -/
def State.setElRd (s : State) (v : BitVec 64) : State :=
  if s.elSeq.toNat < v.toNat then s
  else if v.toNat + 4096 < s.elSeq.toNat then { s with elRd := s.elSeq - 4096 }
  else { s with elRd := v }

/-! ### Mailboxes (R520) -/

/-- A record joins a mailbox of `cap` records, or counts in its FR_LOST. -/
def FrBox.add (b : FrBox) (cap : Nat) (r : List Byte) : FrBox :=
  if b.recs.length < cap then { b with recs := b.recs ++ [r] } else { b with lost := satInc b.lost }

/-- The head record is removed. -/
def FrBox.pop (b : FrBox) : FrBox := { b with recs := b.recs.drop 1 }

/-- The Enquaran vendor-defined message that carries a fault record to the platform: MCTP message type 0x7E and PCI vendor ID 0x1F6C,
the high byte first (R562). PRESUMED, unsafe: assumption 7. -/
def vendorMessage (r : List Byte) : List Byte := [0x7E, 0x1F, 0x6C] ++ r

/-- A record is placed in the mailboxes, sent to the platform and logged (R520). -/
def State.placeRecord (s : State) (e : FaultEvt) : State :=
  let r := cperRecord s.elSeq.toNat e
  let room := s.frPf.recs.length < 64
  let s1 : State := { s with frPf := s.frPf.add 64 r, platform := s.platform ++ [vendorMessage r] }
  let s2 := if room then s1.msi 0 2 else s1
  let s3 := if e.part < 32 then
      (({ s2 with frVf := sput {} e.part ((sget ({} : FrBox) e.part s2.frVf).add 16 r) s2.frVf }).setFlag e.part 1).msi (e.part + 1) 1
    else s2
  s3.logEntry (logWords s3.time.toNat
    (2 ^ 56 + e.code % 256 * 2 ^ 48 + e.part % 256 * 2 ^ 40 + severityOf e.source e.code * 2 ^ 32 + e.source % 65536 * 65536
      + e.unit % 65536)
    e.addr (s3.elSeq.toNat % 2 ^ 32 * 2 ^ 32 + (signature e).toNat))

/-- FAULT_RECORD: the Lamplighter writes the record of the oldest event whose 1 ms has passed; not while it restarts, nor without
power or in Snuffed (R519, R541, R551, R562). DESIGN CHOICE, unsafe: assumption 41. -/
def faultRecord (s : State) : State :=
  match s.events with
  | [] => s
  | e :: r =>
    if s.start.lmcWait || !s.pins.power || s.pins.snuffed || s.time.toNat ≤ e.tstamp + 1000000 then s else ({ s with events := r }).placeRecord e

/-- CXL_DRAM_EVENT_RECORD: the pending count of corrected units of a stack becomes a CXL DRAM event record, at most one in each
100 ms (R521). -/
def cxlDramEvent (k : Nat) (s : State) : State :=
  let x := s.stack k
  if x.ceWindow = 0 || x.ceAt.any (fun t => s.time.toNat < t + 100000000) then s
  else
    let s1 : State := { s.setStack k { x with ceWindow := 0, ceAt := some s.time.toNat } with
      cxlEvts := s.cxlEvts ++ [⟨true, dpaOf k 0, x.ceWindow, s.time.toNat⟩] }
    s1.msi 0 1

/-! ### Tiles in Pilot, and tasks that the Sideboard stops -/

/-- A tile returns from PILOT to UNASSIGNED, where a pending BREAK takes effect (R65); its beats did not count in PILOT.
DEDUCED, unsafe: assumption 50. -/
def State.leavePilot (s : State) (t : TileId) : State :=
  let x := s.tile t
  if x.st ≠ 8 then s
  else
    let die := if onDieE t then s.beatsE else s.beatsW
    s.setTile t { x with st := 0, brkAct := x.brk, pilotAt := none, pilotScrub := false, lost := x.lost + (die - x.pilotAt.getD die) }

/-- A tile enters PILOT: reads of its CSR window return what they did at entry (R53). -/
def State.enterPilot (s : State) (t : TileId) : State :=
  let x := s.tile t
  if x.st ≠ 0 then s
  else s.setTile t { x with st := 8, pilotAt := some (if onDieE t then s.beatsE else s.beatsW), pilotScrub := s.scrubs t }

/-- The tiles of a block. -/
def blockTiles (b : Nat) : List TileId :=
  (List.range 64).map (fun i => tileOf (8 * (b / 4) + i / 8) (8 * (b % 4) + i % 8))

/-- Blocks return from PILOT. -/
def State.wakeBlocks (s : State) (mask : BitVec 32) : State :=
  (List.range 32).foldl (fun s' b =>
    if mask.getLsbD b && s'.dim.pilot.getLsbD b then
      (blockTiles b).foldl State.leavePilot
        { s' with dim := { s'.dim with pilot := s'.dim.pilot &&& ~~~(BitVec.ofNat 32 (2 ^ b)) } }
    else s') s

/-- The resources that a mask names. -/
def masked (mask : BitVec 32) : List Nat := (List.range 32).filter (fun n => mask.getLsbD n)

/-! ### Zeroing of shelves (R226) -/

/-- The words of a tile that the read-back of the next zeroing finds uncorrectable (R226). DESIGN CHOICE, safe: assumption 29. -/
def State.readBack (s : State) (t : TileId) : List Nat :=
  (((Config.readBack s.undef).filter (fun c => c.1 = t)).map (fun c => c.2.toNat)).dedup

/-- The read-back finds a word uncorrectable: it is poisoned, counted in SHELF_UE and named in SHELF_UE_ADDR (R226, R224). -/
def Tile.foundWord (x : Tile) (w : Nat) : Tile :=
  { x with
    bad := sput 0 w 3 x.bad
    shelfUe := satInc x.shelfUe
    shelfUeAddr := BitVec.ofNat 32 (0x80000000 + 8 * w) }

/-- The shelves of a tile zeroed and read back: no old poison is left, and a word that the read-back finds uncorrectable is
poisoned and counted (R226, R224). -/
def Tile.zeroShelves (x : Tile) (found : List Nat) : Tile :=
  found.foldl Tile.foundWord { x with shelf := [], bad := [] }

/-- The fault records of a zeroing of blocks: one for each word that its read-back finds uncorrectable (R226, Table 18-4). The
next zeroing meets other words. PART is 0xFF, also where a partition owns the block. DESIGN CHOICE, unsafe: assumption 63. -/
def State.readBackRecords (s : State) (mask : BitVec 32) : State :=
  let s1 := (masked mask).foldl (fun s' b => (blockTiles b).foldl (fun s'' t =>
    (s.readBack t).foldl (fun q w => q.report 2 2 t.toNat 0xFF 0 0 (8 * w) 0) s'') s') s
  { s1 with undef := s.undef + 1 }

/-- The shelves of the tiles of blocks are zeroed and read back (R226). -/
def State.zeroBlocks (s : State) (mask : BitVec 32) : State :=
  ((masked mask).foldl (fun s' b => (blockTiles b).foldl (fun s'' t =>
    s''.modTile t (fun x => x.zeroShelves (s.readBack t))) s') s).readBackRecords mask

/-! ### Leaving power states (R537, R539, R540, R551) -/

/-- The module leaves Banked: every shelf is zeroed (R226, R539). -/
def State.leaveBanked (s : State) : State :=
  if s.dim.banked then ({ s with dim := { s.dim with banked := false } } : State).zeroBlocks 0xFFFFFFFF else s

/-- A wake event for the module: it leaves Banked, once the Lamplighter runs (R540, R551). The exit takes place at the event, which R540
allows. DESIGN CHOICE, unsafe: assumption 27. -/
def State.wakeModule (s : State) : State :=
  if s.start.lmcWait then { s with dim := { s.dim with owedBanked := s.dim.owedBanked || s.dim.banked } } else s.leaveBanked

/-- The power states of the dies: a Dimmed die runs at its lowest voltage, and returns to the rate of the last control period
(R537). DESIGN CHOICE, safe: assumption 27. -/
def Dimmer.dimDies (d : Dimmer) (w e : Bool) : Dimmer :=
  { d with
    dimW := w, rateW := if w then (if Config.dimRate < d.litW then Config.dimRate else d.litW) else d.litW
    dimE := e, rateE := if e then (if Config.dimRate < d.litE then Config.dimRate else d.litE) else d.litE }

/-- The Sideboard stops a task with a status: its tiles stop at their next handshake (R434, R449). -/
def State.stopTask (s : State) (k status : Nat) : State :=
  let r := s.run k
  if r.stop.isSome || r.fault.isSome then s
  else
    r.tiles.foldl (fun s' t => s'.modTile t (fun x => if x.task = k then { x with st := 7, hold := none } else x))
      (s.modRun k (fun q => { q with stop := some status }))

end Sys2Proof.Machine
end

