-- ==== Sys2Proof/Machine/Windows.lean ====
section
/-!
DEFINITION. Remote windows (R524–R531): the table, the checks of a window write, sealed units, the host's aperture, and
the closing of windows at once.
-/
namespace Sys2Proof.Machine

def State.win (s : State) (n : Nat) : Win := sget {} n s.wins
def State.setWin (s : State) (n : Nat) (w : Win) : State := { s with wins := sput {} n w s.wins }

/-- REASON codes of Table 18-7; 0 means applied. -/
def winSTALE : Nat := 1
def winRANGE : Nat := 2
def winPERM : Nat := 3

/-- Why a write is discarded, or 0 (R526). DESIGN CHOICE, unsafe: assumption 41. -/
def winCheck (w : Win) (peer : Bool) (gen : BitVec 16) (off len : Nat) : Nat :=
  if w.state = 0 || w.gen ≠ gen then winSTALE
  else if !(if peer then w.peer else w.host) then winPERM
  else if 4096 * w.len.toNat < off + len then winRANGE
  else 0

/-- Whether a window write meets a stack that is being re-keyed: it holds (R351). One that would be discarded reaches no stack. -/
def State.winHeld (s : State) (peer : Bool) (n : Nat) (gen : BitVec 16) (off len : Nat) : Bool :=
  let w := s.win n
  winCheck w peer gen off len = 0 && s.heldRange w.part.toNat (w.base.toNat + off) len

/-- Whether units of a window that satisfy a condition meet a stack that is being re-keyed. -/
def State.unitsHeld (s : State) (n : Nat) (f : WinUnit → Bool) : Bool :=
  s.winUnits.any (fun u =>
    u.win = n && f u && s.heldRange (s.win n).part.toNat ((s.win n).base.toNat + u.off) u.bytes.length)

/-- A discarded write is counted (R526). -/
def State.winRefuse (s : State) (reason : Nat) : State :=
  if reason = winSTALE then { s with integ := { s.integ with winStale := satInc s.integ.winStale } }
  else { s with integ := { s.integ with winRefused := satInc s.integ.winRefused } }

/-- A window write: its bytes go to the window's partition range, or it is discarded and counted (R526). The second part
is the reason, 0 when it was applied. -/
def State.winWrite (s : State) (peer : Bool) (n : Nat) (gen : BitVec 16) (off : Nat) (b : List Byte) : State × Nat :=
  let w := s.win n
  let c := winCheck w peer gen off b.length
  if c = 0 then (s.writePart w.part.toNat (w.base.toNat + off) b, 0) else (s.winRefuse c, c)

/-- The units of a window that satisfy a condition, and that had begun to arrive, are written as they are: their four frames
did not come together. -/
def State.flushUnits (s : State) (n : Nat) (f : WinUnit → Bool) : State :=
  s.winUnits.foldl (fun s' u =>
    if u.win = n && f u then s'.writePart (s'.win n).part.toNat ((s'.win n).base.toNat + u.off) u.bytes else s')
    { s with winUnits := s.winUnits.filter (fun u => !(u.win = n && f u)) }

/-- Whether a unit comes from a sender: the port side at which its frames arrive, and its rank. -/
def WinUnit.from (port : Nat) (orig : BitVec 7) (u : WinUnit) : Bool := u.port = port && u.orig = orig

/-- The whole unit has come: on a match it is written with its seal, on a mismatch it is discarded as R529 states. -/
def State.sealUnit (s : State) (n off : Nat) (b : List Byte) (crc : BitVec 32) : State × Nat :=
  let w := s.win n
  if crc32c b = crc then
    let s1 := s.writePart w.part.toNat (w.base.toNat + off) b true
    match s1.hbmMap w.part.toNat (w.base.toNat + off) with
    | none => (s1, 0)
    | some (k, l) => (s1.modStack k (fun x => { x with seals := sins (l / 4096) { crc := crc, sv := true } x.seals }), 0)
  else
    let s1 : State := { s with integ := { s.integ with sealErr := satInc s.integ.sealErr } }
    (s1.winRefuse winSTALE, winRANGE)

/-- One of the four sealed frames of a 4 KiB unit (R529): the frames of one sender gather until the unit is whole, whatever
other senders and the host write meanwhile. DESIGN CHOICE, unsafe: assumption 41. -/
def State.winSealed (s : State) (port : Nat) (orig : BitVec 7) (n : Nat) (gen : BitVec 16) (off : Nat) (b : List Byte)
    (crc : BitVec 32) : State × Nat :=
  let c := winCheck (s.win n) true gen off b.length
  let mine (u : WinUnit) : Bool := u.win = n && u.from port orig
  let begin_ (t : State) : State × Nat :=
    if off % 4096 = 0 && b.length = 1024 then ({ t with winUnits := t.winUnits ++ [⟨n, off, port, orig, b⟩] }, 0)
    else t.winWrite true n gen off b
  if c ≠ 0 then (s.winRefuse c, c)
  else
    match s.winUnits.find? mine with
    | some u =>
      if off = u.off + u.bytes.length && b.length = 1024 then
        let all := u.bytes ++ b
        let s1 : State := { s with winUnits := s.winUnits.filter (fun u => !mine u) }
        if all.length = 4096 then s1.sealUnit n u.off all crc
        else ({ s1 with winUnits := s1.winUnits ++ [{ u with bytes := all }] }, 0)
      else begin_ (s.flushUnits n (·.from port orig))
    | none => begin_ s

/-- A host access ends the module's idleness (R538). -/
def State.hostBusy (s : State) : State := { s with dim := { s.dim with busyM := s.time.toNat } }

/-- HOST_WINDOW_WRITE: a Deferrable Memory Write through aperture port `k` at offset `o` (R527). The answer is 0 for
Successful Completion and 1 for Completer Abort. A request of more than 64 bytes, or across a 64-byte boundary, is none
that the aperture serves. It holds while its stack is being re-keyed (R351), and in Banked, which it ends (R540). -/
def hostWindowWrite (k o : Nat) (b : List Byte) (s : State) : State :=
  let id := sget 0 k s.winPortId
  let n := bits id.toNat 27 16
  let off := 4096 * (sget 0 k s.winPortBase).toNat + o
  if 8 ≤ k || 4096 ≤ o + b.length - 1 || b = [] || 64 < o % 64 + b.length then s
  else if s.dim.banked then s.hostBusy.wakeModule
  else if s.winHeld false n (id.truncate 16) off b.length then s.hostBusy
  else
    let r := s.hostBusy.winWrite false n (id.truncate 16) off b
    { r.1 with reply := [if r.2 = 0 then 0 else 1] }

/-! ### Opening and closing -/

/-- WIN_OPEN: OPEN on a CLOSED entry whose range lies in PART's HBM (R524, WIN_LEN). -/
def State.winOpen (s : State) (n : Nat) : State :=
  let w := s.win n
  if w.state ≠ 0 || s.psize w.part.toNat < w.base.toNat + 4096 * w.len.toNat then s
  else s.setWin n { w with state := 1 }

/-- An entry becomes CLOSED with its generation retired (R528). -/
def Win.closed (w : Win) : Win := { w with state := 0, gen := w.gen + 1, drains := [] }

/-- An entry closes, and the closing is logged. -/
def State.winDone (s : State) (n : Nat) : State :=
  let w := s.win n
  let s0 := s.flushUnits n (fun _ => true)
  (s0.setWin n w.closed).logEvent 4 w.part.toNat

/-- Whether a window covers a byte of a stack. -/
def State.winOnStack (s : State) (w : Win) (k : Nat) : Bool :=
  (List.range w.len.toNat).any (fun i => match s.hbmMap w.part.toNat (w.base.toNat + 4096 * i) with
    | some (k', _) => k' = k
    | none => false)

/-- Windows that satisfy a condition close at once, without drain markers (R530). Entries that are CLOSED stay. -/
def State.closeNow (s : State) (f : Win → Bool) : State :=
  s.wins.foldl (fun s' c => if c.2.state ≠ 0 && f c.2 then s'.winDone c.1 else s') s

end Sys2Proof.Machine
end

