-- ==== Sys2Proof/Machine/Lamp.lean ====
section
/-!
DEFINITION. Lampline ports (Chapter 14): rings and ranks, the link layer, the queues of a port, the sending of frames and
the fields of frames.
-/
namespace Sys2Proof.Machine

/-! ### Ports, rings and ranks (R392–R395) -/

def State.port (s : State) (p : Nat) : Port := sget {} p s.ports
def State.setPort (s : State) (p : Nat) (x : Port) : State := { s with ports := sput {} p x s.ports }
def State.modPort (s : State) (p : Nat) (f : Port → Port) : State := s.setPort p (f (s.port p))

/-- The other port of a ring: frames that enter through one leave through the other. -/
def pairPort (p : Nat) : Nat := if p % 2 = 0 then p + 1 else p - 1

/-- Whether frames that leave through a port travel eastbound (R393). -/
def eastPort (p : Nat) : Bool := p % 2 = 1

/-- The ring code of a port: 0 X, 1 Y, 2 Z, 3 the skip ring. -/
def ringOfPort (p : Nat) : Nat := p / 2

def ringRanked (r : BitVec 32) : Bool := r.getLsbD 31
def ringSplice (r : BitVec 32) : Bool := r.getLsbD 30
def ringGen (r : BitVec 32) : Nat := bits r.toNat 29 22
def ringRank (r : BitVec 32) : Nat := bits r.toNat 21 15
def ringPos (r : BitVec 32) : Nat := bits r.toNat 14 8
def ringN (r : BitVec 32) : Nat := bits r.toNat 6 0 + 1

/-- Whether this module holds rank `q` of the ring of a port. -/
def Port.isRank (x : Port) (q : Nat) : Bool := ringRanked x.ringAct && ringRank x.ringAct = q

/-- The position of a rank, from the map in force. -/
def Port.posOf (x : Port) (q : Nat) : Option Nat :=
  let e := (sget 0 q x.mapAct).toNat
  if e.testBit 7 then some (e % 128) else none

/-- Ranks that the map in force holds. -/
def Port.rankCount (x : Port) : Nat := ((List.range 127).filter (fun q => (x.posOf q).isSome)).length

/-- Position hops from position `a` to `b` in a direction of a ring of `n` positions; a whole turn for `a = b`. -/
def hopsTo (east : Bool) (n a b : Nat) : Nat :=
  let d := if east then (b + n - a % n) % n else (a + n - b % n) % n
  if d = 0 then n else d

/-- HOPS of a frame to rank `q` out of a port: the hops of the path, plus 2 (R400). -/
def Port.hopsFor (x : Port) (east : Bool) (q : Nat) : BitVec 9 :=
  BitVec.ofNat 9 (hopsTo east (ringN x.ringAct) (ringPos x.ringAct) ((x.posOf q).getD (ringPos x.ringAct)) + 2)

/-- HOPS of a frame that goes once round the ring. -/
def Port.hopsRound (x : Port) : BitVec 9 := BitVec.ofNat 9 (ringN x.ringAct + 2)

/-- The widest set of working lanes: all 16, lanes 0–7 or 8–15, or an aligned quad (R419). -/
def bestLanes (ok : BitVec 16) : Nat :=
  let n := ok.toNat
  if n = 0xFFFF then 16
  else if n % 256 = 0xFF || n / 256 = 0xFF then 8
  else if (List.range 4).any (fun q => n / 16 ^ q % 16 = 15) then 4
  else 0

/-- The largest width that LP_CTL, the class and the mode allow (R395). -/
def State.laneCap (s : State) (p : Nat) : Nat :=
  let cap := bits (s.port p).ctlAct.toNat 4 0
  if 6 ≤ p && s.dim.cls = 0 && bits s.dim.ctlAct.toNat 31 30 ≠ 0 then min 4 cap else cap

/-- Lanes in force. -/
def State.lanesOf (s : State) (p : Nat) : Nat := min (bestLanes (s.port p).laneOk) (s.laneCap p)

/-! ### Payload words -/

/-- The little-endian 64-bit words of a payload. -/
def frameWord (f : Frame) (i : Nat) : Nat := bits f.payload.toNat (64 * i + 63) (64 * i)

/-- A payload of words. -/
def payloadOf (l : List Nat) : BitVec 8192 := BitVec.ofNat 8192 (packNat 64 l)

/-- The bytes of a payload. -/
def frameBytes (f : Frame) : List Byte := leBytes 1024 f.payload.toNat

/-! ### Detours (R425) -/

/-- Frames of a Y or Z port go by detour while its link is lost and its ring is not BROKEN: the rank beyond has been
substituted. DEDUCED, unsafe: assumption 43. -/
def State.detoured (s : State) (q : Nat) : Bool :=
  2 ≤ q && q < 6 && (s.port q).link = 4 && !(s.port q).broken

/-- The X port through which detoured frames travel, the shorter way round and east when both are as long, and the hops on
the X ring; the way back is the mirror of the way there. DESIGN CHOICE, unsafe: assumption 43. -/
def detourWay (n home xpos : Nat) (back : Bool) : Nat × Nat :=
  let e := hopsTo true n home xpos
  let w := hopsTo false n home xpos
  let east := (e ≤ w) != back
  (if east then 1 else 0, min e w)

/-- The port out of which a frame of ring side `q` leaves, and the frame: one that would go to a lost position is bound for
the lantern that stands in for it, one from the substituted rank for the module that would have had it. A sender's HOPS gain the
hops of the detour; a frame that was sent elsewhere already counts them (R400). -/
def State.divert (s : State) (q : Nat) (own : Bool) (f : Frame) : Nat × Frame :=
  let x := s.port q
  let n := ringN (s.port 1).ringAct
  let here := ringPos (s.port 1).ringAct
  if q < 2 || 6 ≤ q || f.detour.isSome then (q, f)
  else if s.detoured q then
    let there := Config.detourPos q x.ringAct
    let way := detourWay n here there.toNat false
    (way.1, { f with hops := if own then f.hops + BitVec.ofNat 9 way.2 else f.hops
                     detour := some ⟨BitVec.ofNat 3 q, false, there, BitVec.ofNat 7 here⟩ })
  else match (s.port 1).took with
    | none => (q, f)
    | some home =>
      (q, { f with hops := if own then f.hops + BitVec.ofNat 9 (detourWay n home.toNat here true).2 else f.hops
                   detour := some ⟨BitVec.ofNat 3 q, true, BitVec.ofNat 7 here, home⟩ })

/-! ### The queues of a port (R407, R422) -/

/-- The X port whose traffic a skip port carries. -/
def xOfSkip (p : Nat) : Nat := p - 6

/-- The skip port of an X port. -/
def skipOf (p : Nat) : Nat := p + 6

/-- A forwarded frame joins its port's transit buffer. -/
def State.putTransit (s : State) (q : Nat) (f : Frame) : State :=
  let c := s.divert q false f
  s.modPort c.1 (fun x => { x with transit := x.transit ++ [c.2] })

/-- The hops of detours that begin at later modules of the path, which the sender counts too (R400). DESIGN CHOICE, safe: assumption
43. -/
def State.withLater (s : State) (q : Nat) (f : Frame) : Frame :=
  if q < 2 || 6 ≤ q then f else { f with hops := f.hops + Config.laterHops q (s.port q).ringAct f.dest }

/-- A frame of this module, its HOPS set but for a detour that begins here, joins its port's own frames; on a detour it travels with
the X ring's transit frames. -/
def State.queueOwn (s : State) (q : Nat) (f : Frame) : State :=
  let c := s.divert q true f
  s.modPort c.1 (fun x => if c.1 = q then { x with ownQ := x.ownQ ++ [c.2] } else { x with transit := x.transit ++ [c.2] })

/-- A frame of this module joins its port's own frames. -/
def State.putOwn (s : State) (q : Nat) (f : Frame) : State := s.queueOwn q (s.withLater q f)

/-- A MARK, COAST or LOSS frame joins its port's control frames, which HOLD does not stop. -/
def State.queueCtl (s : State) (q : Nat) (own : Bool) (f : Frame) : State :=
  let c := s.divert q own f
  s.modPort c.1 (fun x => { x with ctlQ := x.ctlQ ++ [c.2] })

/-- A MARK, COAST or LOSS frame of this module. -/
def State.putCtl (s : State) (q : Nat) (f : Frame) : State := s.queueCtl q true (s.withLater q f)

/-- Frames that HOLD does not stop. -/
def isCtl (f : Frame) : Bool := f.type = 4 || f.type = 5 || f.type = 6

/-- A module passes a frame on out of ring side `q`; with HOPS = 0 it discards it and counts it (R400). DEDUCED, unsafe:
assumption 43. -/
def State.passOn (s : State) (q : Nat) (f : Frame) : State :=
  if f.hops = 0 then s.modPort q (fun x => { x with ttlDrop := satInc x.ttlDrop })
  else
    let g := { f with hops := f.hops - 1 }
    if isCtl f then s.queueCtl q false g else s.putTransit q g

/-- A module forwards a frame that came in through port `p`. -/
def State.forward (s : State) (p : Nat) (f : Frame) : State := s.passOn (pairPort p) f

/-- Frames that a port holds because it cannot forward them yet: its transit buffer and the partials and SYNC frames that
wait for a contribution (R407, R414). -/
def Port.buffered (x : Port) : Nat :=
  x.transit.length + x.colls.foldl (fun a c => a + c.2.parked.length + (if c.2.syncPark.isSome then 1 else 0)) 0

/-! ### The link layer (R398, R399) -/

/-- The link fields of a received frame: acknowledged frames leave the replay buffer, RPLY starts a replay from ACK + 1,
and HOLD takes effect. -/
def Port.takeLink (x : Port) (f : Frame) : Port :=
  let rest := x.sent.dropWhile (fun g => (f.ack - g.seq).toNat < 2 ^ 15)
  { x with
    sent := rest
    resend := if f.rply then rest else x.resend.filter (fun g => rest.any (fun r => r.seq = g.seq))
    holding := f.hold }

/-- The ring side on which a frame counts as arrived: X traffic that a skip link carries arrives at the X port (R422). -/
def inOf (p : Nat) (f : Frame) : Nat := if f.skip && 6 ≤ p then xOfSkip p else p

/-- A detoured frame arrives at ring side `p` (R425). On the X ring it goes on to its position: there the lantern sends it on
through its own Y or Z ring, and a frame on its way back counts as arrived from the lost position. On a Y or Z ring it has
reached the substituted rank, or on its way back the lantern that sends it along the X ring. -/
def State.detourArrives (s : State) (p : Nat) (f : Frame) (d : Detour) (k : Frame → Nat → State → State) : State :=
  let x := (s.port 1).ringAct
  if p < 2 then
    let goal := if d.back then d.home else d.xpos
    if ringPos x ≠ goal.toNat then s.forward p f
    else if d.back then k { f with detour := none } (pairPort d.port.toNat) s
    else s.passOn d.port.toNat f
  else if d.back then s.passOn (detourWay (ringN x) d.home.toNat d.xpos.toNat true).1 f
  else k { f with detour := none } p s

/-- The port whose buffer takes a frame that arrives at ring side `p` and goes on: a detoured frame's own way, else the pair port's, or
the X port of a detour that begins here (R407, R425). -/
def State.exitOf (s : State) (p : Nat) (f : Frame) : Nat :=
  let x := (s.port 1).ringAct
  let out (q : Nat) : Nat := (s.divert q false { f with detour := none }).1
  match f.detour with
  | none => out (pairPort p)
  | some d =>
    if p < 2 then
      if ringPos x ≠ (if d.back then d.home else d.xpos).toNat then pairPort p
      else if d.back then out d.port.toNat else d.port.toNat
    else if d.back then (detourWay (ringN x) d.home.toNat d.xpos.toNat true).1
    else out (pairPort p)

/-- The ring side at which a frame that arrives at ring side `p` counts as arrived; none while it travels on as a detour (R425). -/
def State.countsAt (s : State) (p : Nat) (f : Frame) : Option Nat :=
  match f.detour with
  | none => some p
  | some d =>
    if p < 2 then (if d.back && ringPos (s.port 1).ringAct = d.home.toNat then some (pairPort d.port.toNat) else none)
    else if d.back then none else some p

/-- Whether port `p` takes a frame of TYPE `ty` that arrives now (R398, R407). -/
def State.takesNow (s : State) (p : Nat) (ty : BitVec 4) (f : Frame) : Bool :=
  (s.port p).link = 2 && !(ty ≠ 0 && !isCtl { f with type := ty } && 512 ≤ (s.port (s.exitOf (inOf p f) f)).buffered)
    && f.seq = (s.port p).seqIn + 1

/-- A frame of TYPE `ty` arrives at port `p`. It is taken when its SEQ is one past the last taken, and `k` says what it does
at the ring side where it counts; otherwise it is discarded and a replay is asked for, counted once for each request. A frame
that the transit buffer of 512 frames has no room for is not taken: it waits in the link (R407). -/
def State.rx (s : State) (p : Nat) (ty : BitVec 4) (f : Frame) (k : Frame → Nat → State → State) : State :=
  let x := s.port p
  let g := { f with type := ty, skip := false }
  let q := inOf p f
  if x.link ≠ 2 || (ty ≠ 0 && !isCtl g && 512 ≤ (s.port (s.exitOf q f)).buffered) then s
  else if f.seq = x.seqIn + 1 then
    let s1 := s.setPort p ({ x with seqIn := f.seq, askReplay := false }.takeLink f)
    match f.detour with
    | some d => s1.detourArrives q g d k
    | none => k g q s1
  else
    s.setPort p { x with
      askReplay := true
      replay := if x.askReplay then x.replay else satInc x.replay }

/-- UNCORRECTABLE_FRAME: the frame is discarded and a replay asked for (R399). -/
def uncorrectableFrame (p : Nat) (s : State) : State :=
  let x := s.port p
  if x.link ≠ 2 then s
  else s.setPort p { x with askReplay := true, replay := if x.askReplay then x.replay else satInc x.replay }

/-- IDLE_FRAME: a received idle frame updates the link fields and nothing else. -/
def idleFrame (p : Nat) (f : Frame) (s : State) : State := s.rx p 0 { f with detour := none } (fun _ _ t => t)

/-- RESERVED_FRAME: a frame of reserved TYPE is discarded and counted (Table 14-5). -/
def reservedFrame (p : Nat) (f : Frame) (s : State) : State :=
  s.rx p 0 { f with detour := none } (fun _ _ s' => s'.modPort p (fun x => { x with ttlDrop := satInc x.ttlDrop }))

/-! ### Coasting (R417, R418) -/

/-- A COAST frame of this module. -/
def coastFrame (x : Port) (p : Nat) (resume : Bool) : Frame :=
  { type := 5
    hops := x.hopsRound
    payload := payloadOf [(if resume then 2 ^ 63 else 0) + ringOfPort p % 4 * 2 ^ 54 + ringPos x.ringAct, x.coastSerial.toNat] }

/-- Whether the steps of a ring pause: a coast-down has been asked for, or the ring is coasted (R417). -/
def Port.paused (x : Port) : Bool := x.coastAsk || x.coasted

/-- Both ports of a ring. -/
def State.modRing (s : State) (p : Nat) (f : Port → Port) : State := (s.modPort p f).modPort (pairPort p) f

/-- The module sends COAST frames, or resumes, in both directions of a ring. -/
def State.sendCoast (s : State) (p : Nat) (resume : Bool) : State :=
  let s1 := s.modRing p (fun x =>
    let y := { x with coastSerial := x.coastSerial + 1, coastSeen := x.coastSeen ++ [(BitVec.ofNat 7 (ringPos x.ringAct), x.coastSerial + 1)] }
    if resume then { y with coastAsk := false, coasted := false, coastMine := false, resumeAsk := false }
    else { y with coastAsk := true, coastMine := true })
  let send (q : Nat) (t : State) : State := t.putCtl q (coastFrame (t.port q) q resume)
  send (pairPort p) (send p s1)

/-- The module coasts the ring of a port, unless it does so already. -/
def State.coastRing (s : State) (p : Nat) : State := if (s.port p).coastMine then s else s.sendCoast p false

/-! ### LP_CTL at the frame boundary (R493, Table 17-3) -/

/-- The pending LP_RING takes effect (R424, R428); a lantern that takes a rank in place of another position notes that position, from
the map in force (R425). -/
def Port.applyRing (x : Port) : Port :=
  let clr := x.spliced && !ringSplice x.ring
  let old := (sget 0 (ringRank x.ring) x.mapAct).toNat
  { x with
    ringAct := x.ring
    spliced := if clr && x.coasted then false else x.spliced
    took := if !ringRanked x.ring then none
      else if ringRanked x.ringAct then x.took
      else if old.testBit 7 && old % 128 ≠ ringPos x.ring then some (BitVec.ofNat 7 old) else none }

/-- The pending LP_RING and LP_MAP take effect; a ring whose map has been rewritten is no longer BROKEN (R426). -/
def Port.applyAll (x : Port) : Port := { x.applyRing with mapAct := x.map, broken := x.broken && !x.mapSet, mapSet := false }

/-- A port leaves or has left "up": the ring and map that are pending take effect at once (Table 17-3). -/
def Port.leave (x : Port) (link : BitVec 3) : Port := { x with link := link }.applyAll

/-- LP_CTL takes effect: the width, COAST's edge, and a COAST = 0 written on the module that coasted the ring, which asks for
a resume (R418). RETRAIN on a coasted ring brings the port back through training at full width (R420). -/
def State.applyCtl (s : State) (p : Nat) : State :=
  let x := s.port p
  let now := x.ctl.getLsbD 31
  let retrain := x.ctl.getLsbD 30 && x.coasted && x.link = 2
  let ctl := x.ctl &&& 0xBFFFFFFF
  let y := { x with ctl := ctl, ctlAct := ctl, coastOff := false }
  let s1 := s.setPort p (if retrain then y.leave 1 else y)
  let s2 := s1.modPort p (fun y => { y with lanes := if y.link = 2 then s1.lanesOf p else y.lanes })
  if now && !x.ctlAct.getLsbD 31 then s2.coastRing p
  else if x.coastOff && x.coastMine then s2.modRing p (fun y => { y with resumeAsk := true })
  else s2

/-- A write of LP_CTL: RETRAIN has no effect in a virtual function's view, a LANECAP other than 16, 8 and 4 keeps the
pending one; at once in force while the link is down or lost (Table 17-3). -/
def State.writeLpCtl (s : State) (p : Nat) (who : Who) (v : BitVec 32) : State :=
  let x := s.port p
  let cap := v &&& 0x1F
  let cap' := if cap = 16 || cap = 8 || cap = 4 then cap else x.ctl &&& 0x1F
  let re := match who with
    | .vf _ => 0
    | _ => v &&& 0x40000000
  let s1 := s.setPort p { x with ctl := (v &&& 0x80000000) ||| re ||| cap', coastOff := !v.getLsbD 31 }
  if x.link = 0 || x.link = 4 then s1.applyCtl p else s1

/-! ### Sending (R397, R399, R407) -/

/-- Whether a port's buffer holds 384 frames or more (R407). -/
def State.full (s : State) (q : Nat) : Bool := 384 ≤ (s.port q).buffered

/-- Whether a port's buffer of 384 frames or more holds frames on a detour of ring side `p`'s ring (R425). -/
def State.fullOfDetours (s : State) (p q : Nat) : Bool :=
  s.full q && (s.port q).transit.any (fun f => f.detour.any (fun d => p < 2 || d.port.toNat / 2 = p / 2))

/-- Whether HOLD goes out of a port: 384 frames or more wait for a port that its inbound frames leave by, X traffic that comes over a
skip link and frames on a detour between an X ring and a Y or Z ring included (R407, R422, R425). -/
def State.holds (s : State) (p : Nat) : Bool :=
  s.full (s.exitOf p {}) || (6 ≤ p && (s.port (xOfSkip p)).spliced && s.full (pairPort (xOfSkip p)))
    || (p < 2 && [2, 3, 4, 5].any (s.fullOfDetours p)) || (2 ≤ p && p < 6 && [0, 1].any (s.fullOfDetours p))

/-- The link fields that a port puts into a frame it sends now. -/
def State.linkFields (s : State) (p : Nat) (f : Frame) : Frame :=
  let x := s.port p
  { f with ack := x.seqIn, rply := x.askReplay, hold := s.holds p }

/-- The first frame of a list that satisfies a condition, and the list without it. -/
def takeFrame (c : Frame → Bool) : List Frame → Option (Frame × List Frame)
  | [] => none
  | f :: r => if c f then some (f, r) else (takeFrame c r).map (fun x => (x.1, f :: x.2))

/-- The next new frame of a ring side and the port without it: control frames first, then, unless HOLD is received, frames that a
splice sends again, transit and own frames. Once a coast-down is asked for no collective frame starts, and a coasted ring carries only idle, MARK and
SYNC frames (R407, R417). -/
def Port.pick (x : Port) (holding : Bool) : Option (Frame × Port) :=
  let passes (f : Frame) : Bool := !x.coasted || f.type = 3
  let starts (f : Frame) : Bool := passes f && !(x.coastAsk && (f.type = 1 || f.type = 2))
  match x.ctlQ with
  | f :: r => some (f, { x with ctlQ := r })
  | [] =>
    if holding then none
    else match takeFrame passes x.redo with
      | some c => some (c.1, { x with redo := c.2 })
      | none =>
        match takeFrame passes x.transit with
        | some c => some (c.1, { x with transit := c.2 })
        | none => (takeFrame starts x.ownQ).map (fun c => (c.1, { x with ownQ := c.2 }))

/-- The next new frame of a port: on a skip link the traffic of a spliced X port takes precedence (R422), and the X port itself sends
idle frames until its splice is cleared (R428); an idle frame when nothing is ready. -/
def State.pickFrame (s : State) (p : Nat) : Frame × State :=
  let x := s.port p
  let own : Frame × State := match (if p < 2 && x.spliced then none else x.pick x.holding) with
    | some c => (c.1, s.setPort p c.2)
    | none => ({}, s)
  if 6 ≤ p && (s.port (xOfSkip p)).spliced then
    match (s.port (xOfSkip p)).pick x.holding with
    | some c => ({ c.1 with skip := true }, s.setPort (xOfSkip p) c.2)
    | none => own
  else own

/-- Frames that waited for a lost Y or Z link go by detour once the rank beyond is substituted (R425). -/
def State.reroute (s : State) (p : Nat) : State :=
  if !s.detoured p then s
  else
    let x := s.port p
    let s1 := s.setPort p { x with ctlQ := [], transit := [], ownQ := [] }
    x.ownQ.foldl (fun t f => t.queueOwn p f)
      (x.transit.foldl (fun t f => t.putTransit p f) (x.ctlQ.foldl (fun t f => t.queueCtl p false f) s1))

/-- Lanes that have been switching are in force (R419). -/
def State.endSwitch (s : State) (p : Nat) : State :=
  if (s.port p).link ≠ 3 then s
  else s.modPort p (fun y => { y with link := 2, lanes := s.lanesOf p })

/-- FRAME_SEND: at the frame boundary LP_CTL takes effect and a switch of lanes is complete, and the port sends one frame: the
next frame of a replay, or a new one with the next SEQ, which the replay buffer of 1,024 frames keeps (R397, R399, R419).
DESIGN CHOICE, safe: assumption 44. -/
def frameSend (p : Nat) (s : State) : State :=
  let s0 := ((s.applyCtl p).endSwitch p).reroute p
  let x := s0.port p
  if x.link ≠ 2 then s0
  else match x.resend with
    | _ :: r => s0.setPort p { x with resend := r }
    | [] =>
      if 1024 ≤ x.sent.length then s0
      else
        let c := s0.pickFrame p
        let f := { s0.linkFields p c.1 with seq := x.seqOut }
        c.2.modPort p (fun y => { y with
          sent := x.sent ++ [f]
          seqOut := x.seqOut + 1
          data := if f.type = 1 || f.type = 2 then x.data + 1 else x.data })

/-! ### The state of a link -/

/-- LANE_DEGRADE: both ends switch to the largest set of working lanes, and LINK reads "switching width" until the switch is
complete, at the port's next frame boundary or after 20 µs; the change is logged (R419, Table 18-6). A lane once lost stays so
until a retraining (R420). A link left with fewer than 4 lanes is lost, which LINK_LOSS_DETECT takes up. -/
def laneDegrade (p : Nat) (ok : BitVec 16) (s : State) : State :=
  let x := s.port p
  if x.link ≠ 2 && x.link ≠ 3 then s
  else
    let y := { x with laneOk := x.laneOk &&& ok }
    let s1 := s.setPort p y
    if s1.lanesOf p < 4 then (s1.setPort p { y.leave 4 with lanes := 0 }).applyCtl p
    else (s1.setPort p { y with link := 3, switchAt := s.time.toNat }).logEvent 6 (x.owner.getD 0xFF)

/-- Switches of lanes end within 20 µs (R419). -/
def State.endSwitches (s : State) : State :=
  (List.range 8).foldl (fun t p =>
    if (t.port p).link = 3 && (t.port p).switchAt + 20000 ≤ t.time.toNat then t.endSwitch p else t) s

/-- LAMPLINE_LINK_UP: a port that was down, lost or training finds its peer, trains and comes up with fresh sequence numbers
(R428, R420), not while the module has no power or is in Snuffed (R541, R557). While PWR_WARN_N is asserted its ring joins coasted
(Table 20-7). PRESUMED, unsafe: assumption 43. -/
def linkUp (p : Nat) (ok : BitVec 16) (s : State) : State :=
  let x := s.port p
  if x.link = 2 || x.link = 3 || bestLanes ok = 0 || !s.pins.power || s.pins.snuffed then s
  else
    let s1 := s.setPort p { x with
      link := 2, laneOk := ok, seqOut := 0, seqIn := 0xFFFF, askReplay := false, sent := [], resend := [], holding := false }
    let s2 := s1.modPort p (fun y => { y with lanes := s1.lanesOf p })
    if s.pins.warn then s2.coastRing p else s2

/-! ### Staged rings and maps (R424, R428, R493) -/

/-- A write of LP_RING: NPOS_M1 as written; at once in force while the port is not up (Table 17-3). -/
def State.writeRing (s : State) (p : Nat) (v : BitVec 32) : State :=
  s.modPort p (fun x =>
    let y := { x with ring := v &&& 0xFFFFFF7F }
    if y.link = 2 || y.link = 3 then y else y.applyAll)

/-- A write of LP_MAP for a rank. -/
def State.writeMap (s : State) (p rank : Nat) (v : BitVec 32) : State :=
  if 127 ≤ rank then s
  else s.modPort p (fun x =>
    let y := { x with
      map := sput 0 rank (BitVec.ofNat 8 ((if v.getLsbD 31 then 128 else 0) + v.toNat % 128)) x.map, mapSet := true }
    if y.link = 2 || y.link = 3 then y else y.applyAll)

/-- SPLICE_CLEAR: a write of LP_RING with SPLICE = 0 (R428). -/
def spliceClear (p : Nat) (s : State) : State := s.writeRing p ((s.port p).ring &&& 0xBFFFFFFF)

/-- A standby lantern: a port is up and no ring gives this module a rank (R421). -/
def State.lantern (s : State) : Bool :=
  s.ports.any (fun c => c.2.link = 2 || c.2.link = 3) && s.ports.all (fun c => !ringRanked c.2.ringAct)

/-! ### Wake events (R540) -/

/-- Blocks leave Pilot, but for those of a lantern (R421), once the Lamplighter runs (R551). -/
def State.wakePilot (s : State) (blocks : BitVec 32) : State :=
  if s.start.lmcWait then { s with dim := { s.dim with owedBlocks := s.dim.owedBlocks ||| blocks } }
  else if s.lantern then s else s.wakeBlocks blocks

/-- Dies leave Dimmed, once the Lamplighter runs. -/
def State.wakeDies (s : State) (dies : BitVec 2) : State :=
  if s.start.lmcWait then { s with dim := { s.dim with owedDies := s.dim.owedDies ||| dies } }
  else { s with dim := s.dim.dimDies (s.dim.dimW && !dies.getLsbD 0) (s.dim.dimE && !dies.getLsbD 1) }

/-- A wake event for dies (bit 0 W, bit 1 E) and blocks: the module leaves Banked, and the units that the event needs return to Lit;
while the Lamplighter restarts they are owed (R540, R551). -/
def wakeEvent (dies : BitVec 2) (blocks : BitVec 32) (s : State) : State := (s.wakeModule.wakePilot blocks).wakeDies dies

/-- The units that wake events want woken since the Lamplighter restarted (R551). -/
def State.serveWakes (s : State) : State :=
  let s1 := if s.dim.owedBanked then s.leaveBanked else s
  let s2 := (s1.wakePilot s.dim.owedBlocks).wakeDies s.dim.owedDies
  { s2 with dim := { s2.dim with owedDies := 0, owedBlocks := 0, owedBanked := false } }

end Sys2Proof.Machine
end

