-- ==== Sys2Proof/Machine/Coll.lean ====
section
/-!
DEFINITION. Lampline collectives (R408–R416): descriptors, steps, reductions and gathers as frames pass, late
contributions, and the streams on the ATTACH links.
-/
namespace Sys2Proof.Machine

/-! ### Descriptor fields (LP_COLL[n]) -/

def Coll.valid (d : Coll) : Bool := d.w0.getLsbD 31
def Coll.op (d : Coll) : Nat := bits d.w0.toNat 30 28
def Coll.fmt (d : Coll) : Nat := bits d.w0.toNat 27 24
def Coll.policy (d : Coll) : Nat := bits d.w0.toNat 23 22
def Coll.rescale (d : Coll) : Bool := d.w0.getLsbD 21
def Coll.rings (d : Coll) : Nat := bits d.w0.toNat 20 18
def Coll.cid (d : Coll) : Nat := bits d.w0.toNat 11 0
def Coll.nranks (d : Coll) : Nat := bits d.w1.toNat 22 16
def Coll.grace (d : Coll) : Nat := bits d.w1.toNat 15 0
def Coll.chunk (d : Coll) : Nat := d.w2.toNat
def Coll.trigVid (d : Coll) : Nat := bits d.w3.toNat 27 16
def Coll.doneVid (d : Coll) : Nat := bits d.w3.toNat 11 0

/-- Live: VALID and not ended. -/
def Coll.live (d : Coll) : Bool := d.valid && d.state ≠ 3

/-- The rings of a scalar or sync descriptor, in the order X, Y, Z. -/
def Coll.ringList (d : Coll) : List Nat := (List.range 3).filter (fun i => d.rings.testBit i)

def State.coll (s : State) (p n : Nat) : Coll := sget {} n (s.port p).colls
def State.setColl (s : State) (p n : Nat) (d : Coll) : State :=
  s.modPort p (fun x => { x with colls := sput {} n d x.colls })
def State.modColl (s : State) (p n : Nat) (f : Coll → Coll) : State := s.setColl p n (f (s.coll p n))

/-- Blocks of a frame for the counters of R416: eight in G16, else one. -/
def Coll.blocks (d : Coll) : Nat := if d.fmt = 0xD then 8 else 1

/-- Contribution frames of a step: every chunk, or an all-gather's own (Table 14-6). -/
def Coll.inFrames (d : Coll) : Nat := if d.op = 1 then d.chunk else d.nranks * d.chunk

/-- Result frames of a step. -/
def Coll.outFrames (d : Coll) : Nat := if d.op = 0 then d.chunk else d.nranks * d.chunk

/-! ### The end of a descriptor (R361, R402, R412, R423) -/

/-- Held contributions of a descriptor are discarded and counted (R366, R415). -/
def State.dropHeld (s : State) (p n : Nat) : State :=
  let d := s.coll p n
  (s.setColl p n { d with held := [] }).modPort p (fun x =>
    { x with discard := satAdd x.discard (d.held.length * d.blocks) })

/-- A descriptor ends with a fault; a RED that waits for its T gets none (R361). -/
def State.endColl (s : State) (p n fault : Nat) : State :=
  let d := s.coll p n
  let s1 := (s.dropHeld p n).modColl p n (fun c =>
    { c with state := 3, fault := BitVec.ofNat 8 fault, flits := [], ready := [], parked := [], results := [],
             syncPark := none, value := none })
  if d.op = 3 && d.state ≠ 0 then s1.redFail d.trigObj else s1

/-- Tasks of a partition that list a virtual ID of a descriptor in their SYNC records stop with LINK_LOSS (R449). -/
def State.stopListed (s : State) (part : Nat) (d : Coll) : State :=
  s.live.foldl (fun s' c =>
    let r := s'.run c.1
    if r.part = part && r.syncs.any (fun y => y.vid = d.trigVid || y.vid = d.doneVid) then s'.stopTask c.1 2 else s') s

/-- LINK_LOSS: the descriptor ends, a fault record is written, the partition's LOSS flag is set and the Sideboard is
informed (R423, Table 17-5). -/
def State.linkLoss (s : State) (p n : Nat) : State :=
  let x := s.port p
  let d := s.coll p n
  let part := x.owner.getD 0xFF
  let s1 := (s.endColl p n 1).report 5 1 p part 0 0 0 (ringRank x.ringAct)
  match x.owner with
  | none => s1
  | some q => (s1.setFlag q 3).stopListed q d

/-- A seal mismatch on the Lampline ends the collective as a lost link does: a fault record is written and the Sideboard is
informed (R402, R423, R511). DEDUCED, unsafe: assumption 42. -/
def State.lampSeal (s : State) (p n : Nat) : State :=
  let x := s.port p
  let s1 : State := { s with integ := { s.integ with sealErr := satInc s.integ.sealErr } }
  let s2 := (s1.endColl p n 2).report 5 2 p (x.owner.getD 0xFF) 0 0 0 0
  match x.owner with
  | none => s2
  | some q => s2.stopListed q (s.coll p n)

/-! ### Ranks and chunks (R410, R411) -/

/-- The rank `k` places before rank `q` in the direction of a port. -/
def rankBefore (p n q k : Nat) : Nat := if eastPort p then (q + n - k % n) % n else (q + k) % n

/-- The next rank in the direction of a port. -/
def rankNext (p n q : Nat) : Nat := if eastPort p then (q + 1) % n else (q + n - 1) % n

/-- The chunk that contribution frame `j` of rank `q` belongs to: chunks are consumed in the order q − 1, …, q + 1, q. -/
def chunkOf (p : Nat) (d : Coll) (q j : Nat) : Nat :=
  if d.op = 1 then q else rankBefore p d.nranks q (j / d.chunk + 1)

/-- FORD of frame `f` of chunk `c`. -/
def fordOf (d : Coll) (c f : Nat) : BitVec 8 := BitVec.ofNat 8 (c * d.chunk + f)

/-! ### Contributions (R401, R409, R414, R415) -/

/-- A frame's payload and G16 headers from its sixteen flits: the header of block b is in AUX of flit 2b. -/
def frameOfFlits (fmt : Nat) (l : List Flit) : HeldFrame :=
  { payload := BitVec.ofNat 8192 (leNat (l.flatMap (fun f => flitBytes f.data)))
    aux := if fmt = 0xD then
        BitVec.ofNat 128 (packNat 16 ((List.range 8).map (fun b => ((l.getD (2 * b) ⟨0, 0, 0⟩).aux.toNat))))
      else 0 }

/-- The eight blocks of a G16 frame. -/
def HeldFrame.blocks (h : HeldFrame) : List G16 :=
  (List.range 8).map (fun b =>
    g16Of (leBytes 128 (bits h.payload.toNat (1024 * b + 1023) (1024 * b))) (bits h.aux.toNat (16 * b + 15) (16 * b)))

/-- A frame of eight blocks. -/
def frameOfBlocks (l : List G16) : HeldFrame :=
  { payload := BitVec.ofNat 8192 (leNat (l.flatMap G16.bytes))
    aux := BitVec.ofNat 128 (packNat 16 (l.map G16.header)) }

/-- The sum of two frames, the first operand first (R411). -/
def addFrames (fmt : Nat) (a b : HeldFrame) : HeldFrame :=
  if fmt = 0xD then frameOfBlocks ((a.blocks.zip b.blocks).map (fun c => c.1.add c.2))
  else { payload := BitVec.ofNat 8192 (leNat (lanesOp fmt 1 (leBytes 1024 a.payload.toNat) (leBytes 1024 b.payload.toNat)))
         aux := 0 }

/-- OR a flag into every block of a G16 frame, whose bytes stay as they are otherwise (R355). -/
def HeldFrame.flag (fmt : Nat) (h : HeldFrame) (fl : Nat) : HeldFrame :=
  if fmt = 0xD then { h with aux := h.aux ||| BitVec.ofNat 128 (packNat 16 (List.replicate 8 (256 * fl))) } else h

/-- What a rank that starts a chunk late sends: zero blocks with HOLE (R415). -/
def holeFrame (fmt : Nat) : HeldFrame :=
  if fmt = 0xD then frameOfBlocks (List.replicate 8 (.zero 1)) else {}

/-- Rescale of a completed block under Drop (R367). -/
def HeldFrame.rescale (fmt : Nat) (h : HeldFrame) (n k : Nat) : HeldFrame :=
  if fmt = 0xD then frameOfBlocks (h.blocks.map (fun b => b.rescale n k))
  else if k = 0 then {}
  else
    let w := laneBits fmt / 8
    let bs := leBytes 1024 h.payload.toNat
    let q (x : Fx) : Fx := (x.mul (.fin false n 0)).div (.fin false k 0)
    { payload := BitVec.ofNat 8192 (leNat ((List.range (1024 / w)).flatMap (fun i =>
        leBytes w (toElem fmt .rne (q (elemFx fmt (leNat ((bs.drop (w * i)).take w))))))))
      aux := 0 }

/-- The bytes that a seal covers, as the frame brings them: the 130-byte layout of each block, or the payload (R355, R402, R507). -/
def HeldFrame.sealBytes (fmt : Nat) (h : HeldFrame) : List Byte :=
  if fmt = 0xD then (List.range 8).flatMap (fun b =>
    leBytes 128 (bits h.payload.toNat (1024 * b + 1023) (1024 * b)) ++ leBytes 2 (bits h.aux.toNat (16 * b + 15) (16 * b)))
  else leBytes 1024 h.payload.toNat

/-- The flits of a result frame; G16 headers go in AUX of each block's first flit, a seal in AUX of the last. -/
def flitsOfFrame (fmt : Nat) (h : HeldFrame) (sl : BitVec 32) : List Flit :=
  (List.range 16).map (fun i =>
    { data := BitVec.ofNat 512 (bits h.payload.toNat (512 * i + 511) (512 * i))
      ord := 0
      aux := if i = 15 && sl ≠ 0 then sl
        else if fmt = 0xD && i % 2 = 0 then BitVec.ofNat 32 (bits h.aux.toNat (8 * i + 15) (8 * i)) else 0 })

/-- A running CRC that starts again with each unit of four frames. -/
def frameCrc (j : Nat) (c : BitVec 32) (l : List Byte) : BitVec 32 := crcStep (if j % 4 = 0 then 0xFFFFFFFF else c) l

/-- Contribution frame `j` has come whole, with the seal of its last flit: every contribution is checked, one that was passed
over too (R402). One that was passed over is held under Defer while the store of 512 frames has room, and otherwise discarded;
a held block of the same place joins the contribution, which is then LATE (R365, R366, R415, R416). -/
def State.takeContribution (s : State) (p n j : Nat) (h : HeldFrame) (sl : BitVec 32) : State :=
  let c0 := s.coll p n
  let crc := frameCrc j c0.crcL (h.sealBytes c0.fmt)
  if sl ≠ 0 && crcEnd crc ≠ sl then s.lampSeal p n
  else
    let d := { c0 with crcL := crc, sealing := c0.sealing || sl ≠ 0 }
    let old := d.held.find? (fun c => c.1 = j)
    let total := (s.port p).colls.foldl (fun a c => a + c.2.held.length) 0
    if d.missed.contains j then
      let d1 := { d with missed := d.missed.erase j }
      if d.policy = 1 && (old.isSome || total < 512) then
        let h1 := match old with
          | some c => addFrames d.fmt h c.2
          | none => h
        s.setColl p n { d1 with held := sins j h1 d.held }
      else (s.setColl p n d1).modPort p (fun x => { x with discard := satAdd x.discard d.blocks })
    else match old with
      | none => s.setColl p n { d with ready := d.ready ++ [(j, h, false)] }
      | some c =>
        let h1 := (addFrames d.fmt h c.2).flag d.fmt 2
        (s.setColl p n { d with ready := d.ready ++ [(j, h1, true)], held := sdel j d.held }).modPort p
          (fun x => { x with lates := satAdd x.lates d.blocks })

/-- Whether a contribution is LATE: a held block joined it, or a block of it says so (R416). -/
def HeldFrame.isLate (fmt : Nat) (h : HeldFrame) (late : Bool) : Bool :=
  late || (fmt = 0xD && h.blocks.any (fun b => b.flags.testBit 1))

/-! ### Frames that leave (R397, R400, R402) -/

/-- A DATA or REDUCE frame of a collective: chunk `c`, frame `f`, from rank `orig` to the next rank. -/
def State.collFrame (s : State) (p : Nat) (d : Coll) (reduce : Bool) (c f orig : Nat) (h : HeldFrame)
    (hole late : Bool) (ncontrib : Nat) (sl : Option (BitVec 32)) : Frame :=
  let x := s.port p
  let q := ringRank x.ringAct
  let nx := rankNext p d.nranks q
  let lastRank := if reduce then c else rankBefore p d.nranks orig 1
  { type := if reduce then 2 else 1
    hole := hole
    late := late
    sealed := sl.isSome
    last := f + 1 = d.chunk && nx = lastRank && (!reduce || d.op = 0)
    cid := BitVec.ofNat 12 d.cid
    orig := BitVec.ofNat 7 orig
    dest := BitVec.ofNat 7 (if reduce then nx else 0x7F)
    hops := x.hopsFor (eastPort p) nx
    ncontrib := BitVec.ofNat 7 ncontrib
    ford := fordOf d c f
    crc := sl.getD 0
    aux := h.aux
    payload := h.payload }

/-- Result frames go to the tiles. -/
def State.giveResult (s : State) (p n : Nat) (h : HeldFrame) (sl : BitVec 32) : State :=
  s.modColl p n (fun d => { d with results := d.results ++ flitsOfFrame d.fmt h sl })

/-- The reduced frame of the own chunk: a result of a reduce-scatter; of an all-reduce also the start of its gather, and
of an all-gather the own contribution (R410, R411). -/
def State.ownChunk (s : State) (p n f : Nat) (h : HeldFrame) (hole late : Bool) (ncontrib : Nat)
    (sl : Option (BitVec 32)) : State :=
  let d := s.coll p n
  let q := ringRank (s.port p).ringAct
  let s1 := s.giveResult p n h (sl.getD 0)
  if d.op = 0 then s1 else s1.putOwn p (s1.collFrame p d false q f q h hole late ncontrib sl)

/-- A contribution, a sum or a passed-over partial leaves for the next rank, or completes its chunk here; a completed
block of a Drop collective with RESCALE is rescaled when contributions are missing (R367): the element that it multiplies is the one of
the completed sum. DESIGN CHOICE, unsafe: assumption 75. The frames that go on, and those of
the chunk that ends here, form units of four that a fresh seal covers while the step's operands are sealed (R402). -/
def State.emitReduced (s : State) (p n : Nat) (h : HeldFrame) (hole late : Bool) (ncontrib : Nat) : State :=
  let d := s.coll p n
  let q := ringRank (s.port p).ringAct
  let j := d.reduced
  let c := chunkOf p d q j
  let f := j % d.chunk
  let own := c = q
  let e := if own then f else j
  let h1 := if own && d.op ≠ 1 && d.policy = 2 && d.rescale && ncontrib < d.nranks then h.rescale d.fmt d.nranks ncontrib
    else h
  let crc := frameCrc e d.crcS (h1.sealBytes d.fmt)
  let sl : Option (BitVec 32) := if e % 4 = 3 && d.sealing then some (crcEnd crc) else none
  let s1 := s.setColl p n { d with reduced := j + 1, crcS := crc, dueAt := s.time.toNat }
  if own then s1.ownChunk p n f h1 hole late ncontrib sl
  else s1.putOwn p (s1.collFrame p d true c f (rankBefore p d.nranks c (d.nranks - 1)) h1 hole late ncontrib sl)

/-- The next contribution of a chunk that starts here, or of an all-gather. -/
def State.startFrame (s : State) (p n : Nat) : Option State :=
  let d := s.coll p n
  match d.ready with
  | (j, h, late) :: rest =>
    if j = d.reduced then some ((s.setColl p n { d with ready := rest }).emitReduced p n h false (h.isLate d.fmt late) 1)
    else none
  | [] => none

/-- The frame of a partial, and the running CRC of the partials once it is consumed; the seal is checked at the end of a
unit (R402). -/
def Coll.partial_ (d : Coll) (f : Frame) : HeldFrame × BitVec 32 :=
  let a : HeldFrame := ⟨f.payload, f.aux⟩
  (a, frameCrc (d.reduced - d.chunk) d.crcP (a.sealBytes d.fmt))

/-- A parked partial meets its contribution: the partial's seal is checked at the end of a unit, and the sum goes on
(R402, R411). -/
def State.reduceFrame (s : State) (p n : Nat) (f : Frame) (h : HeldFrame) (late : Bool) : State :=
  let d := s.coll p n
  let a := d.partial_ f
  if f.sealed && crcEnd a.2 ≠ f.crc then s.lampSeal p n
  else
    let s1 := s.setColl p n
      { d with parked := d.parked.drop 1, ready := d.ready.drop 1, crcP := a.2, sealing := d.sealing || f.sealed }
    s1.emitReduced p n (addFrames d.fmt a.1 h) f.hole (f.late || h.isLate d.fmt late) (f.ncontrib.toNat + 1)

/-- A DATA frame is copied to the tiles and passes on until every rank has it (R402, R411). -/
def State.gatherFrame (s : State) (p n : Nat) (f : Frame) : State :=
  let d := s.coll p n
  let q := ringRank (s.port p).ringAct
  let h : HeldFrame := ⟨f.payload, f.aux⟩
  let j := d.gathered
  let crc := frameCrc (j % d.chunk) d.crcG (h.sealBytes d.fmt)
  if f.sealed && crcEnd crc ≠ f.crc then s.lampSeal p n
  else
    let s1 := (s.setColl p n { d with parked := d.parked.drop 1, gathered := j + 1, crcG := crc }).giveResult p n h
      (if f.sealed then f.crc else 0)
    if rankNext p d.nranks q = f.orig.toNat then s1
    else s1.putOwn p (s1.collFrame p d false f.orig.toNat (j % d.chunk) f.orig.toNat h f.hole f.late f.ncontrib.toNat
      (if f.sealed then some f.crc else none))

/-- One thing that a running step can do next: start a chunk, reduce the parked partial, or copy a gathered frame. -/
def State.collStep (s : State) (p n : Nat) : Option State :=
  let d := s.coll p n
  let q := ringRank (s.port p).ringAct
  if d.state ≠ 2 || 3 ≤ d.op || (s.port p).paused then none
  else if d.reduced < d.inFrames && (d.op = 1 || d.reduced < d.chunk) then s.startFrame p n
  else
    match d.parked with
    | [] => none
    | (_, f) :: _ =>
      if f.type = 2 then
        (if d.reduced < d.inFrames then
          match d.ready with
          | (j, h, late) :: _ => if j = d.reduced then some (s.reduceFrame p n f h late) else none
          | [] => none
        else none)
      else if d.gathered < (d.nranks - 1) * d.chunk && d.op ≠ 0 && f.orig.toNat ≠ q then some (s.gatherFrame p n f)
      else none

/-- A step goes on as far as it can. -/
def State.collRun (s : State) (p n : Nat) : Nat → State
  | 0 => s
  | k + 1 => match s.collStep p n with
    | none => s
    | some s' => s'.collRun p n k

/-- As far as it can: each thing done consumes a parked frame or a contribution. -/
def State.collGo (s : State) (p n : Nat) : State :=
  let d := s.coll p n
  s.collRun p n (d.parked.length + d.ready.length + 1)

/-! ### GRACE (R415) -/

/-- The frame periods of a port since a time in nanoseconds, from its lanes in force (Table 14-3); a spliced port's frames
take the periods of its skip link. -/
def State.framePeriods (s : State) (p since : Nat) : Nat :=
  let lanes := if p < 2 && (s.port p).spliced then (s.port (skipOf p)).lanes else (s.port p).lanes
  (s.time.toNat - since) * 100 * lanes / 4224

/-- Blocks of a partial that do not carry HOLE yet (R416). -/
def Coll.freshHoles (d : Coll) (f : Frame) : Nat :=
  if d.fmt = 0xD then ((HeldFrame.mk f.payload f.aux).blocks.filter (fun b => !b.flags.testBit 0)).length
  else if f.hole then 0 else 1

/-- A contribution is passed over: what leaves in its place carries HOLE, and the holes created are counted (R415, R416). -/
def State.passOver (s : State) (p n : Nat) (h : HeldFrame) (holes k : Nat) (late : Bool) : State :=
  let j := (s.coll p n).reduced
  (((s.modColl p n (fun c => { c with missed := c.missed ++ [j] })).modPort p
    (fun x => { x with holes := satAdd x.holes holes })).emitReduced p n h true late k).collGo p n

/-- GRACE_EXPIRY: a contribution still late GRACE frame periods after its partial arrived, or after the start of its chunk came
due, is passed over: the partial goes on unchanged with HOLE, and a chunk that should start here starts as zero blocks with
HOLE (R415, R416). DEDUCED, unsafe: assumption 42. -/
def graceExpiry (p n : Nat) (s : State) : State :=
  let d := s.coll p n
  let late := d.state = 2 && d.op < 3 && (d.policy = 1 || d.policy = 2) && d.reduced < d.inFrames && d.ready = []
    && !(s.port p).paused
  if !late then s
  else if d.reduced < d.chunk then
    (if s.framePeriods p d.dueAt < d.grace then s else s.passOver p n (holeFrame d.fmt) d.blocks 0 false)
  else match d.parked with
    | (at_, f) :: rest =>
      if f.type ≠ 2 || s.framePeriods p at_ < d.grace then s
      else
        let a := d.partial_ f
        if f.sealed && crcEnd a.2 ≠ f.crc then s.lampSeal p n
        else
          (s.setColl p n { d with parked := rest, crcP := a.2, sealing := d.sealing || f.sealed }).passOver p n
            (a.1.flag d.fmt 1) (d.freshHoles f) f.ncontrib.toNat f.late
    | [] => s

/-! ### Frames that arrive -/

/-- The descriptor of a CID in the port through which a frame would leave. -/
def State.findColl (s : State) (q cid : Nat) : Option Nat :=
  ((s.port q).colls.find? (fun c => c.2.live && c.2.cid = cid && c.2.op < 3)).map (·.1)

/-- A frame of no live descriptor at its destination is discarded and counted. -/
def State.ttlDrop (s : State) (q : Nat) : State := s.modPort q (fun x => { x with ttlDrop := satInc x.ttlDrop })

/-- A frame for this rank joins the collective's frames in order and the step goes on; frames for others are forwarded
(R394, R414, R421). -/
def State.collArrive (s : State) (p : Nat) (f : Frame) (mine : Bool) : State :=
  let q := pairPort p
  if !mine then s.forward p f
  else match s.findColl q f.cid.toNat with
    | none => s.ttlDrop q
    | some n => (s.modColl q n (fun d => { d with parked := d.parked ++ [(s.time.toNat, f)] })).collGo q n

/-- DATA_FRAME: consumed and copied by each rank, forwarded by a lantern (R411, R421). -/
def dataFrame (p : Nat) (f : Frame) (s : State) : State :=
  s.rx p 1 f (fun g p' t =>
    let x := t.port (pairPort p')
    t.collArrive p' g (ringRanked x.ringAct && (g.dest = 0x7F || g.dest.toNat = ringRank x.ringAct)))

/-- REDUCE_FRAME: a partial meets the local contribution at its destination rank, or parks (R411, R414). -/
def reduceArrives (p : Nat) (f : Frame) (s : State) : State :=
  s.rx p 2 f (fun g p' t =>
    let x := t.port (pairPort p')
    t.collArrive p' g (ringRanked x.ringAct && g.dest.toNat = ringRank x.ringAct))

/-! ### Steps (R408, R543, R426) -/

/-- A step begins: its frames, its streams and its seals count anew, and its first chunk is due now. A contribution stream
that runs late goes on where it stands (R415). -/
def Coll.begin (d : Coll) (now : Nat) : Coll :=
  { d with state := 2, w4 := d.w4 + 1, started := d.started + 1, reduced := 0, gathered := 0, kOut := 0, ringAt := 0,
           sealing := false, dueAt := now }

/-! ### ATTACH streams (R409) -/

/-- The routers of a port's attach group in stream order (Table 8-2, R409). -/
def attachRouter (p i : Nat) : TileId :=
  let y0 := [0, 6, 20, 26].getD (p / 2) 0
  if p % 2 = 0 then tileOf 0 (y0 + i) else tileOf 63 (y0 + 5 - i)

/-- Flits of a step's stream from the tiles. -/
def Coll.streamLen (d : Coll) : Nat := 16 * d.inFrames

/-- A stream that does not match the step's length ends the step with EXCH_ORDER in the router's tile (R245, R409). -/
def State.streamWrong (s : State) (p n : Nat) (t : TileId) (aux : Nat) : State :=
  (s.endColl p n 3).raise t exchORDER false (s.tile t).exchPc aux

/-- LAMPLINE_ATTACH_FLIT out of the tiles: the port takes flit k of a step's stream from router ⌊k / 16⌋ mod 6 after its
ordinal check; a flit beyond the length of the step in progress, or a stream that its phase left short of that length, ends
it with EXCH_ORDER in the router's tile (R245, R409). Between two steps the flits of the next one wait. DEDUCED, unsafe:
assumption 42. -/
def attachFlitIn (p n : Nat) (s : State) : State :=
  let d := s.coll p n
  let k := d.kIn % d.streamLen
  let t := attachRouter p (k / 16 % 6)
  let a := s.armLink t
  let beyond := d.streamLen * d.started ≤ d.kIn
  if !d.live || 3 ≤ d.op || d.started = 0 then s
  else
    match a.fromRouter with
    | [] => if d.state = 2 && 0 < k && (s.tile t).st ≠ 4 then s.streamWrong p n t (2 ^ 8 + 5) else s
    | f :: more =>
      let ord := f.ord.toNat
      let exp := a.kIn % 256
      if beyond && d.state ≠ 2 then s
      else if beyond then s.streamWrong p n t (ord * 2 ^ 24 + 2 ^ 8 + 5)
      else if ord ≠ exp then s.streamWrong p n t (ord * 2 ^ 24 + exp * 2 ^ 16 + 5)
      else
        let l := d.flits ++ [f]
        let s1 := s.setArmLink t { a with fromRouter := more, kIn := a.kIn + 1 }
        if l.length < 16 then s1.setColl p n { d with flits := l, kIn := d.kIn + 1 }
        else
          let j := k / 16
          let sl := if j % 4 = 3 then (l.getD 15 f).aux else 0
          ((s1.setColl p n { d with flits := [], kIn := d.kIn + 1 }).takeContribution p n j (frameOfFlits d.fmt l) sl).collGo p n

/-- LAMPLINE_ATTACH_FLIT into the tiles: the port gives the next result flit to router ⌊k / 16⌋ mod 6, with its ORD, while
that router's ATTACH input expects flits and has room (R409). A stream whose phase expects fewer flits than it brings ends
the step with EXCH_ORDER (R245). DEDUCED, unsafe: assumption 42. -/
def attachFlitOut (p n : Nat) (s : State) : State :=
  let d := s.coll p n
  let t := attachRouter p (d.kOut / 16 % 6)
  let x := s.tile t
  let i := sget {} 4 x.exch.ins
  let a := s.armLink t
  match d.results with
  | [] => s
  | f :: rest =>
    if x.st ≠ 4 then s
    else if i.slots ≤ a.kOut then
      (if 0 < d.kOut && d.state = 2 then s.streamWrong p n t (a.kOut % 256 * 2 ^ 24 + 2 ^ 8 + 5) else s)
    else if 8 ≤ i.fifo.length then s
    else
      let g := { f with ord := BitVec.ofNat 8 a.kOut }
      let s1 := s.modTile t (fun y =>
        { y with exch := { y.exch with ins := sput {} 4 { i with fifo := i.fifo ++ [g] } y.exch.ins } })
      (s1.setArmLink t { a with kOut := a.kOut + 1 }).setColl p n { d with results := rest, kOut := d.kOut + 1 }

/-- LAMPLINE_ATTACH_FLIT. -/
def attachFlit (p n : Nat) (out : Bool) (s : State) : State := if out then attachFlitIn p n s else attachFlitOut p n s

end Sys2Proof.Machine
end

