-- ==== Sys2Proof/Machine/Nbl.lean ====
section
/-!
DEFINITION. Nelbel loadables (Chapter 10): the file format, the loader's checks in the order of R314, the binding of
HBM regions and sync symbols, the prepared image with its table entry (R442), and the patching of relocation records.
-/
namespace Sys2Proof.Machine

/-! ### The file (R301, R302) -/

/-- `n` bytes of a file at offset `o`, little-endian. -/
def fld (f : List Byte) (o n : Nat) : Nat := leNat ((f.drop o).take n)

/-- A section-table entry (R302). -/
structure NblSect where
  ty : Nat
  req : Bool
  count : Nat
  off : Nat
  len : Nat
  deriving DecidableEq, Repr

/-- Record sizes of Table 10-4, by TYPE. -/
def recSize (ty : Nat) : Nat := [0, 16, 16, 8, 16, 8, 8, 16, 8, 0].getD ty 0

/-- Whether a TYPE is one of Table 10-4. -/
def knownSect (ty : Nat) : Bool := 1 ≤ ty && ty ≤ 9

def nblSects (f : List Byte) : List NblSect :=
  (List.range (min (fld f 16 4) 64)).map (fun i =>
    let o := fld f 20 4 + 16 * i
    ⟨fld f o 2, (fld f (o + 2) 2).testBit 0, fld f (o + 4) 4, fld f (o + 8) 4, fld f (o + 12) 4⟩)

def nblSect (f : List Byte) (ty : Nat) : Option NblSect := (nblSects f).find? (fun e => e.ty = ty)

/-- The records of a section as pairs of 64-bit words; the second word of an 8-byte record is 0. -/
def nblRecs (f : List Byte) (ty : Nat) : List (Nat × Nat) :=
  match nblSect f ty with
  | none => []
  | some e => (List.range e.count).map (fun i =>
      let o := e.off + recSize ty * i
      (fld f o 8, if recSize ty = 16 then fld f (o + 8) 8 else 0))

def nblW (f : List Byte) : Nat := fld f 8 1
def nblH (f : List Byte) : Nat := fld f 9 1
def nblPhases (f : List Byte) : Nat := fld f 10 2
def nblEntryPc (f : List Byte) : Nat := fld f 12 4
def nblArgsLen (f : List Byte) : Nat := fld f 28 4
def nblSyms (f : List Byte) : Nat := fld f 32 4
def nblHdrCrc (f : List Byte) : Nat := fld f 36 4
/-- Tiles of the footprint. -/
def nblTiles (f : List Byte) : Nat := 64 * nblW f * nblH f

/-- Two byte ranges (offset, length) share a byte. -/
def rangesMeet (a b : Nat × Nat) : Bool := a.2 ≠ 0 && b.2 ≠ 0 && a.1 < b.1 + b.2 && b.1 < a.1 + a.2

/-- Whether no two of some things clash. -/
def allApart {α : Type} (clash : α → α → Bool) : List α → Bool
  | [] => true
  | a :: r => r.all (fun b => !clash a b) && allApart clash r

/-- Step 1 of R314: MAGIC, FORMAT, HDR_CRC and the section table (R301, R302). -/
def nblFormatOk (f : List Byte) : Bool :=
  let n := fld f 16 4
  let o := fld f 20 4
  let l := nblSects f
  64 ≤ f.length && fld f 0 4 = 0x4C424E4B && fld f 5 1 = 1 && 1 ≤ n && n ≤ 64 && o % 8 = 0 && o + 16 * n ≤ f.length &&
    fld f 36 4 = (crc32c (f.take 36 ++ (f.drop o).take (16 * n))).toNat && fld f 40 24 = 0 &&
    l.all (fun e => e.off + e.len ≤ f.length && (if knownSect e.ty then e.count * recSize e.ty ≤ e.len else !e.req)) &&
    allApart (fun (a b : NblSect) => knownSect a.ty && a.ty = b.ty) l &&
    allApart rangesMeet ((0, 64) :: (o, 16 * n) :: l.map (fun e => (e.off, e.len)))

/-! ### The seal manifest (R312) -/

/-- The CRC of 4 KiB block `b` of a section. -/
def blockCrc (f : List Byte) (e : NblSect) (b : Nat) : Nat :=
  (crc32c ((f.drop (e.off + 4096 * b)).take (min 4096 (e.len - 4096 * b)))).toNat

/-- Every 4 KiB block of every REQUIRED section other than SEAL has exactly one entry, and every entry of a block that the file
holds has the block's CRC. NOTE is never REQUIRED (Table 10-4). -/
def nblSealOk (f : List Byte) : Bool :=
  (nblSects f).all (fun e =>
    !e.req || e.ty = 8 || e.ty = 9 || (List.range ((e.len + 4095) / 4096)).all (fun b =>
      ((nblRecs f 8).filter (fun r => bits r.1 63 48 = e.ty && bits r.1 47 32 = b)).length = 1)) &&
  (nblRecs f 8).all (fun r => (nblSects f).all (fun e =>
    bits r.1 63 48 ≠ e.ty || e.len ≤ 4096 * bits r.1 47 32 || bits r.1 31 0 = blockCrc f e (bits r.1 47 32)))

/-! ### Shape and load records (R301, R303, R305) -/

/-- A load record (R303). -/
structure LoadRec where
  code : Bool
  rel0 : Nat
  rel1 : Nat
  zero : Bool
  addr : Nat
  len : Nat
  off : Nat
  resv : Nat
  deriving DecidableEq, Repr

def loadRecOf (code : Bool) (r : Nat × Nat) : LoadRec :=
  ⟨code, bits r.1 63 52, bits r.1 51 40, r.1.testBit 39, bits r.1 21 0, bits r.2 63 32, bits r.2 31 0, bits r.1 38 22⟩

def loadRecs (f : List Byte) : List LoadRec := (nblRecs f 1).map (loadRecOf true) ++ (nblRecs f 2).map (loadRecOf false)

/-- The bytes that a record places. -/
def LoadRec.bytes (f : List Byte) (r : LoadRec) : List Byte :=
  if r.zero then List.replicate r.len 0 else (f.drop r.off).take r.len

/-- Whether a record covers `n` bytes at `a` in the tile with relative ID `rel`. -/
def LoadRec.covers (r : LoadRec) (rel a n : Nat) : Bool := r.rel0 ≤ rel && rel ≤ r.rel1 && r.addr ≤ a && a + n ≤ r.addr + r.len

/-- The rules of a load record (R303). A DATA record that reaches beyond the shelves breaks them too. DESIGN CHOICE, safe: assumption
72. -/
def loadRecOk (f : List Byte) (r : LoadRec) : Bool :=
  let inSect : Bool := match nblSect f (if r.code then 1 else 2) with
    | none => false
    | some e => e.off ≤ r.off && r.off + r.len ≤ e.off + e.len
  r.resv = 0 && r.rel0 ≤ r.rel1 && r.rel1 < nblTiles f && r.addr % (if r.code then 16 else 8) = 0 && r.len % 8 = 0 &&
    r.addr + r.len ≤ (if r.code then 0x100000 else shelfEnd) && (r.zero || r.len = 0 || inSect)

def loadRecsMeet (a b : LoadRec) : Bool :=
  a.rel0 ≤ b.rel1 && b.rel0 ≤ a.rel1 && rangesMeet (a.addr, a.len) (b.addr, b.len)

/-- An attach record (R305): footprint position and kind, 1 memory, 2 Lampline, 3 CXL. -/
structure AttachRec where
  fx : Nat
  fy : Nat
  kind : Nat
  deriving DecidableEq, Repr

def attachRecs (f : List Byte) : List AttachRec :=
  (nblRecs f 3).map (fun r => ⟨bits r.1 63 58, bits r.1 57 53, bits r.1 52 51⟩)

/-- Step 4 of R314: the shape, the load records, the attach records and the argument block for the host streams
(R301, R303, R305, R477). An attach record that breaks R305 is refused here. DESIGN CHOICE, safe: assumption 72. -/
def nblShapeOk (f : List Byte) : Bool :=
  let w := nblW f
  let h := nblH f
  1 ≤ w && w ≤ 8 && 1 ≤ h && h ≤ 4 && nblEntryPc f % 16 = 0 && nblEntryPc f < 0x100000 &&
    nblArgsLen f ≤ 4096 && nblArgsLen f % 8 = 0 &&
    (loadRecs f).all (loadRecOk f) && allApart loadRecsMeet (loadRecs f) &&
    (nblRecs f 3).all (fun r => bits r.1 50 0 = 0) &&
    (attachRecs f).all (fun a => a.kind ≠ 0 && a.fx < 8 * w && a.fy < 8 * h) &&
    32 * ((attachRecs f).filter (fun a => a.kind = 3)).length ≤ nblArgsLen f

/-! ### Router programs (R241, R306) -/

/-- An EXCH record: REL, PHASE, PROG_ADDR, PROG_LEN. -/
structure ExchRec where
  rel : Nat
  phase : Nat
  addr : Nat
  len : Nat
  deriving DecidableEq, Repr

def exchRecs (f : List Byte) : List ExchRec :=
  (nblRecs f 4).map (fun r => ⟨bits r.1 63 52, bits r.1 47 32, bits r.1 21 0, bits r.2 31 0⟩)

/-- The load record of section DATA that holds a program's bytes in a tile. -/
def progRecord (f : List Byte) (e : ExchRec) : Option LoadRec :=
  ((loadRecs f).filter (fun r => !r.code)).find? (fun r => r.covers e.rel e.addr e.len)

def exchRecOk (f : List Byte) (e : ExchRec) : Bool :=
  e.phase < nblPhases f && e.rel < nblTiles f && (e.len = 0 || (progRecord f e).isSome)

/-- The bytes of the router program of a tile in a phase; none counts as an empty program (R306). -/
def progBytes (f : List Byte) (phase rel : Nat) : List Byte :=
  match (exchRecs f).find? (fun e => e.phase = phase && e.rel = rel) with
  | none => []
  | some e => match progRecord f e with
    | none => []
    | some r => ((r.bytes f).drop (e.addr - r.addr)).take e.len

/-- Header entries of a router program, 0–4 the input queues, 5–10 the output tables (R237). -/
def progHdr (b : List Byte) : List Nat :=
  if b = [] then List.replicate 11 0 else (List.range 11).map (fun i => fld b (8 * i) 8)

/-- The records of queue or table `q`. -/
def progRecs (b : List Byte) (q : Nat) : List (BitVec 64) :=
  let l := progHdr b
  let n := ((l.take q).map hdrRecs).foldl (· + ·) 0
  (List.range (hdrRecs (l.getD q 0))).map (fun i => BitVec.ofNat 64 (fld b (88 + 8 * (n + i)) 8))

def progSlots (b : List Byte) (q : Nat) : Nat := hdrSlots ((progHdr b).getD q 0)

/-- R237–R240 for one program: its header, its records and, by queue, the sum of COUNT_M1 + 1. -/
def routerProgOk (pe : Nat → Bool) (b : List Byte) : Bool :=
  b = [] ||
    (88 ≤ b.length && (progHdr b).all (fun w => bits w 63 48 = 0 && bits w 31 17 = 0 && hdrSlots w ≤ 65536) &&
      b.length = 88 + 8 * ((progHdr b).map hdrRecs).foldl (· + ·) 0 &&
      (List.range 11).all (fun q =>
        ((progRecs b q).map rCount).foldl (· + ·) 0 = progSlots b q &&
        (progRecs b q).all (fun w =>
          if q < 5 then pe (inCode q) && inRecForm pe q w else outRecForm pe (q - 5) w)))

/-- Flits that the input records of a program route from input `c` to output `o`, and flits that the output records
take from it (R241). -/
def progRouted (b : List Byte) (c o : Nat) : Nat :=
  (((progRecs b c).filter (fun w => (rDest w).testBit o)).map rCount).foldl (· + ·) 0
def progTaken (b : List Byte) (c o : Nat) : Nat :=
  ((progRecs b (5 + o)).map (fun w =>
    rCount w * (b2n (decide (rSrc w = inCode c)) + b2n (decide (rSrc2 w = inCode c))))).foldl (· + ·) 0

/-- The relative ID across link `p` inside a footprint of `w` × `h` blocks (R55). -/
def relAcross (w h rel p : Nat) : Option Nat :=
  let x := rel / (8 * h)
  let y := rel % (8 * h)
  if p = 0 then (if y + 1 < 8 * h then some (rel + 1) else none)
  else if p = 1 then (if x + 1 < 8 * w then some (rel + 8 * h) else none)
  else if p = 2 then (if 0 < y then some (rel - 1) else none)
  else if p = 3 then (if 0 < x then some (rel - 8 * h) else none)
  else none

/-- The ports of a router of a footprint: TILE, the links inside the footprint and the recorded attach (R305). -/
def nblPort (f : List Byte) (rel p : Nat) : Bool :=
  p = 4 || (p < 4 && (relAcross (nblW f) (nblH f) rel p).isSome) ||
    (p = 5 && (attachRecs f).any (fun a => 8 * nblH f * a.fx + a.fy = rel))

/-- R241 at one router in one phase. -/
def routerOk (f : List Byte) (phase rel : Nat) : Bool :=
  let b := progBytes f phase rel
  routerProgOk (nblPort f rel) b &&
    (List.range 4).all (fun p =>
      progSlots b (5 + p) = (match relAcross (nblW f) (nblH f) rel p with
        | none => 0
        | some v => progSlots (progBytes f phase v) (farSide p))) &&
    (List.range 5).all (fun c => (List.range 6).all (fun o => progRouted b c o = progTaken b c o))

/-- The EXCH records and every program they name (R241, R306). -/
def nblExchOk (f : List Byte) : Bool :=
  (exchRecs f).all (exchRecOk f) &&
    allApart (fun (a b : ExchRec) => a.rel = b.rel && a.phase = b.phase) (exchRecs f) &&
    (((exchRecs f).map (·.phase)).dedup).all (fun ph => (List.range (nblTiles f)).all (routerOk f ph))

/-! ### Rings and sync symbols (R307, R308) -/

/-- A RING record. -/
structure RingRec where
  rel : Nat
  ring : Nat
  isOpen : Bool
  size : Nat
  base : Nat
  deriving DecidableEq, Repr

def ringRecs (f : List Byte) : List RingRec :=
  (nblRecs f 5).map (fun r => ⟨bits r.1 63 52, bits r.1 51 49, r.1.testBit 48, bits r.1 47 37, bits r.1 36 23⟩)

def ringRecsClash (a b : RingRec) : Bool :=
  a.rel = b.rel && (a.ring = b.ring || (a.isOpen && b.isOpen && ringsMeet a.base a.size b.base b.size))

/-- R307 with the checks of R68. A record whose REL lies beyond the footprint fails. DESIGN CHOICE, safe: assumption 72. -/
def nblRingOk (f : List Byte) : Bool :=
  (ringRecs f).all (fun r => r.rel < nblTiles f &&
      (!r.isOpen || (1 ≤ r.size && r.size ≤ 1024 && 64 * (r.base + r.size) ≤ 0x100000))) &&
    allApart ringRecsClash (ringRecs f)

/-- A SYNC record (R308). -/
structure SyncSym where
  sym : Nat
  scope : Nat
  check : Bool
  net : Nat
  deriving DecidableEq, Repr

def syncSyms (f : List Byte) : List SyncSym :=
  (nblRecs f 6).map (fun r => ⟨bits r.1 63 52, bits r.1 51 50, r.1.testBit 47, bits r.1 31 0⟩)

def nblSyncOk (f : List Byte) : Bool :=
  nblSyms f ≤ 4096 && (syncSyms f).all (fun y => y.sym < nblSyms f) &&
    allApart (fun (a b : SyncSym) => a.sym = b.sym) (syncSyms f)

/-- Whether a translation entry meets a SCOPE: 0 any object of the partition, 1 a die node or the root, 2 the root,
3 the root with LAMP = 1 (R308, Table 9-2). -/
def meetsScope (e : BitVec 32) (scope : Nat) : Bool :=
  let o := e.toNat % 2 ^ 15
  e.getLsbD 31 && (scope = 0 || (scope = 1 && 24576 ≤ o) || (scope = 2 && 28672 ≤ o) ||
    (scope = 3 && 28672 ≤ o && e.getLsbD 30))

/-- The binding of every symbol meets its SCOPE; a symbol that no SYNC record lists has footprint scope. -/
def bindOk (s : State) (part : Nat) (f : List Byte) (syms : List (BitVec 12)) : Bool :=
  syms.length = nblSyms f && syms.zipIdx.all (fun c =>
    meetsScope (s.xlateEntry part c.1.toNat)
      (match (syncSyms f).find? (fun y => y.sym = c.2) with
       | some y => y.scope
       | none => 0))

/-! ### Relocation records (R309–R311) -/

/-- A relocation record. -/
structure RelocRec where
  kind : Nat
  pos : Nat
  wm1 : Nat
  rel : Nat
  addr : Nat
  add : Bool
  shift : Nat
  index : Nat
  addend : Int
  deriving DecidableEq, Repr

def relocOf (r : Nat × Nat) : RelocRec :=
  ⟨bits r.1 63 56, bits r.1 55 50, bits r.1 49 44, bits r.1 43 32, bits r.1 31 0, r.2.testBit 63, bits r.2 62 56,
    bits r.2 47 32, toSigned 32 (bits r.2 31 0)⟩

def relocRecs (f : List Byte) : List RelocRec := (nblRecs f 7).map relocOf

/-- Table 10-5: the records applied at submission. -/
def RelocRec.early (r : RelocRec) : Bool := r.kind = 1 || r.kind = 2

/-- The relative IDs that a record patches. -/
def RelocRec.rels (r : RelocRec) (n : Nat) : List Nat := if r.rel = 0xFFF then List.range n else [r.rel]

/-- How many INDEX values a kind may name. HBM regions are those bound (R310). -/
def relocLimit (f : List Byte) (kind : Nat) : Nat :=
  if kind = 2 then nblSyms f
  else if kind = 3 then nblArgsLen f / 8
  else if kind = 4 then nblTiles f
  else (attachRecs f).length

/-- The smallest field of Table 10-5. -/
def relocMin (kind : Nat) : Nat := if kind = 2 then 12 else if kind = 4 then 11 else if kind = 5 then 4
  else if kind = 6 then 3 else if kind = 7 then 25 else 1

/-- R309 and R310 for one record. -/
def relocOk (f : List Byte) (regions : List (BitVec 16 × BitVec 64)) (r : RelocRec) : Bool :=
  let kindOf := ((attachRecs f)[r.index]?.map (·.kind)).getD 0
  1 ≤ r.kind && r.kind ≤ 7 && r.pos + r.wm1 ≤ 63 && r.shift ≤ 63 && r.addr % 8 = 0 &&
    (r.rel = 0xFFF || r.rel < nblTiles f) &&
    (if r.kind = 1 then regions.any (fun c => c.1.toNat = r.index) else r.index < relocLimit f r.kind) &&
    (!(r.kind = 5 || r.kind = 7) || kindOf = 1) && (r.kind ≠ 6 || kindOf = 2) &&
    (r.shift ≠ 0 || r.add || relocMin r.kind ≤ r.wm1 + 1) &&
    (r.rels (nblTiles f)).all (fun rel => (loadRecs f).any (fun l => l.covers rel r.addr 8))

def nblRelocOk (f : List Byte) (regions : List (BitVec 16 × BitVec 64)) : Bool :=
  (nblRecs f 7).all (fun r => bits r.2 55 48 = 0) && (relocRecs f).all (relocOk f regions)

/-- v = (BASE + ADDEND) >> SHIFT, as a 64-bit two's-complement quantity (R309). -/
def RelocRec.value (r : RelocRec) (base : Nat) : BitVec 64 :=
  (BitVec.ofInt 64 ((base : Int) + r.addend)).sshiftRight r.shift

/-- Patch one 64-bit word (R309). -/
def RelocRec.patchWord (r : RelocRec) (v : BitVec 64) (word : Nat) : Nat :=
  let m := 2 ^ (r.wm1 + 1)
  let old := (word >>> r.pos) % m
  let new := (if r.add then old + v.toNat else v.toNat) % m
  word - old * 2 ^ r.pos + new * 2 ^ r.pos

/-- Patch one shelf word of a tile; a word that is poisoned stays so (R348, R456). -/
def RelocRec.patch (r : RelocRec) (v : BitVec 64) (x : Tile) : Tile :=
  { x.put (at' r.addr (leBytes 8 (r.patchWord v (readLE x.shelf r.addr 8)))) with bad := x.bad }

/-- Apply a record to the tiles of a footprint (R311: in file order). -/
def applyReloc (run : Run) (r : RelocRec) (v : BitVec 64) (s : State) : State :=
  (r.rels run.size).foldl (fun s' rel => s'.modTile (run.tileAt rel) (r.patch v)) s

/-! ### Loading (R314) -/

/-- Loader status codes (Table 10-7). -/
def nblFAMILY : Nat := 0x10
def nblFORMAT : Nat := 0x11
def nblSEAL : Nat := 0x12
def nblSHAPE : Nat := 0x13
def nblPLACE : Nat := 0x14
def nblRELOC : Nat := 0x15
def nblRING : Nat := 0x16
def nblSYNC : Nat := 0x17
def nblEXCH : Nat := 0x20

/-- Whether a position carries an attach of the recorded kind that the partition owns (R256, R257). -/
def attachHere (s : State) (part bx0 by0 : Nat) (a : AttachRec) : Bool :=
  match attachOf (tileOf (8 * bx0 + a.fx) (8 * by0 + a.fy)) with
  | some (.memory k) => a.kind = 1 && (s.stack k).owner = some part
  | some (.lamp n) => a.kind = 2 && (sget {} n s.ports).owner = some part
  | some .cxl => a.kind = 3
  | none => false

/-- ADMIT: the admissible positions by lower-left block (Table 15-6, R256, R257). -/
def admitMask (s : State) (part : Nat) (f : List Byte) : Nat :=
  (List.range (9 - nblW f)).foldl (fun acc bx0 => (List.range (5 - nblH f)).foldl (fun acc by0 =>
    if (attachRecs f).all (attachHere s part bx0 by0) then acc + 2 ^ (4 * bx0 + by0) else acc) acc) 0

/-- The status that the steps of R314 give, stopping at the first refusal; below 0x10 the NBL is accepted. -/
def nblStatus (s : State) (part : Nat) (f : List Byte) (regions : List (BitVec 16 × BitVec 64))
    (syms : List (BitVec 12)) : Nat :=
  if !nblFormatOk f then nblFORMAT
  else if fld f 6 2 / 16 ≠ 0x004 then nblFAMILY
  else if !nblSealOk f then nblSEAL
  else if !nblShapeOk f then nblSHAPE
  else if !nblExchOk f then nblEXCH
  else if !nblRingOk f then nblRING
  else if !nblSyncOk f then nblSYNC
  else if !nblRelocOk f regions then nblRELOC
  else if !bindOk s part f syms then nblSYNC
  else if admitMask s part f = 0 then nblPLACE
  else (if fld f 6 2 = s.beatTable then 0 else 1) + (if fld f 24 4 = 0 then 0 else 2)

/-- Zero bytes up to a multiple of 8. -/
def pad8 (l : List Byte) : List Byte := l ++ List.replicate ((8 - l.length % 8) % 8) 0

/-- The submission-time bindings as bytes (BIND_ID). DESIGN CHOICE, unsafe: assumption 17. -/
def bindBytes (regions : List (BitVec 16 × BitVec 64)) (syms : List (BitVec 12)) : List Byte :=
  regions.flatMap (fun c => leBytes 2 c.1.toNat ++ leBytes 8 c.2.toNat) ++ syms.flatMap (fun v => leBytes 2 v.toNat)

/-- The values of the submission-time records, in file order (R311). -/
def earlyValues (f : List Byte) (regions : List (BitVec 16 × BitVec 64)) (syms : List (BitVec 12)) : List (BitVec 64) :=
  ((relocRecs f).filter RelocRec.early).map (fun r => r.value
    (if r.kind = 1 then ((regions.find? (fun c => c.1.toNat = r.index)).map (·.2.toNat)).getD 0
     else (syms.getD r.index 0).toNat))

/-- A prepared image: the file's length and the symbol count, the file, the values of its submission-time records and the
virtual IDs of its symbols. DESIGN CHOICE, unsafe: assumption 17. -/
def imageBytes (f : List Byte) (regions : List (BitVec 16 × BitVec 64)) (syms : List (BitVec 12)) : List Byte :=
  leBytes 4 f.length ++ leBytes 4 syms.length ++ pad8 f ++
    (earlyValues f regions syms).flatMap (fun v => leBytes 8 v.toNat) ++ pad8 (syms.flatMap (fun v => leBytes 2 v.toNat))

/-- The dispatch-time records of a file, as bytes (Table 15-6, word 2). -/
def lateBytes (f : List Byte) : List Byte :=
  ((nblRecs f 7).filter (fun r => !(relocOf r).early)).flatMap (fun r => leBytes 8 r.1 ++ leBytes 8 r.2)

/-- The 64 bytes of a prepared-NBL entry (Table 15-6). -/
def entryBytes (addr len admits late nlate bind hdr : Nat) : List Byte :=
  leBytes 8 addr ++ leBytes 8 (len * 2 ^ 32 + admits) ++ leBytes 8 late ++ leBytes 8 (nlate * 2 ^ 32 + bind) ++
    leBytes 8 hdr ++ leBytes 24 0

/-- NBL_LOAD: the loader checks an NBL, binds it and writes its prepared image at `addr` and its entry at index `slot` of the
partition's table (R314, R442); a re-key of a stack that it writes holds it (R351). The answer is the status and, when it is accepted,
the handle. PRESUMED, safe: assumptions 17
and 51. -/
def nblLoad (part slot : Nat) (f : List Byte) (addr : Nat) (regions : List (BitVec 16 × BitVec 64))
    (syms : List (BitVec 12)) (s : State) : State :=
  let st := nblStatus s part f regions syms
  let tab := (s.part part).sb.nblBase.toNat + 64 * slot
  let img := imageBytes f regions syms
  let late := lateBytes f
  if 0x10 ≤ st then { s with reply := [BitVec.ofNat 64 st, 0] }
  else if 1024 ≤ slot || !(s.inPart part addr (img.length + late.length) && s.inPart part tab 64) then { s with reply := [] }
  else if s.heldRange part addr (img.length + late.length) || s.heldRange part tab 64 then s
  else
    let s1 := s.writePart part addr (img ++ late)
    let s2 := s1.writePart part tab (entryBytes addr img.length (admitMask s part f) (addr + img.length)
      (late.length / 16) (crc32c (bindBytes regions syms)).toNat (nblHdrCrc f))
    { s2 with reply := [BitVec.ofNat 64 st, BitVec.ofNat 64 (slot + 1)] }

/-! ### Reading a prepared NBL back (R442) -/

/-- A prepared-NBL entry. -/
structure NblEntry where
  addr : Nat := 0
  len : Nat := 0
  admits : Nat := 0
  late : Nat := 0
  nlate : Nat := 0
  bind : Nat := 0
  hdr : Nat := 0
  deriving DecidableEq, Repr

/-- Bytes of a partition's HBM, without the effects of a read, which `State.readPart` adds. -/
def State.peek (s : State) (part a n : Nat) : List Byte :=
  (List.range n).map (fun i => match s.hbmMap part (a + i) with
    | some (k, l) => (s.stack k).byte k l
    | none => 0)

/-- The entry of a handle; a handle outside 1–1,024 or with an empty image is unknown (R441). -/
def State.nblEntry (s : State) (part h : Nat) : Option NblEntry :=
  let a := (s.part part).sb.nblBase.toNat + 64 * (h - 1)
  if h = 0 || 1024 < h || !s.inPart part a 64 then none
  else
    let b := s.peek part a 64
    let e : NblEntry := ⟨fld b 0 8, fld b 12 4, fld b 8 4, fld b 16 8, fld b 28 4, fld b 24 4, fld b 32 4⟩
    if e.len = 0 || !s.inPart part e.addr e.len || !s.inPart part e.late (16 * e.nlate) then none else some e

/-- A prepared image read back: the file, the submission-time values and the virtual IDs of its symbols. -/
structure Prep where
  file : List Byte
  vals : List (BitVec 64)
  vids : List Nat
  deriving DecidableEq, Repr

def prepOf (b : List Byte) : Prep :=
  let f := (b.drop 8).take (fld b 0 4)
  let o := 8 + (fld b 0 4 + 7) / 8 * 8
  let n := ((relocRecs f).filter RelocRec.early).length
  ⟨f, (List.range n).map (fun i => BitVec.ofNat 64 (fld b (o + 8 * i) 8)),
    (List.range (fld b 4 4)).map (fun i => fld b (o + 8 * n + 2 * i) 2)⟩

/-- The prepared image of an entry. -/
def State.prep (s : State) (part : Nat) (e : NblEntry) : Prep := prepOf (s.peek part e.addr e.len)

/-- The Sideboard reads the table entry of a handle (R441, R444, R475). PRESUMED, safe: assumption 17. -/
def State.readEntry (s : State) (part h : Nat) : State :=
  let a := (s.part part).sb.nblBase.toNat + 64 * (h - 1)
  if h = 0 || 1024 < h || !s.inPart part a 64 then s else (s.readPart part a 64).1

/-- It also reads the header in the prepared image, which gives the shape and ARGS_LEN (R441, R475). PRESUMED, safe: assumption
17. -/
def State.readShape (s : State) (part h : Nat) : State :=
  match s.nblEntry part h with
  | none => s.readEntry part h
  | some e => ((s.readEntry part h).readPart part e.addr (min e.len 72)).1

/-- To place a task it reads the whole image, which holds the attach records (R444, R475). PRESUMED, safe: assumption 17. -/
def State.readImage (s : State) (part h : Nat) : State :=
  let s1 := s.readEntry part h
  match s1.nblEntry part h with
  | none => s1
  | some e => (s1.readPart part e.addr e.len).1

/-- To dispatch or restore a task it reads the dispatch-time records as well (R315, R458, R475). PRESUMED, safe: assumption 17. -/
def State.readNbl (s : State) (part h : Nat) : State :=
  let s1 := s.readImage part h
  match s1.nblEntry part h with
  | none => s1
  | some e => (s1.readPart part e.late (16 * e.nlate)).1

/-- Whether a re-key holds a read of the prepared NBL of a handle: its table entry, its image or its dispatch-time records lie on a
stack that is being re-keyed (R351). -/
def State.nblHeld (s : State) (part h : Nat) : Bool :=
  s.heldRange part ((s.part part).sb.nblBase.toNat + 64 * (h - 1)) 64 || (match s.nblEntry part h with
    | none => false
    | some e => s.heldRange part e.addr e.len || s.heldRange part e.late (16 * e.nlate))

end Sys2Proof.Machine
end

