-- ==== Sys2Proof/Machine/Sideboard.lean ====
section
/-!
DEFINITION. The Sideboard (Chapter 15): completion records, graph admission and refusal, readiness, placement, and the
end of tasks and graphs.
-/
namespace Sys2Proof.Machine

/-! ### Descriptors (Tables 15-4, 15-5) -/

/-- Bits `[hi:lo]` of word `i` of a 64-byte descriptor. -/
def dword (w : BitVec 512) (i hi lo : Nat) : Nat := bits w.toNat (64 * i + hi) (64 * i + lo)

def gTasks (d : BitVec 512) : Nat := dword d 3 63 47
def gVid (d : BitVec 512) : Nat := dword d 3 43 32
def gEdges (d : BitVec 512) : Nat := dword d 3 31 0

def TaskRec.nbl (t : TaskRec) : Nat := dword t.word 0 63 32
def TaskRec.w (t : TaskRec) : Nat := dword t.word 0 31 28
def TaskRec.h (t : TaskRec) : Nat := dword t.word 0 27 25
def TaskRec.preemptOk (t : TaskRec) : Bool := t.word.getLsbD 24
def TaskRec.rerun (t : TaskRec) : Bool := t.word.getLsbD 23
def TaskRec.cplVid (t : TaskRec) : Nat := dword t.word 0 21 10
def TaskRec.stage (t : TaskRec) : Nat := 65536 * dword t.word 0 9 0
def TaskRec.args (t : TaskRec) : Nat := dword t.word 1 63 0
def TaskRec.tag (t : TaskRec) : Nat := dword t.word 5 63 0
def TaskRec.ctx (t : TaskRec) : Nat := dword t.word 6 63 0
/-- The task starts from a context: one that was saved, or the record's own at its first attempt (R457). -/
def TaskRec.restores (t : TaskRec) : Bool := t.saved.isSome || (t.word.getLsbD 22 && t.attempts = 0)
/-- The context it starts from. -/
def TaskRec.ctxAddr (t : TaskRec) : Nat := t.saved.getD t.ctx

/-- The predecessors of a task record; those beyond the eighth come from the edge list. -/
def predsOf (edges : List (BitVec 16)) (w : BitVec 512) : List Nat :=
  (List.range (dword w 2 63 48)).map (fun k =>
    if k < 8 then bits w.toNat (192 + 16 * k + 15) (192 + 16 * k)
    else (edges.getD (dword w 2 31 0 + k - 8) 0).toNat)

/-! ### Completion records (Tables 15-7, 15-8; R447–R451) -/

/-- The fields of a completion record. -/
structure Cpl where
  tag : Nat
  serial : Nat := 0
  kind : Nat
  status : Nat
  code : Nat := 0
  index : Nat := 0
  attempt : Nat
  block : Nat
  rel : Nat
  sstep : Nat
  deriving DecidableEq, Repr

/-- The 32 bytes of a record with PHASE still 0. -/
def Cpl.word (c : Cpl) : BitVec 256 :=
  BitVec.ofNat 256 (c.tag % 2 ^ 64 + 2 ^ 64 * (c.serial % 2 ^ 64) + 2 ^ 128 *
    (c.kind * 2 ^ 60 + c.status * 2 ^ 56 + c.code % 256 * 2 ^ 48 + c.index % 65536 * 2 ^ 32 + c.attempt % 256 * 2 ^ 24
      + c.block % 256 * 2 ^ 16 + c.rel % 2048 * 32) + 2 ^ 192 * (c.sstep % 2 ^ 64))

/-- What a record holds where its table states no value. -/
def fill (i : Nat) : Nat := (Config.recordFill i).toNat

def State.sb (s : State) (p : Nat) : Sideboard := (s.part p).sb
def State.modSb (s : State) (p : Nat) (f : Sideboard → Sideboard) : State := s.modPart p (fun q => { q with sb := f q.sb })

/-- An index advanced by one in a queue of 2^LOG2 entries (R506). -/
def qNext (i : BitVec 20) (log2 : BitVec 5) : BitVec 20 := BitVec.ofNat 20 ((i.toNat + 1) % 2 ^ log2.toNat)

/-- Whether the completion queue has room (R506). -/
def Sideboard.room (q : Sideboard) : Bool := qNext q.cplqTail q.cplqSize ≠ q.cplqHead

/-! ### Requests to host memory (R465–R468) -/

/-- The translated page that the cache holds for a page of a function. -/
def Cxl.cachedPage (c : Cxl) (fn page : Nat) : Option Nat :=
  (c.atc.find? (fun e => e.1 = fn && e.2.1 = page)).map (·.2.2)

/-- A translation answers, and its page enters the cache; a full cache of 4,096 entries loses one (R466). DESIGN CHOICE, safe:
assumption 22. -/
def State.enterPage (s : State) (fn page : Nat) : State :=
  let l := s.cxl.atc
  let e := (fn, page, Config.translated s.undef fn page)
  { s with
    undef := s.undef + 1
    cxl := { s.cxl with
      atc := if l.length < 4096 then l ++ [e] else l.eraseIdx (Config.atcVictim s.undef % 4096) ++ [e] } }

/-- The bytes of its line that a write of `n` bytes at `a` covers. -/
def lineMask (a n : Nat) : BitVec 64 := BitVec.ofNat 64 ((2 ^ n - 1) * 2 ^ (a % 64))

/-- One request of a function to host memory, within a 64-byte line: with ATS enabled on CXL.cache with the translated address,
RdCurr for a read and WrCur or WOWrInv for a write; else untranslated on CXL.io (R465, R466, R468). -/
def State.hostReq (s : State) (fn a : Nat) (data : Option (List Byte)) : State :=
  let l := data.getD []
  if sget false fn s.cxl.ats then
    let s1 := if (s.cxl.cachedPage fn (a / 4096)).isSome then s else s.enterPage fn (a / 4096)
    let at0 := 4096 * (s1.cxl.cachedPage fn (a / 4096)).getD 0 + a % 4096 / 64 * 64
    let op : HostOp := match data with
      | none => .rdCurr
      | some b => if b.length = 64 then .wrCur else .wowrInv (lineMask a b.length)
    { s1 with hostOut := s1.hostOut ++ [⟨fn, op, at0, l⟩] }
  else { s with hostOut := s.hostOut ++ [⟨fn, if data.isSome then .memWr else .memRd, a, l⟩] }

/-- The reads of the lines that hold `n` bytes at `a`. -/
def State.hostRead (s : State) (fn a n : Nat) : State := (unitsOf a n).foldl (fun s' u => s'.hostReq fn (64 * u) none) s

/-- A request that fails counts in KV_DV_XLATE_ERR: with ATS enabled its translation gives no access, and no request is issued;
else the CXL.io request completes with an error (R467). -/
def State.hostFail (s : State) (fn a : Nat) (data : Option (List Byte)) : State :=
  let s1 := if sget false fn s.cxl.ats then s else s.hostReq fn a data
  { s1 with cxl := { s1.cxl with xlateErr := satInc s1.cxl.xlateErr } }

/-- Whether a request of a function at an address is discarded, since it goes on a stream that is insecure: with ATS enabled on CXL.cache,
after a translation on CXL.io unless the cache holds its page; else on CXL.io (R465, R483). -/
def State.hostBlocked (s : State) (fn a : Nat) : Bool :=
  if sget false fn s.cxl.ats then s.cxl.cmFailed || (s.ioLost fn && (s.cxl.cachedPage fn (a / 4096)).isNone) else s.ioLost fn

/-- One record goes to the queue in host memory: PHASE is added, the tail advances and inverts PHASE as it wraps, FLAG_EVENT CPL
is set and the vectors of Table 16-3 are raised. A write that fails loses the record, counts, and causes a fault record (R467).
DESIGN CHOICE, safe: assumption 49. -/
def State.writeCpl (s : State) (p : Nat) (rec : BitVec 256) (ok : Bool) : State :=
  let q := s.sb p
  let a := q.cplqBase.toNat + 32 * q.cplqTail.toNat
  let b := leBytes 32 ((rec ||| (if q.phase then 1#256 <<< 191 else 0)).toNat)
  if ok && !s.hostBlocked (p + 1) a then
    let t := qNext q.cplqTail q.cplqSize
    let s1 := s.hostReq (p + 1) a (some b)
    (((s1.modSb p (fun q => { q with cplqTail := t, phase := if t = 0 then !q.phase else q.phase })).setFlag p 0).msi
      0 (4 + p)).msi (p + 1) 0
  else (s.hostFail (p + 1) a (some b)).report 6 1 0 p 0 0 0 0

/-- A record of something that has ended: written while the queue has room and the host link is up, else held; while
256 are held it waits for room in the buffer (R451, R487). CPL_HELD is set where the queue is full (Table 17-5). -/
def State.post (s : State) (p : Nat) (c : Cpl) (ok : Bool) : State :=
  let q := s.sb p
  if q.held = [] && q.room && s.cxl.ready then s.writeCpl p c.word ok
  else if q.held.length < 256 then
    let s1 := s.modSb p (fun q => { q with held := q.held ++ [c.word] })
    if q.room then s1 else s1.setFlag p 5
  else s.modSb p (fun q => { q with stall := q.stall ++ [c.word] })

/-- CPL_HELD is set while records are held and the queue is full (Table 17-5). -/
def State.noteHeld (s : State) (p : Nat) : State :=
  if (s.sb p).held = [] || (s.sb p).room then s else s.setFlag p 5

/-- COMPLETION_RECORD_WRITE: the oldest held record is written when the queue has room, and one that waits for the buffer
takes its place (R451). -/
def completionRecordWrite (p : Nat) (ok : Bool) (s : State) : State :=
  let q := s.sb p
  match q.held with
  | [] => s
  | c :: r =>
    if !(q.room && s.cxl.ready) then s
    else ((s.modSb p (fun q => { q with held := r ++ q.stall.take 1, stall := q.stall.drop 1 })).writeCpl p c ok).noteHeld p

/-- Whether the buffer of held records is full (R451). -/
def State.heldFull (s : State) (p : Nat) : Bool := 256 ≤ (s.sb p).held.length

/-- A completion counter is signalled by 1 where its ID is mapped (R24, R441). -/
def State.signalVid (s : State) (p vid : Nat) : State :=
  match s.translate p vid with
  | none => s
  | some o => s.sendInc o 1

/-! ### Graphs -/

def State.graph (s : State) (num : Nat) : Option Graph := s.graphs.find? (fun g => g.num = num)
def State.modGraph (s : State) (num : Nat) (f : Graph → Graph) : State :=
  { s with graphs := s.graphs.map (fun g => if g.num = num then f g else g) }
def State.modTask (s : State) (num i : Nat) (f : TaskRec → TaskRec) : State :=
  s.modGraph num (fun g => { g with tasks := g.tasks.zipIdx.map (fun c => if c.2 = i then f c.1 else c.1) })

/-- Task records that a partition holds (PART_RECUSED), and those of the module. -/
def State.recUsed (s : State) (p : Nat) : Nat :=
  ((s.graphs.filter (fun g => g.part = p)).map (fun g => g.tasks.length)).foldl (· + ·) 0
def State.recAll (s : State) : Nat := (s.graphs.map (fun g => g.tasks.length)).foldl (· + ·) 0

/-- The status of a graph whose tasks have ended: OK, or that of its first task that ended neither OK nor CANCELLED. DEDUCED,
unsafe: assumption 20. -/
def Graph.verdict (g : Graph) : Nat × Nat :=
  match g.tasks.find? (fun t => t.status ≠ 0 && t.status ≠ 4) with
  | none => (0, 0)
  | some t => (t.status, if t.status = 1 then t.code.toNat else 0)

/-- A graph whose tasks have all ended completes: GRAPH_VID is signalled in every case and its record is made (R450). -/
def State.finishGraph (s : State) (num : Nat) (ok : Bool) : State :=
  match s.graph num with
  | none => s
  | some g =>
    if !g.tasks.all (fun t => t.st = 3) then s
    else
      let v := g.verdict
      let s1 : State := { s with graphs := s.graphs.filter (fun h => h.num ≠ num) }
      (s1.signalVid g.part (gVid g.desc)).post g.part
        { tag := dword g.desc 0 63 0, kind := 2, status := v.1, code := v.2, attempt := fill 0, block := fill 1, rel := fill 2
          sstep := (g.tasks.filter (fun t => t.status ≠ 0)).length } ok

/-- Tasks joined to a failed one by edges end CANCELLED (R450): the tasks in order, with those before `done`. -/
def cancelPass (done : List TaskRec) : List TaskRec → List TaskRec
  | [] => done
  | t :: r =>
    let failed := t.preds.any (fun q => match done[q]? with
      | some u => u.st = 3 && u.status ≠ 0
      | none => false)
    cancelPass (done ++ [if t.st = 0 && failed then { t with st := 3, status := 4 } else t]) r

/-- The record of a task that no tile ran. -/
def idleCpl (t : TaskRec) (i status : Nat) : Cpl :=
  { tag := t.tag, kind := 1, status := status, index := i, attempt := t.attempts, block := 0xFF, rel := fill 2, sstep := fill 3 }

/-- Task `i` of a graph has ended: SB_TASKS counts it, and where it failed its successors end CANCELLED, each signalling
its CPL_VID; the graph completes with its last task (R27, R450). -/
def State.endTask (s : State) (num i status : Nat) (code : BitVec 8) (ok : Bool) : State :=
  let s1 := s.modTask num i (fun t => { t with st := 3, status := status, code := code, saved := none })
  match s1.graph num with
  | none => s1
  | some g =>
    let after := cancelPass [] g.tasks
    let gone := ((g.tasks.zip after).zipIdx).filter (fun c => c.1.1 ≠ c.1.2)
    let s2 := (s1.modGraph num (fun g => { g with tasks := after })).modSb g.part
      (fun q => { q with tasks := q.tasks + BitVec.ofNat 64 (1 + gone.length) })
    let s3 := gone.foldl (fun s' c =>
      (s'.signalVid g.part c.1.1.cplVid).post g.part (idleCpl c.1.1 c.2 4) ok) s2
    s3.finishGraph num ok

/-! ### Admission (R439–R441) -/

/-- The bound of a partition's staging window: the smallest SIZE among its stacks (R326). -/
def State.stageWindow (s : State) (p : Nat) : Nat :=
  let l := ((List.range 12).filter (fun k => (s.stack k).owner = some p)).map (fun k => 65536 * (s.stack k).stgSize.toNat)
  match l with
  | [] => 0
  | a :: r => r.foldl min a

/-- The checks of R441 on task record `i`. -/
def taskOk (s : State) (p nedges i : Nat) (t : TaskRec) : Bool :=
  let n := dword t.word 2 63 48
  let nbl : Bool :=
    t.nbl = 0 || (match s.nblEntry p t.nbl with
      | none => false
      | some e =>
        let f := (s.prep p e).file
        t.w = nblW f && t.h = nblH f && (nblArgsLen f = 0 || s.inPart p t.args (nblArgsLen f)))
  t.preds.all (fun q => q < i) && (n ≤ 8 || dword t.word 2 31 0 + (n - 8) ≤ nedges) && nbl &&
    (s.translate p t.cplVid).isSome && t.stage ≤ s.stageWindow p && dword t.word 2 47 32 = 0 && dword t.word 7 63 0 = 0

/-- The checks of R441 on the descriptor. DEDUCED, unsafe: assumption 20. -/
def descOk (s : State) (p : Nat) (d : BitVec 512) : Bool :=
  dword d 3 46 44 = 0 && bits d.toNat 511 256 = 0 && (s.translate p (gVid d)).isSome

/-- PWR_WARN_N stops admission and placement until 10 ms after its deassertion (R567). -/
def Pins.admits (x : Pins) (now : Nat) : Bool := !x.warn && x.warnOff ≤ now

/-- The Sideboard admits graphs: enabled, the host link up, the start complete, and no reason to hold (R61, R439, R461,
R487, R567). -/
def State.admits (s : State) (p : Nat) : Bool :=
  (s.sb p).enable && s.cxl.ready && s.pins.admits s.time.toNat && s.start.phase = 0xFF && !s.start.exhausted

/-- A refused graph: GRAPH_VID is signalled where it is mapped, and its record says REFUSED (R441). -/
def State.refuseGraph (s : State) (p : Nat) (d : BitVec 512) (tag : Nat) (ok : Bool) : State :=
  (s.signalVid p (gVid d)).post p
    { tag := tag, kind := 2, status := 5, attempt := fill 0, block := fill 1, rel := fill 2, sstep := gTasks d } ok

/-- GRAPH_ADMISSION: the Sideboard takes the head entry of partition `p`'s submission queue, whose host memory holds
descriptor `d`, task records `tasks` and edge list `edges`. `unread` says that the descriptor (1) or the records (2) could
not be read (R467). A graph that does not yet find its records free waits (R440), and so does one that
names a prepared NBL which a re-key holds (R351); in Banked one wakes the module first (R540). -/
def graphAdmission (p : Nat) (d : BitVec 512) (tasks : List (BitVec 512)) (edges : List (BitVec 16)) (unread : BitVec 2)
    (ok : Bool) (s0 : State) : State :=
  let q := s0.sb p
  let fn := p + 1
  let da := q.subqBase.toNat + 64 * q.subqHead.toNat
  let n := gTasks d
  let cut : Bool := (n ≠ 0 && s0.hostBlocked fn (dword d 1 63 0)) || (gEdges d ≠ 0 && s0.hostBlocked fn (dword d 2 63 0))
  let lost : Nat := if s0.hostBlocked fn da then 1 else if cut then max 2 unread.toNat else unread.toNat
  let s := s0.hostRead fn da 64
  let max := (s.part p).recMax.toNat
  let head (s' : State) : State := s'.modSb p (fun q => { q with subqHead := qNext q.subqHead q.subqSize })
  if !s0.admits p || q.subqHead = q.subqTail || 16 ≤ (s0.graphs.filter (fun g => g.part = p)).length then s0
  else if s0.dim.banked then s0.wakeModule
  else if lost = 1 then
    (head (s0.hostFail fn da none)).post p
      { tag := fill 4, kind := 2, status := 5, attempt := fill 0, block := fill 1, rel := fill 2, sstep := 0 } ok
  else if max < n then head (s.refuseGraph p d (dword d 0 63 0) ok)
  else if max < s.recUsed p + n || 262144 < s.recAll + n then s
  else if lost ≠ 0 then head ((s.hostFail fn (dword d 1 63 0) none).refuseGraph p d (dword d 0 63 0) ok)
  else
    let ts : List TaskRec := tasks.map (fun w => { word := w, preds := predsOf edges w })
    let rd := (s.hostRead fn (dword d 1 63 0) (64 * n)).hostRead fn (dword d 2 63 0) (2 * gEdges d)
    let s2 := ts.foldl (fun s' t => if t.nbl = 0 then s' else s'.readShape p t.nbl) rd
    if tasks.length ≠ n || edges.length ≠ gEdges d || ts.any (fun t => t.nbl ≠ 0 && s.nblHeld p t.nbl) then s
    else if !(descOk s p d && ts.zipIdx.all (fun c => taskOk s2 p (gEdges d) c.2 c.1)) then
      head (s2.refuseGraph p d (dword d 0 63 0) ok)
    else
      let s1 : State := { s2 with graphs := s2.graphs ++ [⟨s2.graphNum, p, d, ts⟩], graphNum := s2.graphNum + 1 }
      head (if n = 0 then s1.finishGraph s2.graphNum ok else s1)

/-! ### Placement (R443–R445) -/

/-- The blocks of a footprint. -/
def Run.blocks (r : Run) : List Nat :=
  (List.range r.w).flatMap (fun i => (List.range r.h).map (fun j => 4 * (r.bx0 + i) + r.by0 + j))

/-- The tasks that hold a footprint. -/
def State.liveRuns (s : State) : List (Nat × Run) := s.runs.filter (fun c => sget false c.1 s.live)

/-- Whether every predecessor of a task has completed with status OK (R27, R443). -/
def Graph.ready (g : Graph) (t : TaskRec) : Bool :=
  t.st = 0 && t.preds.all (fun q => match g.tasks[q]? with
    | some u => u.st = 3 && u.status = 0
    | none => false)

/-- The lowest staging offset that is free on every stack of the partition (R445); none where `size` does not fit. -/
def State.stageAlloc (s : State) (p size : Nat) : Option Nat :=
  let used := (s.liveRuns.filter (fun c => c.2.part = p)).map (fun c => (c.2.stgOff, c.2.stgSize))
  let cands := 0 :: used.map (fun u => u.1 + u.2)
  let fits := cands.filter (fun o => o + size ≤ s.stageWindow p && used.all (fun u => !rangesMeet (o, size) u))
  match fits with
  | [] => none
  | a :: r => some (r.foldl min a)

/-- Whether a re-bind involves a block: one of its mask, or one that a task on its mask holds (R444, Table 15-10). -/
def State.rebinding (s : State) (b : Nat) : Bool := s.rebind.busy && s.rebind.involved.getLsbD b

/-- The conditions on a position that only an ownership change alters: ADMIT, the attaches and the blocks (R438, R444). -/
def State.admissible (s : State) (p : Nat) (t : TaskRec) (b : Nat) : Bool :=
  match s.nblEntry p t.nbl with
  | none => false
  | some e =>
    let f := (s.prep p e).file
    let r : Run := { bx0 := b / 4, by0 := b % 4, w := t.w, h := t.h }
    b / 4 + t.w ≤ 8 && b % 4 + t.h ≤ 4 && e.admits.testBit b && (attachRecs f).all (attachHere s p (b / 4) (b % 4)) &&
      r.blocks.all (fun c => (s.part p).blocks.getLsbD c)

/-- The first position that meets every condition of R444, with its staging offset; none on a lantern, which holds its tiles in
Pilot (R421). -/
def State.findPlace (s : State) (p : Nat) (t : TaskRec) : Option (Nat × Nat) :=
  match s.stageAlloc p t.stage with
  | none => none
  | some off =>
    if s.lantern then none else
    let held := s.liveRuns.flatMap (fun c => c.2.blocks)
    ((List.range 32).find? (fun b =>
      let r : Run := { bx0 := b / 4, by0 := b % 4, w := t.w, h := t.h }
      s.admissible p t b && r.blocks.all (fun c => !held.contains c && !s.rebinding c))).map (fun b => (b, off))

/-- Ready tasks without an admissible position (SB_STATUS.NOPLACE, R438). -/
def State.noPlace (s : State) (p : Nat) : Nat :=
  ((s.graphs.filter (fun g => g.part = p)).map (fun g => (g.tasks.filter (fun t =>
    g.ready t && t.nbl ≠ 0 && !(List.range 32).any (s.admissible p t))).length)).foldl (· + ·) 0

/-- The first ready empty task ends at once (R443). -/
def State.endEmpty (s : State) (ok : Bool) : Option State :=
  s.graphs.findSome? (fun g =>
    (g.tasks.zipIdx.find? (fun c => g.ready c.1 && c.1.nbl = 0)).map (fun c =>
      ((s.signalVid g.part c.1.cplVid).post g.part (idleCpl c.1 c.2 0) ok).endTask g.num c.2 0 0 ok))

/-- Ready empty tasks end, at most `n` of them. -/
def State.endEmpties (s : State) (ok : Bool) : Nat → State
  | 0 => s
  | n + 1 => match s.endEmpty ok with
    | none => s
    | some s' => s'.endEmpties ok n

/-- A placement is a wake event for the blocks and dies of its footprint (R540). -/
def State.wakeRun (s : State) (r : Run) : State :=
  wakeEvent (BitVec.ofNat 2 (b2n (decide (r.bx0 < 4)) + 2 * b2n (decide (4 < r.bx0 + r.w))))
    (r.blocks.foldl (fun m b => m ||| BitVec.ofNat 32 (2 ^ b)) 0) s

/-- One task in a placement pass: it is placed, or passed over; one passed over in 64 passes blocks every later task of
its partition (R444). One whose prepared NBL a re-key holds waits (R351). The list names the partitions that are blocked. -/
def placeOne (acc : State × List Nat) (c : Nat × Nat) : State × List Nat :=
  let s0 := acc.1
  match (s0.graph c.1).bind (fun g => (g.tasks[c.2]?).map (fun t => (g, t))) with
  | none => acc
  | some (g, t) =>
    let s := s0.readImage g.part t.nbl
    if acc.2.contains g.part || s0.heldFull g.part || !g.ready t || t.nbl = 0 || s0.nblHeld g.part t.nbl then acc
    else match s.findPlace g.part t with
      | some (b, off) =>
        let k := s.serial + 1
        let r : Run := { part := g.part, graph := g.num, index := c.2, nbl := t.nbl, bx0 := b / 4, by0 := b % 4
                         w := t.w, h := t.h, stgOff := off, stgSize := t.stage }
        let s1 : State := { s with serial := k, runs := sput {} k r s.runs, live := sput false k true s.live }
        ((s1.modTask g.num c.2 (fun u => { u with st := 1, skips := 0, serial := k })).wakeRun r, acc.2)
      | none =>
        if 64 ≤ t.skips then (s, acc.2 ++ [g.part])
        else (s.modTask g.num c.2 (fun u => { u with skips := u.skips + 1 }), acc.2)

/-- PLACEMENT_PASS: ready empty tasks end; then the ready tasks are tried in order of graph admission and task index
(R444). None is placed while PWR_WARN_N holds placement (R567) or before the start is complete. -/
def placementPass (ok : Bool) (s : State) : State :=
  let s1 := s.endEmpties ok s.recAll
  if !s1.pins.admits s1.time.toNat || s1.start.phase ≠ 0xFF then s1
  else
    let l := s1.graphs.flatMap (fun g => (List.range g.tasks.length).map (fun i => (g.num, i)))
    (l.foldl placeOne (s1, [])).1

/-! ### Release and the end of a task (R24, R447, R448) -/

/-- A tile leaves its task for UNASSIGNED; TILE_CTL takes effect at once there (R65). -/
def Tile.release (x : Tile) : Tile :=
  { x with st := 0, task := 0, rel := 0, foot := 0, hold := none, exch := {}, sent := [], brkAct := x.brk, modeHeld := none, wdogHeld := none }

/-- The units that a task uses are busy until now (R538). -/
def State.markRun (s : State) (r : Run) : State :=
  let now := s.time.toNat
  let d := s.dim
  { s with dim := { d with
    busyW := if r.bx0 < 4 then now else d.busyW
    busyE := if 4 < r.bx0 + r.w then now else d.busyE
    busyM := now
    busyB := r.blocks.foldl (fun m b => sput 0 b now m) d.busyB } }

/-- An object once a task's tiles are gone: their WAITs end, and their arrivals stay counted but release no tile (R274). -/
def SyncObj.without (o : SyncObj) (mine : TileId → Bool) : SyncObj :=
  let keep (l : List TileId) : List TileId := l.filter (fun t => !mine t)
  { o with
    waits := o.waits.filter (fun w => !mine w.tile)
    bars := keep o.bars
    dBars := keep o.dBars
    fBars := o.fBars.map keep
    coming := o.coming.map (fun a => { a with gone := a.gone || a.tile.any mine }) }

/-- A task's footprint is released: its tiles, which take the pending settings of their partition (Table 17-3), the WAITs and BARs
they held, its arms and its staging allocation (R445). -/
def State.releaseRun (s : State) (k : Nat) : State :=
  let r := s.run k
  let mine (t : TileId) : Bool := r.has t && (s.tile t).task = k
  let s1 := r.tiles.foldl (fun s' t =>
    if (s'.tile t).task = k then
      ({ s' with arms := sdel t.toNat s'.arms }).modTile t (fun x =>
        { x.release with copies := x.copies.filter (fun d => !isArm d.op) })
    else s') s
  let s2 : State := { s1 with
    runs := sdel k s1.runs
    live := sdel k s1.live
    objs := s1.objs.foldl (fun m c =>
      sput {} c.1 ((sget {} c.1 m).without mine) m) s1.objs }
  (s2.inForce r.part).markRun r

/-- The first listed ID whose object fails the residue check (R288). -/
def State.residue (s : State) (r : Run) : Option Nat :=
  (r.syncs.find? (fun y =>
    let o := s.obj y.obj
    y.check && (o.arrived ≠ 0 || o.value - y.start ≠ y.net))).map (·.vid)

/-- The relative ID, status and code that a task's completion record names: its stop, its fault, or OK (R447). -/
def Run.outcome (r : Run) : Nat × Nat × Nat :=
  match r.stop, r.fault with
  | some st, _ => (fill 2, st, 0)
  | none, some (c, rel) => (rel.toNat, 1, c.toNat)
  | none, none => (fill 2, 0, 0)

/-- Whether a failed attempt is run again (R448). -/
def TaskRec.again (t : TaskRec) (status code rerunMax : Nat) : Bool :=
  t.rerun && t.attempts ≤ rerunMax && (status = 2 || (status = 1 && (code = tileUE || code = sealFAULT || code = sentinelFAULT)))

/-- The objects that a task lists with CHECK = 1 lose their arrivals before it runs again (R448). -/
def State.clearArrivals (s : State) (r : Run) : State :=
  (r.syncs.filter (·.check)).foldl (fun s' y => s'.setObj y.obj { s'.obj y.obj with arrived := 0, cnt := 0, bars := [], coming := [] }) s

/-- Whether a task has come to its end: stopped, on every tile where a fault has ended it, be it before its dispatch, or at the
exchange barrier of its last superstep with nothing left (R24, R26, R514). -/
def State.taskOver (s : State) (k : Nat) : Bool :=
  let r := s.run k
  let waits : Bool := match (s.graph r.graph).bind (fun g => g.tasks[r.index]?) with
    | some t => t.st = 1
    | none => true
  sget false k s.live && (r.fault.isNone || r.halted) &&
    ((r.stop.isSome && waits) || allTiles r s (fun x => x.task = k && x.st = 7) ||
      allTiles r s (fun x => x.task = k && x.st = 5 && x.exch.last && x.sent = [] &&
        (List.range 5).all (fun c => (x.exch.inp c).fifo = [])))

/-- Step 1 of R24: a task that came to its end without a fault is checked for residue; a failed check raises SYNC_RESIDUE
in relative ID 0 (R289). -/
def State.checkEnd (s : State) (k : Nat) : State :=
  let r := s.run k
  if r.stop.isSome || r.fault.isSome then s
  else match s.residue r with
    | none => s
    | some vid => s.raise (r.tileAt 0) syncRESIDUE false 0 vid

/-- TASK_END: the task is checked for residue and its counter signalled; its record is made, unless the buffer of records
is full, and its footprint released (R24, R447–R451). A task whose graph a reset has discarded leaves no record (R503). -/
def taskEnd (k : Nat) (ok : Bool) (s : State) : State :=
  if !s.taskOver k then s
  else
    let s0 := if (s.run k).signalled then s else s.checkEnd k
    let s1 := s0.haltRun k (s0.run k)
    let r := s1.run k
    match (s1.graph r.graph).bind (fun g => (g.tasks[r.index]?).map (fun t => (g, t))) with
    | none => s1.releaseRun k
    | some (g, t) =>
      let (rel, status, code) := r.outcome
      let again := t.again status code (s1.part g.part).rerunMax.toNat
      let named := if status = 1 then r.tileAt rel else r.tileAt 0
      let cpl : Cpl :=
        { tag := t.tag, serial := k, kind := 1, status := if again then 6 else status, code := if again then 0 else code
          index := r.index, attempt := t.attempts, block := 4 * r.bx0 + r.by0, rel := rel
          sstep := (s1.tile named).sstep.toNat }
      let s2 := if again || r.signalled then s1
        else (s1.signalVid g.part t.cplVid).modRun k (fun q => { q with signalled := true })
      if s2.heldFull g.part then s2
      else
        let s3 := (s2.post g.part cpl ok).releaseRun k
        if again then
          (s3.clearArrivals r).modTask g.num r.index (fun u => { u with st := 0, skips := 0, serial := 0, saved := none })
        else s3.endTask g.num r.index status (BitVec.ofNat 8 code) ok

end Sys2Proof.Machine
end

