-- ==== Sys2Proof/Machine/Loading.lean ====
section
/-!
DEFINITION. Dispatch (R315): the start values of a tile, the loading of a prepared NBL into a footprint, the attach ends,
the rings, the sync records and the instruction buffer.
-/
namespace Sys2Proof.Machine

/-- The registers and MXA state of a tile at their task-start values (Table 2-4). Shelves, statistics, what is on its way
in the copy queue, and the message counters stay. -/
def Tile.start (x : Tile) : Tile :=
  let y : Tile :=
    { x with
      gs := [], ps := 0, vs := [], accs := [], stat := {}, shadow := {}, queue := [], feeders := [], fifo := [], vu := {}
      vuNext := none, dr := {}, waxUsed := false, ibuf := [], hold := none, exch := {}, sent := [], rowNum := 0
      wordNum := 0, fTaken := false, sendWait := none }
  (List.range 8).foldl (fun z n =>
    z.setRing n { z.ring n with isOpen := false, size64 := 0, base64 := 0, head := 0, tail := 0, starts := [], unread := [] }) y

/-- TILE_FOOT. -/
def Run.footWord (r : Run) : BitVec 16 := BitVec.ofNat 16 (r.w * 4096 + r.h * 256 + r.bx0 * 16 + r.by0)

/-- A tile of a footprint enters LOADING. -/
def Tile.loading (x : Tile) (k : Nat) (r : Run) (t : TileId) (entry : Nat) : Tile :=
  { x.start with st := 1, task := k, rel := BitVec.ofNat 11 (r.relOf t), foot := r.footWord, pc := BitVec.ofNat 32 entry
                 sstep := 0 }

/-- Every tile of a footprint enters LOADING. -/
def State.toLoading (s : State) (k : Nat) (entry : Nat) : State :=
  let r := s.run k
  r.tiles.foldl (fun s' t => s'.modTile t (fun x => x.loading k r t entry)) s

/-- The Dimmer's units that a footprint needs are Lit (R540). -/
def State.lit (s : State) (r : Run) : Bool :=
  !s.dim.banked && r.tiles.all (fun t => (s.tile t).st = 0 && !(if onDieE t then s.dim.dimE else s.dim.dimW))

/-- Whether the unit that holds a partition address is poisoned. DEDUCED, unsafe: assumption 18. -/
def State.poisonAt (s : State) (p a : Nat) : Bool :=
  match s.hbmMap p a with
  | some (k, l) => (s.stack k).anyPoison [l / 64]
  | none => false

/-- A load record places its bytes in a tile; `poison` says which bytes of the file were read as poison, and the words they
fill are poisoned (R348). -/
def Tile.placeRecord (f : List Byte) (poison : Nat → Bool) (l : LoadRec) (x : Tile) : Tile :=
  let y := x.put (at' l.addr (l.bytes f))
  let hit := (List.range (l.len / 8)).filter (fun j => poison (l.off + 8 * j) || poison (l.off + 8 * j + 7))
  if l.zero then y else { y with bad := hit.foldl (fun m j => sput 0 (l.addr / 8 + j) 3 m) y.bad }

/-- Step 1 of R315: every load record places its bytes. -/
def State.placeImages (s : State) (r : Run) (f : List Byte) (poison : Nat → Bool) : State :=
  (loadRecs f).foldl (fun s' l =>
    (List.range (l.rel1 + 1 - l.rel0)).foldl (fun s'' i =>
      s''.modTile (r.tileAt (l.rel0 + i)) (Tile.placeRecord f poison l)) s') s

/-- The submission-time records, with the values of the prepared image (R311). -/
def State.placeEarly (s : State) (r : Run) (pr : Prep) : State :=
  (((relocRecs pr.file).filter RelocRec.early).zip pr.vals).foldl (fun s' c => applyReloc r c.1 c.2 s') s

/-- The router of an attach record at a placement. -/
def Run.router (r : Run) (a : AttachRec) : TileId := tileOf (8 * r.bx0 + a.fx) (8 * r.by0 + a.fy)

/-- BASE of a dispatch-time record (Table 10-5). -/
def relocBase (r : Run) (f args : List Byte) (q : RelocRec) : Nat :=
  let router := ((attachRecs f)[q.index]?.map r.router).getD 0
  if q.kind = 3 then fld args (8 * q.index) 8
  else if q.kind = 4 then (r.tileAt q.index).toNat
  else if q.kind = 5 then (attachStack router).getD 0
  else if q.kind = 6 then (match attachOf router with
    | some (.lamp n) => n
    | _ => 0)
  else r.stgOff

/-- The dispatch-time records of an entry (Table 15-6). -/
def State.lateRecs (s : State) (p : Nat) (e : NblEntry) : List RelocRec :=
  let b := s.peek p e.late (16 * e.nlate)
  (List.range e.nlate).map (fun i => relocOf (fld b (16 * i) 8, fld b (16 * i + 8) 8))

/-- Step 2 of R315. -/
def State.placeLate (s : State) (r : Run) (f args : List Byte) (l : List RelocRec) : State :=
  l.foldl (fun s' q => applyReloc r q (q.value (relocBase r f args q)) s') s

/-- The CXL attach records in order, each with the number of its descriptor (R477). -/
def cxlRecs (f : List Byte) : List (AttachRec × Nat) := ((attachRecs f).filter (fun a => a.kind = 3)).zipIdx

/-- A host-stream descriptor keeps Table 16-5. -/
def streamOk (args : List Byte) (n : Nat) : Bool :=
  fld args (32 * n) 8 % 64 = 0 && fld args (32 * n + 8) 8 % 64 = 0 && fld args (32 * n + 20) 4 % 64 = 0 &&
    fld args (32 * n + 16) 4 % 64 = 0 && fld args (32 * n + 24) 8 = 0

def streamOf (args : List Byte) (n : Nat) : HostStream :=
  { inAddr := BitVec.ofNat 64 (fld args (32 * n) 8), outAddr := BitVec.ofNat 64 (fld args (32 * n + 8) 8)
    inLen := fld args (32 * n + 20) 4, outLen := fld args (32 * n + 16) 4 }

/-- Step 3 of R315: the host streams (the other attach ends follow their routers). A bad descriptor raises TILE_ADDR in
its router's tile (R478). -/
def State.placeStreams (s : State) (k : Nat) (f args : List Byte) : State :=
  match (cxlRecs f).find? (fun c => !streamOk args c.2) with
  | some c => s.raise ((s.run k).router c.1) tileADDR false 0 (32 * c.2)
  | none => s.modRun k (fun q => { q with
      streams := (cxlRecs f).foldl (fun m c => sins (q.router c.1).toNat (streamOf args c.2) m) [] })

/-- Step 4 of R315: the RING records. -/
def State.placeRings (s : State) (r : Run) (f : List Byte) : State :=
  (ringRecs f).foldl (fun s' q => s'.modTile (r.tileAt q.rel) (fun x => x.setRing q.ring
    { x.ring q.ring with
      isOpen := q.isOpen, size64 := BitVec.ofNat 11 q.size, base64 := BitVec.ofNat 14 q.base, head := 0, tail := 0
      starts := [], unread := [] })) s

/-- Step 5 of R315: every listed ID is translated, with START = VALUE (R288); the first unmapped one raises SYNC_XLATE in
relative ID 0. -/
def State.placeSyncs (s : State) (k : Nat) (pr : Prep) : State :=
  let r := s.run k
  let l := (syncSyms pr.file).map (fun y => (pr.vids.getD y.sym 0, y))
  match l.find? (fun c => (s.translate r.part c.1).isNone) with
  | some c => s.raise (r.tileAt 0) syncXLATE false 0 c.1
  | none => s.modRun k (fun q => { q with
      syncs := l.map (fun c =>
        let o := (s.translate r.part c.1).getD 0
        { vid := c.1, check := c.2.check, net := BitVec.ofNat 32 c.2.net, obj := o, start := (s.obj o).value }) })

/-- The instruction buffer is filled with the 16 KiB that start at the line of the next bundle (R102); a line whose block would lie
beyond Shelf N stays empty. DESIGN CHOICE, safe: assumption 59. -/
def Tile.fillAll (x : Tile) : Tile :=
  (List.range 64).foldl (fun y i =>
    let b := x.pc.toNat / 256 + i
    if b < 4096 then y.fill b else y) x

/-- Step 6 of R315: the instruction buffers fill and the tiles enter COMPUTE, unless the dispatch has raised a fault. -/
def State.toCompute (s : State) (k : Nat) : State :=
  let r := s.run k
  if r.fault.isSome then s
  else r.tiles.foldl (fun s' t => s'.modTile t (fun x => { x.fillAll with st := 2, since := s'.beats t })) s

/-- The Rounding mode and the sentinel share of a task, fixed as it leaves for its tiles (R184, R544). -/
def State.fixModes (s : State) (k : Nat) : State :=
  let m := (s.part (s.run k).part).modeAct
  s.modRun k (fun q => { q with stoch := m.getLsbD 25, sr3 := m.getLsbD 25 && m.getLsbD 24, sentD := sentinelD m })

/-- A placed task that waits to be dispatched, with its graph: its footprint is Lit. -/
def State.waitsFor (s : State) (k : Nat) : Option (Graph × TaskRec) :=
  let r := s.run k
  if !sget false k s.live || r.stop.isSome || !s.lit r || s.start.phase ≠ 0xFF then none
  else (s.graph r.graph).bind (fun g => (g.tasks[r.index]?).bind (fun t => if t.st ≠ 1 then none else some (g, t)))

/-- A placed task that may be dispatched: its graph's record, and its prepared NBL and its image as the loader reads them (R475). -/
def State.placed (s : State) (k : Nat) : Option (Graph × TaskRec × NblEntry × Prep) :=
  let r := s.run k
  let s1 := s.readNbl r.part r.nbl
  (s.waitsFor k).bind (fun c => (s1.nblEntry r.part r.nbl).bind (fun e =>
    let pr := s1.prep r.part e
    if nblW pr.file = r.w && nblH pr.file = r.h then some (c.1, c.2, e, pr) else none))

/-- The argument block of a task, read from HBM; none where it does not lie inside the partition (R315). -/
def State.readArgs (s : State) (p : Nat) (t : TaskRec) (f : List Byte) : State × Option (List Byte) :=
  if nblArgsLen f = 0 then (s, some [])
  else if !s.inPart p t.args (nblArgsLen f) then (s, none)
  else
    let r := s.readPart p t.args (nblArgsLen f)
    (r.1, some r.2.1)

/-- TASK_DISPATCH: the loader loads a placed task's footprint, and its tiles enter COMPUTE (R315). A re-key of
a stack that it reads holds it (R351). -/
def taskDispatch (k : Nat) (s : State) : State :=
  match s.placed k with
  | none => s
  | some (g, t, e, pr) =>
    let r := s.run k
    if t.restores || s.nblHeld r.part r.nbl || s.heldRange r.part t.args (nblArgsLen pr.file) then s
    else
      let s0 := s.readNbl r.part r.nbl
      let s1 := (s0.fixModes k).toLoading k (nblEntryPc pr.file)
      let s2 := s1.modTask g.num r.index (fun u => { u with st := 2, attempts := u.attempts + 1 })
      match s2.readArgs r.part t pr.file with
      | (s3, none) => s3.raise (r.tileAt 0) tileADDR false 0 0
      | (s3, some args) =>
        let poison (o : Nat) : Bool := s0.poisonAt r.part (e.addr + 8 + o)
        let s5 := ((s3.placeImages r pr.file poison).placeEarly r pr).placeLate r pr.file args (s0.lateRecs r.part e)
        let s6 := s5.placeStreams k pr.file args
        if (s6.run k).fault.isSome then s6
        else ((s6.placeRings r pr.file).placeSyncs k pr).toCompute k

end Sys2Proof.Machine
end

