-- ==== Sys2Proof/Machine/Context.lean ====
section
/-!
DEFINITION. Contexts (R452–R458, Tables 15-9, 15-12, 15-13): the save of a preempted task and the restore.
-/
namespace Sys2Proof.Machine

/-! ### Layout -/

/-- Bytes of a tile image. -/
def tileImage : Nat := 0x414000
/-- Bytes of a context for a footprint of `n` tiles (R453). -/
def ctxBytes (n : Nat) : Nat := 0x10000 + n * tileImage

/-- The 64 KiB context header (Table 15-12). DEDUCED, unsafe: assumption 19. -/
def ctxHeader (s : State) (k : Nat) (r : Run) (e : NblEntry) : List Byte :=
  let head := leBytes 4 0x5843564B ++ leBytes 2 1 ++ leBytes 1 r.w ++ leBytes 1 r.h ++ leBytes 4 0x10002058 ++
    leBytes 4 0x40010800 ++ leBytes 4 r.nbl ++ leBytes 4 e.hdr ++ leBytes 4 e.bind ++ leBytes 4 r.syncs.length ++
    leBytes 8 k ++ leBytes 8 (s.tile (r.tileAt 0)).sstep.toNat ++ leBytes 4 (4 * r.bx0 + r.by0) ++ leBytes 4 r.stgOff
  let syncs := r.syncs.flatMap (fun y => leBytes 4 (s.obj y.obj).value.toNat ++ leBytes 4 y.start.toNat)
  head ++ List.replicate (0x100 - head.length) 0 ++ syncs ++ List.replicate (0xFF00 - syncs.length) 0

/-- Bits 31:27 of RNG_STATUS. -/
def Tile.rngFlags (x : Tile) : Nat := x.rngStatus.toNat / 2 ^ 27 * 2 ^ 27

/-- The register area (Table 15-13), 2 KiB. -/
def Tile.regArea (x : Tile) : List Byte :=
  let l := (List.range 31).flatMap (fun i => leBytes 8 (x.g (BitVec.ofNat 5 (i + 1))).toNat) ++
    leBytes 1 (x.ps.toNat / 2 * 2) ++ leBytes 3 0 ++ leBytes 4 x.pc.toNat ++ leBytes 4 x.accTags.toNat ++
    leBytes 1 (((List.range 8).map (fun a => b2n (x.acc (BitVec.ofNat 3 a)).kind * 2 ^ a)).foldl (· + ·) 0) ++
    leBytes 1 x.stat.fmt.toNat ++ leBytes 1 x.shadow.fmt.toNat ++ leBytes 1 0 ++ leBytes 32 x.stat.scales.toNat ++
    leBytes 32 x.shadow.scales.toNat ++ leBytes 8 0 ++ leBytes 16 x.vu.key.toNat ++ leBytes 16 x.vu.ctr.toNat ++
    leBytes 16 x.dr.key.toNat ++ leBytes 16 x.dr.ctr.toNat ++ leBytes 4 x.rngFlags ++ leBytes 4 0 ++
    (List.range 8).flatMap (fun n => leBytes 4 (x.ring n).cfg.toNat) ++
    (List.range 8).flatMap (fun n => leBytes 4 (x.ring n).ptr.toNat) ++ leBytes 4 x.msgTx.toNat ++
    leBytes 4 x.msgStatus.toNat ++ leBytes 4 x.hist.toNat ++
    leBytes 4 (x.nakDest.toNat + x.nakRing.toNat * 2 ^ 11) ++ leBytes 4 x.nakCount
  l ++ List.replicate (0x800 - l.length) 0

/-- The poisoned words of a tile, in ascending order (R456). -/
def Tile.poisonList (x : Tile) : List Nat := (x.bad.filter (fun c => c.2 = 3)).map (·.1)

/-- Rows 0–31 of an operand register, as bytes. -/
def Operand.rowBytes (o : Operand) : List Byte := (List.range 32).flatMap (fun r => leBytes 128 (sget 0 r o.rows).toNat)

/-- A tile image (Table 15-9, R455, R456): poisoned words are written as zero and listed. -/
def Tile.image (x : Tile) : List Byte :=
  let pl := x.poisonList
  let sh := pl.foldl (fun m w => zeroRange m (8 * w) 8) x.shelf
  let list := pl.take 511
  readBytes sh 0 shelfEnd ++
    (List.range 8).flatMap (fun a => (List.range 2).flatMap (fun e => (List.range 32).flatMap (fun r =>
      leBytes 128 ((x.acc (BitVec.ofNat 3 a)).row (e = 1) r).toNat))) ++
    (List.range 32).flatMap (fun n => leBytes 128 (x.v (BitVec.ofNat 5 n)).toNat) ++ x.stat.rowBytes ++ x.shadow.rowBytes ++
    x.regArea ++ leBytes 4 list.length ++ list.flatMap (leBytes 4) ++ List.replicate (4 * (511 - list.length)) 0

/-! ### Saving (R452, R453) -/

/-- Bytes go to a partition range whose 4 KiB units each get a seal (R453, R508). -/
def State.writeSealed (s : State) (p a : Nat) (b : List Byte) : State :=
  (List.range (b.length / 4096)).foldl (fun s' i =>
    let c := (b.drop (4096 * i)).take 4096
    let s1 := s'.writePart p (a + 4096 * i) c
    match s1.hbmMap p (a + 4096 * i) with
    | none => s1
    | some (k, l) => s1.modStack k (fun x => { x with seals := sins (l / 4096) { crc := crc32c c, sv := true } x.seals })) s

/-- The HBM unit that holds a partition address is poisoned (R348, R456). -/
def State.poisonUnit (s : State) (p a : Nat) : State :=
  match s.hbmMap p a with
  | none => s
  | some (k, l) => s.modStack k (fun x => { x with poison := sput false (l / 64) true x.poison })

/-- The image of one tile goes to its place in a context; poisoned words beyond the 511th poison their units. -/
def State.saveTile (s : State) (p a : Nat) (t : TileId) : State :=
  let s1 := s.modTile t (fun x => x.touch [(0, shelfEnd)])
  let x := s1.tile t
  (x.poisonList.drop 511).foldl (fun s' w => s'.poisonUnit p (a + 8 * w)) (s1.writeSealed p a x.image)

/-- Whether two tasks share a sync object. -/
def Run.listsObj (r : Run) (o : Nat) : Bool := r.syncs.any (fun y => y.obj = o)

/-- Whether a collective step that a task triggered has not been delivered (R452): one that runs, or one whose trigger object stands
at or past its target and which has not begun. A live sync has no steps (R413). -/
def State.stepOpen (s : State) (r : Run) (c : Coll) : Bool :=
  c.op ≠ 4 && r.listsObj c.trigObj && (c.state = 2 || (c.state = 1 && atOrPast (s.obj c.trigObj).value c.w4))

/-- The footprint stands at a save point (R452). -/
def State.savePoint (s : State) (k : Nat) : Bool :=
  let r := s.run k
  sget false k s.live && !armPending r s &&
    allTiles r s (fun x => x.st = 5 && x.task = k && !x.exch.last && x.copies = [] && x.sends = [] && x.sent = []) &&
    (List.range 8).all (fun n =>
      (sget {} n s.ports).owner ≠ some r.part ||
        (sget {} n s.ports).colls.all (fun c => !s.stepOpen r c.2))

/-- CONTEXT_SAVE: at its save point the task's context is written, with its seals, and the task returns to the ready set;
its footprint is released (R435, R452, R453). A re-key of a stack that it reads or writes holds it (R351). -/
def contextSave (k : Nat) (s : State) : State :=
  match s.rebind.saving.find? (fun c => c.1 = k) with
  | none => s
  | some c =>
    let r := s.run k
    match s.nblEntry r.part r.nbl with
    | none => s
    | some e =>
      if !s.savePoint k || !s.rebind.busy || s.nblHeld r.part r.nbl || s.heldRange r.part c.2 (ctxBytes r.size) then s
      else
        let s1 := s.writeSealed r.part c.2 (ctxHeader s k r e)
        let s2 := (List.range r.size).foldl (fun s' i =>
          s'.saveTile r.part (c.2 + 0x10000 + tileImage * i) (r.tileAt i)) s1
        let s3 := (s2.releaseRun k).modTask r.graph r.index (fun u => { u with st := 0, skips := 0, serial := 0, saved := some c.2 })
        { s3 with rebind := { s3.rebind with
            saving := s3.rebind.saving.filter (fun d => d.1 ≠ k), phase := 2 } }

/-! ### Restoring (R457, R458) -/

/-- Every 4 KiB unit of a context has a seal that matches its bytes. -/
def State.sealsOk (s : State) (p a n : Nat) : Bool :=
  (List.range (n / 4096)).all (fun i =>
    match s.hbmMap p (a + 4096 * i) with
    | none => false
    | some (k, l) =>
      let e := sget {} (l / 4096) (s.stack k).seals
      e.sv && !e.g && e.crc = crc32c (s.peek p (a + 4096 * i) 4096))

/-- The code that refuses a restore, in the order of R457; 0 where it goes on. A handle that the partition's table no longer knows has
the empty entry, which no context matches. DEDUCED, unsafe: assumption 19. -/
def restoreCode (s : State) (r : Run) (a : Nat) (e : NblEntry) (pr : Prep) : Nat :=
  let h := s.peek r.part a 64
  if fld h 8 4 ≠ 0x10002058 || fld h 6 1 ≠ r.w || fld h 7 1 ≠ r.h then 0x40
  else if e.len = 0 || fld h 16 4 ≠ r.nbl || fld h 20 4 ≠ e.hdr || fld h 24 4 ≠ e.bind then 0x41
  else if !s.inPart r.part a (ctxBytes r.size) || !s.sealsOk r.part a (ctxBytes r.size) then 0x42
  else if (syncSyms pr.file).any (fun y => y.check && (match s.translate r.part (pr.vids.getD y.sym 0) with
    | some o => (s.obj o).arrived ≠ 0
    | none => false)) then 0x43
  else 0

/-- An operand register from its rows, format and scales. -/
def operandOf (fmt : Nat) (rows scales : List Byte) : Operand :=
  { fmt := BitVec.ofNat 4 fmt, scales := BitVec.ofNat 256 (leNat scales)
    rows := (List.range 32).foldl (fun m r => sput 0 r (BitVec.ofNat 1024 (fld rows (128 * r) 128)) m) [] }

/-- A generator from its key and counter. -/
def genOf (key ctr : Nat) (isWax keyed : Bool) : Gen :=
  { key := BitVec.ofNat 128 key, ctr := BitVec.ofNat 128 ctr, isWax := isWax, keyed := keyed }

/-- The word after the record at word `p` of a ring: word 0 after a PAD (R290, R293). -/
def Ring.nextRecord (r : Ring) (m : Memory) (p : Nat) : Nat :=
  let w := readLE m (64 * r.base64.toNat + 8 * p) 8
  if bit w 63 = 1 then 0 else (p + bits w 61 59 + 1) % r.words

/-- The words at which the records from word `p` to TAIL begin, at most `k` of them, as their header words give them. -/
def Ring.walk (r : Ring) (m : Memory) : Nat → Nat → List Nat
  | 0, _ => []
  | k + 1, p => if p = r.tail.toNat then [] else p :: r.walk m k (r.nextRecord m p)

/-- MRINGn_CFG and MRINGn_PTR as saved. -/
def Ring.restore (r : Ring) (cfg ptr : Nat) : Ring :=
  { r with isOpen := cfg.testBit 31, size64 := BitVec.ofNat 11 (bits cfg 25 15), base64 := BitVec.ofNat 14 (bits cfg 13 0)
           tail := BitVec.ofNat 13 (bits ptr 31 16), head := BitVec.ofNat 13 (bits ptr 15 0) }

/-- The registers of a tile from its register area (Table 15-13) and from its register images. -/
def Tile.unsave (x : Tile) (b : List Byte) : Tile :=
  let a := b.drop 0x413000
  let fl := fld a 0x190 4
  let y : Tile :=
    { x with
      gs := (List.range 31).foldl (fun m i => sput 0 (i + 1) (BitVec.ofNat 64 (fld a (8 * i) 8)) m) []
      ps := BitVec.ofNat 8 (fld a 0xF8 1 / 2 * 2)
      pc := BitVec.ofNat 32 (fld a 0xFC 4)
      accs := (List.range 8).foldl (fun m n =>
        let half (e : Nat) : Sparse Row := (List.range 32).foldl (fun h r =>
          sput 0 r (BitVec.ofNat 1024 (fld b (0x400000 + 0x2000 * n + 0x1000 * e + 128 * r) 128)) h) []
        sput {} n { tag := BitVec.ofNat 4 (bits (fld a 0x100 4) (4 * n + 3) (4 * n)), kind := (fld a 0x104 1).testBit n
                    val := half 0, err := half 1 } m) []
      vs := (List.range 32).foldl (fun m n => sput 0 n (BitVec.ofNat 1024 (fld b (0x410000 + 128 * n) 128)) m) []
      stat := operandOf (fld a 0x105 1) (b.drop 0x411000) ((a.drop 0x108).take 32)
      shadow := operandOf (fld a 0x106 1) (b.drop 0x412000) ((a.drop 0x128).take 32)
      vu := genOf (fld a 0x150 16) (fld a 0x160 16) (fl.testBit 31) (fl.testBit 29)
      dr := genOf (fld a 0x170 16) (fld a 0x180 16) (fl.testBit 30) (fl.testBit 28)
      waxUsed := fl.testBit 27
      msgTx := BitVec.ofNat 32 (fld a 0x1D8 4)
      msgResult := BitVec.ofNat 2 (bits (fld a 0x1DC 4) 31 30)
      msgReason := BitVec.ofNat 2 (bits (fld a 0x1DC 4) 29 28)
      msgSeq := BitVec.ofNat 16 (bits (fld a 0x1DC 4) 15 0)
      hist := BitVec.ofNat 32 (fld a 0x1E0 4)
      nakDest := BitVec.ofNat 11 (bits (fld a 0x1E4 4) 10 0)
      nakRing := BitVec.ofNat 3 (bits (fld a 0x1E4 4) 13 11)
      nakCount := fld a 0x1E8 4 }
  (List.range 8).foldl (fun z n => z.setRing n ((z.ring n).restore (fld a (0x198 + 4 * n) 4) (fld a (0x1B8 + 4 * n) 4))) y

/-- The image of a tile comes back from a context at `a`: shelves, registers, and its poisoned words (R220, R456). The records of its
rings are those that their headers show, and count as read. DESIGN CHOICE, unsafe: assumption 68. -/
def State.restoreTile (s : State) (p a : Nat) (t : TileId) : State :=
  let rd := s.readPart p a tileImage
  let b := rd.2.1
  let listed := (List.range (fld b 0x413800 4)).map (fun i => fld b (0x413804 + 4 * i) 4)
  let units := (List.range (shelfEnd / 64)).filter (fun u => match rd.1.hbmMap p (a + 64 * u) with
    | some (k, l) => (rd.1.stack k).anyPoison [l / 64]
    | none => false)
  rd.1.modTile t (fun x =>
    let y := (x.put (at' 0 (b.take shelfEnd))).unsave b
    { y with
      rings := smap {} (fun q => { q with starts := q.walk y.shelf q.words q.head.toNat, unread := [] }) y.rings
      bad := (listed ++ units.flatMap (fun u => (List.range 8).map (8 * u + ·))).foldl (fun m w => sput 0 w 3 m) y.bad })

/-- The dispatch-time records of kinds TILE, STACK, PORT and STAGE at a new placement (R458): with ADD = 1 the difference of
BASE between the two placements is added. DEDUCED, unsafe: assumption 19. -/
def State.replaceLate (s : State) (old new : Run) (f : List Byte) (l : List RelocRec) : State :=
  (l.filter (fun q => 4 ≤ q.kind)).foldl (fun s' q =>
    let b := relocBase new f [] q
    let v := if q.add then BitVec.ofInt 64 ((b : Int) - relocBase old f [] q) else q.value b
    applyReloc new q v s') s

/-- The objects listed with CHECK = 1 take their saved VALUE by increments, and the saved START stays (R458). -/
def State.restoreSyncs (s : State) (k : Nat) (h : List Byte) : State :=
  let s1 := s.modRun k (fun q => { q with
    syncs := q.syncs.zipIdx.map (fun c => { c.1 with start := BitVec.ofNat 32 (fld h (0x104 + 8 * c.2) 4) }) })
  (s1.run k).syncs.zipIdx.foldl (fun s' c =>
    if c.1.check then
      s'.incObj c.1.obj (BitVec.ofNat 32 (fld h (0x100 + 8 * c.2) 4) - (s'.obj c.1.obj).value).toNat
    else s') s1

/-- The reads of a restore (R475): the table entry, the prepared image and its dispatch-time records, and the context header. -/
def State.readRestore (s : State) (r : Run) (a : Nat) : State :=
  let s1 := s.readNbl r.part r.nbl
  if s1.inPart r.part a 0x10000 then (s1.readPart r.part a 0x10000).1 else s1

/-- A refused restore ends the task with status FAULT (R457). -/
def State.refuseRestore (s : State) (k : Nat) (g : Graph) (t : TaskRec) (code : Nat) (ok : Bool) : State :=
  let r := s.run k
  (((s.signalVid g.part t.cplVid).post g.part
    { tag := t.tag, serial := k, kind := 1, status := 1, code := code, index := r.index, attempt := t.attempts + 1
      block := 4 * r.bx0 + r.by0, rel := fill 2, sstep := fill 3 } ok).releaseRun k).endTask g.num r.index 1
        (BitVec.ofNat 8 code) ok

/-- CONTEXT_RESTORE: a placed task that starts from a context is checked against its target, copied into its footprint
and re-relocated, and its tiles go on where they stood (R457, R458, R50). A re-key of a stack that it reads holds it (R351). It takes the Rounding mode in force at the restore. DESIGN
CHOICE, unsafe: assumption 61. -/
def contextRestore (k : Nat) (ok : Bool) (s0 : State) : State :=
  match s0.waitsFor k with
  | none => s0
  | some (g, t) =>
    if !t.restores then s0
    else
      let r := s0.run k
      let a := t.ctxAddr
      let s := s0.readRestore r a
      let e := (s.nblEntry r.part r.nbl).getD {}
      let pr := s.prep r.part e
      let code := restoreCode s r a e pr
      if s0.nblHeld r.part r.nbl || s0.heldRange r.part a (ctxBytes r.size) ||
          s0.heldRange r.part t.args (nblArgsLen pr.file) then s0
      else if code ≠ 0 then (if s.heldFull g.part then s else s.refuseRestore k g t code ok)
      else
        let h := s.peek r.part a 0x10000
        let s1 := (s.fixModes k).toLoading k 0
        let s2 := s1.modTask g.num r.index (fun u =>
          { u with st := 2, attempts := if t.saved.isSome then u.attempts else u.attempts + 1, saved := none })
        match s2.readArgs r.part t pr.file with
        | (s3, none) => s3.raise (r.tileAt 0) tileADDR false 0 0
        | (s3, some args) =>
          let s4 := (List.range r.size).foldl (fun s' i =>
            s'.restoreTile r.part (a + 0x10000 + tileImage * i) (r.tileAt i)) s3
          let old : Run := { r with bx0 := fld h 0x30 1 / 4, by0 := fld h 0x30 1 % 4, stgOff := fld h 0x34 4 }
          let s5 := s4.replaceLate old r pr.file (s.lateRecs r.part e)
          let s6 := s5.placeStreams k pr.file args
          if (s6.run k).fault.isSome then s6
          else
            let s7 := s6.placeSyncs k pr
            if (s7.run k).fault.isSome then s7
            else
              let s8 := r.tiles.foldl (fun s' u => s'.modTile u (fun x =>
                { x with sstep := BitVec.ofNat 64 (fld h 0x28 8 + 1) })) (s7.restoreSyncs k h)
              s8.toCompute k

end Sys2Proof.Machine
end

