-- ==== Sys2Proof/Machine/Rings.lean ====
section
/-!
DEFINITION. What goes round a Lampline ring (R404–R406, R412, R413, R417–R428, R525–R528): SYNC frames, markers and
revolution boundaries, COAST and LOSS frames, splices, window frames, and the start and end of collective steps.
-/
namespace Sys2Proof.Machine

/-! ### Scalar collectives (R404, R412) -/

/-- The port of ring `r` in the direction of port `p`. -/
def ringPort (p r : Nat) : Nat := 2 * r + p % 2

/-- A live descriptor of a direction, by CID and operation: its port and number. -/
def State.findDir (s : State) (q op cid : Nat) : Option (Nat × Nat) :=
  ((List.range 4).map (ringPort q)).findSome? (fun p =>
    ((s.port p).colls.find? (fun c => c.2.live && c.2.op = op && c.2.cid = cid)).map (fun c => (p, c.1)))

/-- A scalar SYNC frame with words 1 to 127. -/
def scalarFrame (x : Port) (q cid nranks pass : Nat) (slots : List Nat) : Frame :=
  { type := 3
    dest := 0x7F
    orig := BitVec.ofNat 7 (ringRank x.ringAct)
    hops := x.hopsRound
    payload := payloadOf ((2 ^ 62 + pass * 2 ^ 60 + ringOfPort q % 4 * 2 ^ 58 + cid * 2 ^ 46 + nranks * 2 ^ 39) :: slots) }

def syncForm (f : Frame) : Nat := bits (frameWord f 0) 63 62
def syncPass (f : Frame) : Nat := bits (frameWord f 0) 61 60
def syncCid (f : Frame) : Nat := bits (frameWord f 0) 57 46

/-- The sum of module totals in FP64, in ascending rank order (R412). -/
def scalarSum (n : Nat) (f : Frame) : BitVec 64 :=
  BitVec.ofNat 64 ((List.range (n - 1)).foldl (fun a q =>
    roundF fp64 .rne ((decodeF fp64 a).add (decodeF fp64 (frameWord f (q + 2))))) (frameWord f 1))

/-- T has come for ring `k` of the descriptor: on the first ring it goes to the engines; on a later one this module, the
rank 0 of the ring before, sends it round that ring first (R412). -/
def State.takeT (s : State) (p n : Nat) (t : BitVec 64) : Nat → State
  | 0 => (s.modColl p n (fun d => { d with value := none, reduced := 1 })).redReturn (s.coll p n).trigObj t
  | k + 1 =>
    let d := s.coll p n
    let q := ringPort p (d.ringList.getD k 0)
    let x := s.port q
    (s.putOwn q (scalarFrame x q d.cid x.rankCount 2 [t.toNat])).takeT p n t k

/-- A module with its value for the ring in progress: rank 0 starts the frame; another rank writes its slot into the frame
that it holds. -/
def State.scalarGo (s : State) (p n : Nat) : State :=
  let d := s.coll p n
  let q := ringPort p (d.ringList.getD d.ringAt 0)
  let x := s.port q
  match d.value with
  | none => s
  | some v =>
    let r := ringRank x.ringAct
    if !ringRanked x.ringAct then s
    else if r = 0 then s.putOwn q (scalarFrame x q d.cid x.rankCount 1 [v.toNat])
    else match d.syncPark with
      | none => s
      | some f =>
        let w := (List.range 128).map (fun i => if i = r + 1 then v.toNat else frameWord f i)
        (s.setColl p n { d with syncPark := none }).forward (pairPort q) { f with payload := payloadOf w }

/-- A scalar SYNC frame arrives at ring side `p'`: a lantern passes it on; in the first pass a rank adds its total, and
rank 0 forms T or carries the ring's total into the next ring; in the second pass each rank takes T. -/
def State.scalarArrive (s : State) (p' : Nat) (f : Frame) : State :=
  let q := pairPort p'
  let x := s.port q
  if !ringRanked x.ringAct then s.forward p' f
  else match s.findDir q 3 (syncCid f) with
    | none => s.ttlDrop q
    | some (p, n) =>
      let d := s.coll p n
      let k := d.ringList.findIdx (fun r => r = q / 2)
      let zero := x.isRank 0
      if syncPass f = 1 then
        (if zero then
          let t := scalarSum x.rankCount f
          if k + 1 < d.ringList.length then (s.setColl p n { d with value := some t, ringAt := k + 1 }).scalarGo p n
          else (s.putOwn q (scalarFrame x q d.cid x.rankCount 2 [t.toNat])).takeT p n t k
        else
          let s1 := s.setColl p n { d with syncPark := some f }
          if d.state = 2 && d.ringAt = k then s1.scalarGo p n else s1)
      else if zero then s
      else (s.forward p' f).takeT p n (BitVec.ofNat 64 (frameWord f 1)) k

/-! ### Sync collectives (R404, R413) -/

/-- Entries of a delta frame by CID. -/
def deltaEntries (f : Frame) : List (Nat × Delta) :=
  (List.range (min 31 (bits (frameWord f 0) 57 53))).map (fun e =>
    let w := frameWord f (5 + 4 * e)
    (bits (frameWord f (4 + 4 * e)) 63 52,
     { inc := BitVec.ofNat 32 (bits w 63 32), arr := bits w 31 16, cnt := BitVec.ofNat 16 (bits w 15 0) }))

/-- A delta SYNC frame of entries. -/
def deltaFrame (x : Port) (q pass : Nat) (l : List (Nat × Delta)) : Frame :=
  { type := 3
    dest := 0x7F
    orig := BitVec.ofNat 7 (ringRank x.ringAct)
    hops := x.hopsRound
    payload := payloadOf ((2 ^ 63 + pass * 2 ^ 60 + ringOfPort q % 4 * 2 ^ 58 + l.length * 2 ^ 53) :: 0 :: 0 :: 0 ::
      l.flatMap (fun c => [c.1 * 2 ^ 52, c.2.inc.toNat * 2 ^ 32 + c.2.arr % 65536 * 65536 + c.2.cnt.toNat, 0, 0])) }

/-- The sum of two deltas. -/
def Delta.add (a b : Delta) : Delta :=
  { inc := a.inc + b.inc, arr := a.arr + b.arr, cnt := if a.cnt = 0 then b.cnt else a.cnt }

/-- Add a delta to the entry of a CID, or append one. -/
def addEntry (l : List (Nat × Delta)) (cid : Nat) (d : Delta) : List (Nat × Delta) :=
  if l.any (fun c => c.1 = cid) then l.map (fun c => if c.1 = cid then (cid, c.2.add d) else c) else l ++ [(cid, d)]

/-- Whether a delta says anything. -/
def Delta.isZero (d : Delta) : Bool := d.inc = 0 && d.arr = 0

/-- The live sync descriptors of a direction that name ring `r`, with the ring's place in their RINGS. -/
def State.syncColls (s : State) (q r : Nat) : List (Nat × Nat × Nat) :=
  ((List.range 4).map (ringPort q)).flatMap (fun p =>
    ((s.port p).colls.filter (fun c => c.2.live && c.2.op = 4 && c.2.ringList.contains r)).map (fun c =>
      (p, c.1, c.2.ringList.findIdx (fun x => x = r))))

/-- What this module has collected for place `k` of a descriptor's rings: from the bound object on the first ring, from
the ring before on a later one. -/
def State.collected (s : State) (p n k : Nat) : Delta :=
  let d := s.coll p n
  if k = 0 then
    let v := s.obj d.trigObj
    { inc := v.dInc, arr := v.dArr, cnt := v.dCnt }
  else sget {} k d.up

/-- It has been entered into a frame, which takes the arrivals of the object's tiles with it. -/
def State.clearCollected (s : State) (p n k : Nat) : State :=
  let d := s.coll p n
  if k = 0 then
    let v := s.obj d.trigObj
    s.setObj d.trigObj { v with dInc := 0, dArr := 0, dCnt := 0, dBars := [], fBars := v.fBars ++ [v.dBars] }
  else s.setColl p n { d with up := sput {} k {} d.up }

/-- A frame passes without taking anything of a descriptor's object. -/
def State.skipFrame (s : State) (p n k : Nat) : State :=
  let o := (s.coll p n).trigObj
  if k = 0 then s.setObj o { s.obj o with fBars := (s.obj o).fBars ++ [[]] } else s

/-- First pass: the module enters its deltas; those that find no free entry wait (R404). -/
def State.enterDeltas (s : State) (q : Nat) (l : List (Nat × Delta)) : State × List (Nat × Delta) :=
  (s.syncColls q (q / 2)).foldl (fun c z =>
    let v := c.1.collected z.1 z.2.1 z.2.2
    let cid := (c.1.coll z.1 z.2.1).cid
    if v.isZero || (31 ≤ c.2.length && !(c.2.any (fun e => e.1 = cid))) then (c.1.skipFrame z.1 z.2.1 z.2.2, c.2)
    else (c.1.clearCollected z.1 z.2.1 z.2.2, addEntry c.2 cid v)) (s, l)

/-- Arrivals of a delta at an object: this module's tiles first, then the other modules' (R413, R274). -/
def arriveAll (x : SyncObj) (c : BitVec 16) : List (Option TileId) → SyncObj × List TileId
  | [] => (x, [])
  | t :: r =>
    let a := x.arrive c t
    let b := arriveAll a.1 c r
    (b.1, a.2 ++ b.2)

/-- A delta is applied to its bound object: increments, then arrivals, those of this module's tiles first (R413). -/
def State.applyDelta (s : State) (o : Nat) (d : Delta) (locals : List TileId) : State :=
  let x := s.obj o
  let mine := (locals.take d.arr).map some
  let a := arriveAll (x.setValue (x.value + d.inc)) d.cnt (mine ++ List.replicate (d.arr - mine.length) none)
  releaseBars o a.2 (s.setObj o a.1)

/-- The tiles whose arrivals come back with a frame, and those whose arrivals are still on their way: on one ring the frames come back
in order, each with what it took here; over several rings the frames of one ring merge into those of the next, and the oldest `n`
arrivals come back first. DESIGN CHOICE, unsafe: assumption 42. -/
def backBars (one : Bool) (n : Nat) (l : List (List TileId)) : List TileId × List (List TileId) :=
  if one then (l.headD [], l.drop 1) else (l.flatten.take n, [l.flatten.drop n])

/-- Second pass at the object of a descriptor's first ring. -/
def State.deltaBack (s : State) (p n : Nat) (v : Delta) : State :=
  let d := s.coll p n
  let x := s.obj d.trigObj
  let b := backBars (d.ringList.length ≤ 1) v.arr x.fBars
  (s.setObj d.trigObj { x with fBars := b.2 }).applyDelta d.trigObj v b.1

/-- The frame brings nothing for a descriptor's object. -/
def State.deltaIdle (s : State) (q : Nat) (l : List (Nat × Delta)) : State :=
  (s.syncColls q (q / 2)).foldl (fun t z =>
    if z.2.2 = 0 && !l.any (fun e => e.1 = (t.coll z.1 z.2.1).cid) then t.deltaBack z.1 z.2.1 {} else t) s

/-- Second pass: an entry reaches its object, or, on a later ring of RINGS, waits for the second pass of the ring before. -/
def State.applyEntry (s : State) (q : Nat) (c : Nat × Delta) : State :=
  match s.findDir q 4 c.1 with
  | none => s
  | some (p, n) =>
    let d := s.coll p n
    match d.ringList.findIdx (fun r => r = q / 2) with
    | 0 => s.deltaBack p n c.2
    | k + 1 => s.setColl p n { d with down := sput {} k ((sget {} k d.down).add c.2) d.down }

/-- At rank 0 after the first pass: entries whose descriptor names a further ring go on to it, and what has come back from
there joins the second pass. -/
def State.turnEntries (s : State) (q : Nat) (l : List (Nat × Delta)) : State × List (Nat × Delta) :=
  let up := l.foldl (fun (c : State × List (Nat × Delta)) e =>
    match c.1.findDir q 4 e.1 with
    | none => (c.1, c.2 ++ [e])
    | some (p, n) =>
      let d := c.1.coll p n
      let k := d.ringList.findIdx (fun r => r = q / 2)
      if k + 1 < d.ringList.length then
        (c.1.setColl p n { d with up := sput {} (k + 1) ((sget {} (k + 1) d.up).add e.2) d.up }, c.2)
      else (c.1, c.2 ++ [e])) (s, [])
  (up.1.syncColls q (q / 2)).foldl (fun c z =>
    let d := c.1.coll z.1 z.2.1
    let v := sget {} z.2.2 d.down
    if v.isZero then c
    else (c.1.setColl z.1 z.2.1 { d with down := sput {} z.2.2 {} d.down }, addEntry c.2 d.cid v)) up

/-- Rank 0 sends a delta frame after its marker, when a sync collective uses the ring (R413). -/
def State.startDeltas (s : State) (q : Nat) : State :=
  if s.syncColls q (q / 2) = [] then s
  else
    let c := s.enterDeltas q []
    c.1.putOwn q (deltaFrame (c.1.port q) q 1 c.2)

/-- A delta frame arrives at ring side `p'`. -/
def State.deltaArrive (s : State) (p' : Nat) (f : Frame) : State :=
  let q := pairPort p'
  let x := s.port q
  let l := deltaEntries f
  let mk (pass : Nat) (l : List (Nat × Delta)) (x : Port) : Frame := { deltaFrame x q pass l with hops := f.hops, orig := f.orig }
  if !ringRanked x.ringAct then s.forward p' f
  else if syncPass f = 1 then
    (if x.isRank 0 then
      let c := s.turnEntries q l
      let s1 := (c.2.foldl (fun t e => t.applyEntry q e) c.1).deltaIdle q c.2
      s1.putOwn q (deltaFrame x q 2 c.2)
    else
      let c := s.enterDeltas q l
      c.1.forward p' (mk 1 c.2 x))
  else if x.isRank 0 then s
  else ((l.foldl (fun t e => t.applyEntry q e) s).deltaIdle q l).forward p' f

/-- SYNC_FRAME: scalar or delta form (R404). -/
def syncFrame (p : Nat) (f : Frame) (s : State) : State :=
  s.rx p 3 f (fun g p' t =>
    if syncForm g = 1 then t.scalarArrive p' g else if syncForm g = 2 then t.deltaArrive p' g else t.forward p' g)

/-! ### The fields of window frames (Table 18-7) -/

/-- The window fields of AUX16 (Table 18-7). -/
def auxWin (f : Frame) : Nat := bits f.aux.toNat 63 52
def auxGen (f : Frame) : BitVec 16 := BitVec.ofNat 16 (bits f.aux.toNat 51 36)
def auxDrain (f : Frame) : Bool := f.aux.toNat.testBit 35
def auxLen (f : Frame) : Nat := bits f.aux.toNat 34 30
def auxOff (f : Frame) : Nat := bits f.aux.toNat 127 64

/-- AUX16 of a window frame. -/
def auxOf (win gen : Nat) (drain : Bool) (len reason off : Nat) : BitVec 128 :=
  BitVec.ofNat 128 (win * 2 ^ 52 + gen * 2 ^ 36 + (if drain then 2 ^ 35 else 0) + len * 2 ^ 30 + reason * 2 ^ 28 + off * 2 ^ 64)

/-! ### Markers and revolution boundaries (R405, R406, R424) -/

/-- The boundary at both ports of a ring: LP_REVS and LP_REV advance, an asked coast-down is complete (R417), a pending
LP_RING whose MAPGEN the marker carries takes effect, with the pending map when that MAPGEN is a new one (R424), and a splice
cleared while coasted ends (R428). -/
def Port.boundary (x : Port) (gen : Nat) (emit : BitVec 64) : Port :=
  let y := { x with
    revs := x.revs + 1
    rev := match x.lastEmit with
      | some e => (emit - e).truncate 32
      | none => x.rev
    lastEmit := some emit
    coasted := x.coasted || x.coastAsk }
  if ringGen y.ring ≠ gen then y else if ringGen y.ringAct = gen then y.applyRing else y.applyAll

/-- A module that takes a rank leaves Pilot (R424), once the Lamplighter runs (R551). -/
def State.lanternWakes (s : State) (was : Bool) (p : Nat) : State :=
  if !was && ringRanked (s.port p).ringAct then s.wakePilot s.dim.pilot else s

/-- Paused steps of a ring go on from the frame where they stopped (R418). -/
def State.ringGo (s : State) (q : Nat) : State :=
  [q, pairPort q].foldl (fun t o => (t.port o).colls.foldl (fun u c => u.collGo o c.1) t) s

/-- A drain marker of window `n` leaves through a port, to come back to this module (R528). -/
def State.sendDrain (s : State) (n p : Nat) : State :=
  let x := s.port p
  let r := BitVec.ofNat 7 (ringRank x.ringAct)
  s.putOwn p { type := 7, orig := r, dest := r, hops := x.hopsRound, aux := auxOf n (s.win n).gen.toNat true 0 0 0 }

/-- Drain markers that a lost link may have destroyed are sent again (R528). -/
def State.resendDrains (s : State) (p : Nat) : State :=
  s.wins.foldl (fun t c => if c.2.state = 2 && c.2.drains.contains p then t.sendDrain c.1 p else t) s

/-- An X port splices: its skip port carries its traffic, the frames that the lost neighbour did not acknowledge first
(R422). DEDUCED, unsafe: assumption 43. -/
def State.splice (s : State) (p : Nat) : State :=
  let s1 := s.modPort p (fun y =>
    { y with
      spliced := true, spliceAsk := false, ring := y.ring ||| 0x40000000, ringAct := y.ringAct ||| 0x40000000
      ctlQ := y.sent.filter isCtl ++ y.ctlQ
      redo := y.redo ++ y.sent.filter (fun f => f.type ≠ 0 && !isCtl f)
      sent := [], resend := [] })
  s1.resendDrains p

/-- A splice that waited for the revolution boundary (R427). -/
def State.spliceDue (s : State) (p : Nat) : State :=
  [p, pairPort p].foldl (fun t o => if (t.port o).spliceAsk then t.splice o else t) s

/-- The marker is forwarded at a module: the ring's boundary, then a splice and a resume that wait for it (R418, R427). -/
def State.ringBoundary (s : State) (p gen : Nat) (emit : BitVec 64) : State :=
  let was := ringRanked (s.port p).ringAct
  let s1 := ((s.modRing p (fun x => x.boundary gen emit)).lanternWakes was p).spliceDue p
  if (s1.port p).resumeAsk then (s1.sendCoast p true).ringGo p else s1

/-- Rank 0 emits a marker eastbound with its pending MAPGEN, passes its own boundary, and sends its deltas (R405, R413).
DEDUCED, unsafe: assumption 42. -/
def State.emitMark (s : State) (q : Nat) : State :=
  let x := s.port q
  let gen := ringGen x.ring
  let serial := x.markSerial + 1
  let f : Frame :=
    { type := 4, hops := x.hopsRound, dest := 0x7F, orig := BitVec.ofNat 7 (ringRank x.ringAct)
      payload := payloadOf [gen * 2 ^ 56 + ringOfPort q % 4 * 2 ^ 54, serial.toNat, s.time.toNat] }
  let s1 := s.setPort q { x with marker := some serial, markSerial := serial, markAt := s.time.toNat }
  let s2 := (s1.ringBoundary q gen s.time).putCtl q f
  (s2.startDeltas q).startDeltas (pairPort q)

/-- MARK_FRAME: rank 0 takes its marker back and emits the next; every other module forwards it, which is its revolution
boundary (R403, R405, R421). A marker that rank 0 no longer waits for ends there. -/
def markFrame (p : Nat) (f : Frame) (s : State) : State :=
  s.rx p 4 f (fun g p' t =>
    let q := pairPort p'
    let x := t.port q
    if x.isRank 0 then
      (if x.marker = some (BitVec.ofNat 64 (frameWord g 1)) then (t.setPort q { x with marker := none }).emitMark q else t)
    else
      (t.ringBoundary q (bits (frameWord g 0) 63 56) (BitVec.ofNat 64 (frameWord g 2))).forward p' g)

/-- Whether frames can leave through a port: its link is up, its skip port carries them (R422), or they go by detour
(R425). -/
def State.canSend (s : State) (q : Nat) : Bool :=
  (s.port q).link = 2 || (q < 2 && (s.port q).spliced && (s.port (skipOf q)).link = 2) || s.detoured q

/-- MARKER_TIMEOUT: rank 0 emits a fresh marker when none has come back within 2 × LP_REV, and counts the loss; the first
marker of a ring is emitted so too, without a loss (R405, R406). -/
def markerTimeout (q : Nat) (s : State) : State :=
  let x := s.port q
  if !x.isRank 0 || !s.canSend q || !eastPort q then s
  else match x.marker with
    | none => s.emitMark q
    | some _ =>
      if s.time.toNat ≤ x.markAt + 2 * x.rev.toNat then s
      else (s.setPort q { x with markLost := satInc x.markLost }).emitMark q

/-! ### COAST and LOSS frames (R403, R417, R418, R423) -/

/-- COAST_FRAME: forwarded once; the ring coasts down, or resumes. -/
def coastArrives (p : Nat) (f : Frame) (s : State) : State :=
  s.rx p 5 f (fun g p' t =>
    let key : BitVec 7 × BitVec 64 := (BitVec.ofNat 7 (frameWord g 0), BitVec.ofNat 64 (frameWord g 1))
    let q := pairPort p'
    if (t.port q).coastSeen.contains key then t
    else
      let resume := (frameWord g 0).testBit 63
      let t1 := t.modRing q (fun x =>
        let y := { x with coastSeen := x.coastSeen ++ [key] }
        if resume then { y with coastAsk := false, coasted := false, coastMine := false } else { y with coastAsk := true })
      let t2 := t1.forward p' g
      if resume then t2.ringGo q else t2)

/-- Whether a collective of port `o` uses the ring of port `p`: its own ring, and each ring that a scalar one names. -/
def Coll.uses (d : Coll) (o p : Nat) : Bool := o / 2 = p / 2 || (d.op = 3 && d.ringList.contains (p / 2))

/-- Every collective of a ring that has a step in progress ends with LINK_LOSS (R423). -/
def State.ringLoss (s : State) (p : Nat) : State :=
  (List.range 8).foldl (fun t o =>
    (t.port o).colls.foldl (fun u c => if c.2.state = 2 && c.2.uses o p then u.linkLoss o c.1 else u) t) s

/-- A LOSS frame of this module. -/
def lossFrameOf (x : Port) (p lost now : Nat) : Frame :=
  { type := 6
    hops := x.hopsRound
    payload := payloadOf [ringOfPort p % 4 * 2 ^ 54 + lost * 2 ^ 8 + ringPos x.ringAct, now] }

/-- LOSS_FRAME: the steps in progress on the ring end, drain markers that the lost module held are sent again, and the frame
goes on round the ring to its reporter (R423, R528). -/
def lossFrame (p : Nat) (f : Frame) (s : State) : State :=
  s.rx p 6 f (fun g p' t =>
    let q := pairPort p'
    let t1 := ((t.ringLoss q).resendDrains q).resendDrains (pairPort q)
    if frameWord g 0 % 128 = ringPos (t.port q).ringAct then t1 else t1.forward p' g)

/-! ### Window frames (R525, R526, R528) -/

/-- WIN_CLOSE: an OPEN entry becomes CLOSING and sends its drain markers on every ring that its partition's ports reach
(R528). -/
def State.winClose (s : State) (n : Nat) : State :=
  let w := s.win n
  if w.state ≠ 1 then s
  else
    let ps := (List.range 8).filter (fun p =>
      let x := s.port p
      let y := s.port (pairPort p)
      (x.owner = some w.part.toNat || y.owner = some w.part.toNat) && ringRanked x.ringAct)
    ps.foldl (fun t p => t.sendDrain n p) (s.setWin n { w with state := 2, drains := ps })

/-- WIN_CLOSE_COMPLETE: every marker has returned, and the host's writes have completed (R528); units that meet a stack in a re-key
hold it (R351). -/
def winCloseComplete (n : Nat) (s : State) : State :=
  let w := s.win n
  if w.state = 2 && w.drains = [] && !s.unitsHeld n (fun _ => true) then s.winDone n else s

/-- Whether a window write is to be applied or refused by this module: it is addressed to its rank, and is no drain marker. -/
def State.wwriteHere (s : State) (p : Nat) (f : Frame) : Bool := (s.port (pairPort p)).isRank f.dest.toNat && !auxDrain f

/-- Whether a window write that is to be applied here meets a stack that is being re-keyed, itself or with the units of its sender:
its port does not take it yet (R351). -/
def State.wwriteHeld (s : State) (p : Nat) (f : Frame) : Bool :=
  s.wwriteHere p f &&
    (s.winHeld true (auxWin f) (auxGen f) (auxOff f) (64 * min 16 (auxLen f)) || s.unitsHeld (auxWin f) (·.from p f.orig))

/-- WWRITE_FRAME: at its destination a window write is applied, or refused with a WNAK to its sender; a drain marker that
returns to this module is noted (R525–R529). In Banked one wakes the module first (R540). -/
def wwriteFrame (p : Nat) (f : Frame) (s : State) : State :=
  let side (c : Nat → Bool) : Bool := s.takesNow p 7 f && (s.countsAt (inOf p f) f).any c
  if s.dim.banked && side (fun q => s.wwriteHere q f) then s.wakeModule
  else if side (fun q => s.wwriteHeld q f) then s
  else s.rx p 7 f (fun f p' t =>
    let q := pairPort p'
    let x := t.port q
    if !(x.isRank f.dest.toNat) then t.forward p' f
    else if auxDrain f then
      (let n := auxWin f
       let w := t.win n
       if x.isRank f.orig.toNat && w.state = 2 && w.gen = auxGen f then t.setWin n { w with drains := w.drains.erase q } else t)
    else
      let b := (frameBytes f).take (64 * min 16 (auxLen f))
      let r := if f.sealed then t.winSealed p' f.orig (auxWin f) (auxGen f) (auxOff f) b f.crc
        else (t.flushUnits (auxWin f) (·.from p' f.orig)).winWrite true (auxWin f) (auxGen f) (auxOff f) b
      if r.2 = 0 then r.1
      else
        let y := r.1.port p'
        r.1.putOwn p'
          { type := 8, dest := f.orig, orig := BitVec.ofNat 7 (ringRank y.ringAct)
            hops := y.hopsFor (eastPort p') f.orig.toNat
            aux := auxOf (auxWin f) (auxGen f).toNat false (auxLen f) r.2 (auxOff f) })

/-- WNAK_FRAME: a refusal reaches the sender of the write, whose answer it is; others forward it (R526). -/
def wnakFrame (p : Nat) (f : Frame) (s : State) : State :=
  s.rx p 8 f (fun f p' t =>
    if (t.port (pairPort p')).isRank f.dest.toNat then
      { t with reply := [BitVec.ofNat 64 f.aux.toNat, BitVec.ofNat 64 (f.aux.toNat / 2 ^ 64)] }
    else t.forward p' f)

/-! ### Lost links (R422, R426, R427) -/

/-- A ring is BROKEN: both ports say so, and a fault record is written (R426). -/
def State.breakRing (s : State) (p : Nat) : State :=
  if (s.port p).broken then s
  else (s.modRing p (fun x => { x with broken := true })).report 5 3 p ((s.port p).owner.getD 0xFF) 0 0 0 0

/-- LINK_LOSS_DETECT: the link of a port is lost. An X port splices to its skip port, which takes its waiting frames, and
sends a LOSS frame; when the neighbour was warned and the ring has coasted, it splices at the next revolution boundary and
sends none. A ring that cannot splice is BROKEN: two adjacent positions are lost when the skip link is lost too
(R422, R426, R427). -/
def linkLossDetect (p : Nat) (warned : Bool) (s : State) : State :=
  let x := s.port p
  if x.link = 0 || 8 ≤ p || x.spliced || x.spliceAsk then s
  else
    let lost := if eastPort p then (ringPos x.ringAct + 1) % ringN x.ringAct
      else (ringPos x.ringAct + ringN x.ringAct - 1) % ringN x.ringAct
    let y := { x.leave 4 with lanes := 0 }
    if 2 ≤ p then
      (let s2 := ((s.setPort p { y with sent := [], resend := [] }).applyCtl p).breakRing p
       if 6 ≤ p && (s.port (xOfSkip p)).spliced then s2.breakRing (xOfSkip p) else s2)
    else
      let s1 := (s.setPort p y).applyCtl p
      if (s.port (skipOf p)).link ≠ 2 && (s.port (skipOf p)).link ≠ 3 then (s1.modPort p (fun z => { z with sent := [], resend := [] })).breakRing p
      else if warned && x.coasted then s1.modPort p (fun z => { z with spliceAsk := true })
      else (s1.splice p).putCtl p (lossFrameOf y p lost s.time.toNat)

/-! ### Starting and ending steps (R408, R426, R543) -/

/-- Whether a ring that a collective uses is BROKEN (R426). -/
def State.ringBroken (s : State) (p n : Nat) : Bool :=
  (List.range 8).any (fun o => (s.port o).broken && (s.coll p n).uses p o)

/-- COLLECTIVE_STEP_START: the trigger has come, or the module total of a scalar collective has been formed. A BROKEN ring
ends the collective with LINK_LOSS, and DET_LOCK one that would start with Defer or Drop with FAULT 0x04 (R361, R408,
R421, R426, R543). In Banked the trigger wakes the module first (R540); a step that starts ends its idleness (R538). -/
def collStepStart (p n : Nat) (s : State) : State :=
  let d := s.coll p n
  let x := s.port p
  let part := x.owner.getD 0
  let due := if d.op = 3 then (s.red d.trigObj).total.isSome
    else d.op < 3 && atOrPast (s.obj d.trigObj).value d.w4
  if !d.live || d.state ≠ 1 || !due || x.paused || !ringRanked x.ringAct then s
  else if s.dim.banked then s.wakeModule
  else if s.ringBroken p n then s.linkLoss p n
  else if (s.part part).modeAct.getLsbD 29 && (d.policy = 1 || d.policy = 2) then s.endColl p n 4
  else
    let s1 := s.hostBusy.setColl p n (d.begin s.time.toNat)
    if d.op = 3 then (s1.modColl p n (fun c => { c with value := (s.red d.trigObj).total })).scalarGo p n
    else s1.collGo p n

/-- The routers that result flits of a port pass: those of the footprints whose tiles carry its ATTACH links. -/
def State.groupTiles (s : State) (p : Nat) : List TileId :=
  (List.range 6).flatMap (fun i =>
    let t := attachRouter p i
    if (s.tile t).task = 0 then [t] else (s.runOf t).tiles)

/-- Whether the base dies and tiles have written every flit that the routers held: no input, no output queue and no arm link of
them holds one (R408). DEDUCED, safe: assumption 42. -/
def State.groupIdle (s : State) (p : Nat) : Bool :=
  (s.groupTiles p).all (fun t =>
    let e := (s.tile t).exch
    e.ins.all (fun c => c.2.fifo = []) && e.qs.all (fun c => c.2 = []) && (s.armLink t).fromRouter = [])

/-- Whether a router of the port's group still expects result flits in its phase, though no other step of the port could
bring them. -/
def State.expectsMore (s : State) (p n : Nat) (t : TileId) : Bool :=
  let i : InPort := sget {} 4 (s.tile t).exch.ins
  (s.tile t).st = 4 && (s.armLink t).kOut < i.slots
    && !((s.port p).colls.any (fun c => c.1 ≠ n && c.2.state = 2))

/-- COLLECTIVE_STEP_DONE: the step has delivered every result byte; DONE_VID's object is incremented and the descriptor
waits for its next trigger (R408). A phase that expects more flits than the step has brings EXCH_ORDER in that router's tile
(R409). DEDUCED, unsafe: assumption 42. -/
def collStepDone (p n : Nat) (s : State) : State :=
  let d := s.coll p n
  let data := d.op < 3
  let given := if d.op = 3 then d.reduced = 1 && d.value = none
    else d.reduced = d.inFrames && d.kOut = 16 * d.outFrames
  if d.state ≠ 2 || !given then s
  else match if data then ((List.range 6).map (attachRouter p)).find? (s.expectsMore p n) else none with
    | some t => s.streamWrong p n t (2 ^ 8 + 5)
    | none => if data && !s.groupIdle p then s else (s.setColl p n { d with state := 1 }).sendInc d.doneObj 1 (.port p)

/-! ### Descriptors (LP_COLL) -/

/-- Whether a descriptor's fields keep LP_COLL's table, its partition owns both ports of the ring pair, its CID is free
and its objects are mapped; a scalar or sync one binds a root object with LAMP = 1 that no other live descriptor binds
(R361, R413). -/
def State.collOk (s : State) (p n : Nat) (d : Coll) : Bool :=
  match (s.port p).owner with
  | none => false
  | some part =>
    let ss := 3 ≤ d.op
    let f := d.fmt
    let o := (s.translate part d.trigVid).getD 0
    let lives := (List.range 8).flatMap (fun q =>
      ((s.port q).colls.filter (fun c => c.2.live && !(q = p && c.1 = n))).map (fun c => (q, c.2)))
    d.op ≤ 4 && d.policy ≠ 3 && (!d.rescale || d.policy = 2)
      && (if ss then f = 0 else f = 1 || f = 3 || f = 0xD || (f = 0 && d.op = 1))
      && (if ss then d.rings ≠ 0 && d.w2 = 0 else d.rings = 0 && d.w2 ≠ 0)
      && 2 ≤ d.nranks
      && (s.port (pairPort p)).owner = some part
      && (s.translate part d.trigVid).isSome && (d.op = 4 || (s.translate part d.doneVid).isSome)
      && !(lives.any (fun c => c.1 / 2 = p / 2 && c.2.cid = d.cid))
      && (!ss || (rootBase ≤ o && (s.xlateEntry part d.trigVid).getLsbD 30
        && !(lives.any (fun c => 3 ≤ c.2.op && c.2.trigObj = o))))

/-- COLL_TEARDOWN: the descriptor is torn down; what it holds is discarded and counted, and deltas that its object has
collected are applied where they are (R366). -/
def State.tearDown (s : State) (p n : Nat) : State :=
  let d := s.coll p n
  if !d.valid then s
  else
    let s1 := if d.op = 3 && d.state = 2 then s.redFail d.trigObj else s
    let s2 := if d.op = 4 && d.live then
        (let v := s1.obj d.trigObj
         let x := s1.setObj d.trigObj { v with bound := false, dInc := 0, dArr := 0, dCnt := 0, dBars := [], fBars := [] }
         x.applyDelta d.trigObj { inc := v.dInc, arr := v.dArr, cnt := v.dCnt } v.dBars)
      else s1
    (s2.dropHeld p n).setColl p n { w0 := d.w0 &&& 0x7FFFFFFF, w1 := d.w1, w2 := d.w2, w3 := d.w3, w4 := d.w4 }

/-- COLL_DESCRIPTOR_WRITE: a write of word `j` of LP_COLL[n]. Words 0–4 are ignored while VALID is 1, except the write
that clears it; reserved bits read zero (R12); setting VALID makes the descriptor live or ends it at once with FAULT 0x04. -/
def State.writeColl (s : State) (p n j : Nat) (v : BitVec 32) : State :=
  let d := s.coll p n
  if d.valid then (if j = 0 && !v.getLsbD 31 then s.tearDown p n else s)
  else match j with
    | 0 =>
      let d1 := { d with w0 := v &&& 0xFFFC0FFF, state := 0, fault := 0 }
      if !v.getLsbD 31 then s.setColl p n d1
      else if s.collOk p n d1 then
        (let part := (s.port p).owner.getD 0
         let o := (s.translate part d1.trigVid).getD 0
         let s1 := s.setColl p n { d1 with state := 1, trigObj := o, doneObj := (s.translate part d1.doneVid).getD 0 }
         if d1.op = 4 then s1.setObj o { s1.obj o with bound := true } else s1)
      else s.setColl p n { d1 with state := 3, fault := 4 }
    | 1 => s.setColl p n { d with w1 := v &&& 0x007FFFFF }
    | 2 => s.setColl p n { d with w2 := v }
    | 3 => s.setColl p n { d with w3 := v &&& 0x0FFF0FFF }
    | 4 => s.setColl p n { d with w4 := v }
    | _ => s

/-- A stream of deltas reaches an object only while its descriptor is live: an object whose descriptor ended stays
bound until the teardown. -/
def State.portReset (s : State) (p : Nat) : State :=
  (s.port p).colls.foldl (fun t c => t.tearDown p c.1) s

end Sys2Proof.Machine
end

