-- ==== Sys2Proof/Machine/Rebind.lean ====
section
/-!
DEFINITION. Re-keys (R350–R352), re-binds (R433–R436), sync ranges (R431), record limits, interleave commits and staging
windows, and the resets of a partition and of a tile (R503, R504).
-/
namespace Sys2Proof.Machine

/-! ### Re-keys (R351, R476) -/

/-- The update engine as a re-key leaves it: its registers, accumulators, program, queue and generator cleared; its
counters stay. -/
def Engine.cleared (e : Engine) : Engine :=
  { hole := e.hole, late := e.late, satblk := e.satblk, elems := e.elems, faultValid := e.faultValid, faultCode := e.faultCode
    faultGroup := e.faultGroup, wsqF64 := e.wsqF64 }

/-- Steps 2 to 5 of a re-key, with the back-invalidation of every recorded line (R351, R476): a fresh key, under which nothing
has been written, staging zeroed, and the engine and WSQ cleared. The narrow elements that wait are served first. DEDUCED, unsafe:
assumption 31. -/
def State.rekey (s : State) (k : Nat) : State :=
  let s1 := ((s.modStack k (fun x => { x with rekeying := false })).gatherAll k).discardQueue k
  let x := s1.stack k
  { s1.setStack k
      { x with
        keyValid := true, gen := x.gen + 1, rekeys := x.rekeys + 1, cells := [], poison := [], found := [], bad := [], seals := []
        stg := [], stgSide := [], stgErr := [], stgPoison := [], wsq := {}, eng := x.eng.cleared, snooped := [] } with
    bisnp := s1.bisnp ++ x.snooped.map (fun e => (k, e.1, true)) }

/-! ### Ownership -/

/-- The owner of resource `n` of a kind: 0 blocks, 1 stacks, 2 ports. -/
def State.ownerOf (s : State) (kind n : Nat) : Option Nat :=
  if kind = 0 then (List.range 32).find? (fun p => (s.part p).blocks.getLsbD n)
  else if kind = 1 then (s.stack n).owner
  else (s.port n).owner

/-- How many resources of a kind exist. -/
def kindCount (kind : Nat) : Nat := if kind = 0 then 32 else if kind = 1 then 12 else 8

/-- The stacks of a partition as a mask. -/
def State.stackMask (s : State) (p : Nat) : Nat :=
  ((List.range 12).map (fun k => b2n (decide ((s.stack k).owner = some p)) * 2 ^ k)).foldl (· + ·) 0

def State.portMask (s : State) (p : Nat) : Nat :=
  ((List.range 8).map (fun k => b2n (decide ((s.port k).owner = some p)) * 2 ^ k)).foldl (· + ·) 0

/-- The default interleave map of a partition (R324): window 0 over all its stacks. -/
def State.defaultMap (s : State) (p : Nat) : State :=
  let m := s.stackMask p
  let w : Sparse (BitVec 32) := if m = 0 then [] else [(0, BitVec.ofNat 32 (2 ^ 31 + 96 * 2 ^ 24 + m))]
  s.modPart p (fun q => { q with iwin := w, iwinAct := w })

/-- The staging windows of a partition's stacks at their reset value (R436). -/
def State.defaultStage (s : State) (p : Nat) : State :=
  (List.range 12).foldl (fun s' k =>
    if (s'.stack k).owner = some p then s'.modStack k (fun x => { x with stgBase := 0, stgSize := 0x180 }) else s') s

/-! ### Requests (R433, R434) -/

/-- The tasks of a partition that hold a footprint. -/
def State.runsOf (s : State) (p : Nat) : List (Nat × Run) := s.liveRuns.filter (fun c => c.2.part = p)

/-- Whether a copy of a partition is outstanding, in a copy queue or at a base die. -/
def State.copying (s : State) (p : Nat) : Bool :=
  s.tiles.any (fun c => c.2.copies.any (fun d => d.part = p)) ||
    s.arms.any (fun c => (c.2.ins ++ c.2.outs).any (fun a => a.d.part = p))

/-- The tasks that a request has to clear (R434): those on a block of the mask, or every task of the owner of a stack. -/
def State.affected (s : State) (kind p : Nat) (mask : BitVec 32) : List (Nat × Run) :=
  if kind = 0 then (s.runsOf p).filter (fun c => c.2.blocks.any (fun b => mask.getLsbD b))
  else if kind = 1 then s.runsOf p
  else []

/-- Whether none of the old owner's work uses a resource of the mask (R434). DESIGN CHOICE, safe: assumption 21. -/
def State.quiet (s : State) (kind p : Nat) (mask : BitVec 32) : Bool :=
  s.affected kind p mask = [] &&
    (kind ≠ 1 || (!s.copying p && (masked mask).all (fun k => (s.stack k).eng.queue = []))) &&
    (kind ≠ 2 || (masked mask).all (fun n => (s.port n).colls.all (fun c => !c.2.live)))

/-- The old owner's work has cleared: the quiesce point is past, the erase begins, and LP_REVS of the ports are noted (R435). DESIGN
CHOICE, safe: assumption 21. -/
def State.noteQuiet (s : State) : State :=
  let rb := s.rebind
  if !rb.busy || rb.phase = 3 || !s.quiet (bits rb.act.toNat 31 30) rb.owner rb.actMask then s
  else { s with rebind := { rb with
    phase := 3, quietAt := some s.time.toNat, revsAt := (List.range 8).map (fun n => (n, (s.port n).revs)) } }

/-- The blocks that take no part in placement during a request: those of the mask, and all those of the tasks on them (R444,
Table 15-10). -/
def State.blocksOf (s : State) (kind p : Nat) (mask : BitVec 32) : BitVec 32 :=
  if kind ≠ 0 then 0
  else ((s.affected kind p mask).flatMap (fun c => c.2.blocks)).foldl (fun m b => m ||| BitVec.ofNat 32 (2 ^ b)) mask

/-- KILL on the collectives of a port: steps in progress end with FAULT 0x04 (Table 15-2). -/
def State.killPort (s : State) (n : Nat) : State :=
  (s.port n).colls.foldl (fun s' c => if c.2.state = 2 then s'.endColl n c.1 4 else s'.tearDown n c.1) s

/-- KILL (Table 15-2). -/
def State.kill (s : State) (kind p : Nat) (mask : BitVec 32) : State :=
  let s1 := (s.affected kind p mask).foldl (fun s' c => s'.stopTask c.1 3) s
  if kind = 1 then (masked mask).foldl (fun s' k => s'.discardQueue k) s1
  else if kind = 2 then (masked mask).foldl State.killPort s1
  else s1

/-- The contexts of a partition in HBM: address and length. -/
def State.contexts (s : State) (p : Nat) : List (Nat × Nat) :=
  (s.graphs.filter (fun g => g.part = p)).flatMap (fun g => g.tasks.filterMap (fun t =>
    t.saved.map (fun a => (a, ctxBytes (64 * t.w * t.h)))))

/-- The lowest place in a context area where `n` bytes lie clear of `used`. -/
def ctxPlace (base size n : Nat) (used : List (Nat × Nat)) : Option Nat :=
  let l := (base :: used.map (fun u => (u.1 + u.2 + 65535) / 65536 * 65536)).filter (fun a =>
    base ≤ a && a + n ≤ base + size && used.all (fun u => !rangesMeet (a, n) u))
  match l with
  | [] => none
  | a :: r => some (r.foldl min a)

/-- PREEMPT: the tasks with PREEMPT_OK whose contexts fit in the area, each with its place, and whether one did not fit
(R453). -/
def savePlan (base size : Nat) : List (Nat × Run) → List (Nat × Nat) → List (Nat × Nat) × Bool
  | [], _ => ([], false)
  | c :: r, used =>
    match ctxPlace base size (ctxBytes c.2.size) used with
    | none => ((savePlan base size r used).1, true)
    | some a =>
      let q := savePlan base size r ((a, ctxBytes c.2.size) :: used)
      ((c.1, a) :: q.1, q.2)

/-- The tasks that a PREEMPT request saves. -/
def State.planSaves (s : State) (p : Nat) (mask : BitVec 32) : List (Nat × Nat) × Bool :=
  let q := s.part p
  savePlan (65536 * q.ctxAddr.toNat) (65536 * q.ctxSize.toNat)
    ((s.affected 0 p mask).filter (fun c => match (s.graph c.2.graph).bind (fun g => g.tasks[c.2.index]?) with
      | some t => t.preemptOk
      | none => false)) (s.contexts p)

/-- Whether a request breaks R433 or Table 15-2. -/
def State.rebindInvalid (s : State) (kind mode dst : Nat) (mask : BitVec 32) : Bool :=
  let l := masked mask
  mask = 0 || kind = 3 || mode = 3 || (32 ≤ dst && dst ≠ 63) || l.any (fun n => kindCount kind ≤ n) ||
    l.any (fun n => s.ownerOf kind n ≠ s.ownerOf kind (l.headD 0)) || (kind = 1 && mode = 1)

/-- A write of PART_REBIND (R433, R434): refused while BUSY or when it breaks R433; done at once when the resources
already belong to TO; otherwise the request starts, and MODE decides what happens to the old owner's work. -/
def State.rebindRequest (s : State) (v : BitVec 32) : State :=
  let kind := bits v.toNat 31 30
  let mode := bits v.toNat 29 28
  let dst := bits v.toNat 27 22
  let rb := s.rebind
  let first := (masked rb.mask).headD 0
  if rb.busy then { s with rebind := { rb with result := 2 } }
  else if s.rebindInvalid kind mode dst rb.mask then { s with rebind := { rb with reg := v, result := 3 } }
  else
    let owner := s.ownerOf kind first
    if owner = (if dst = 63 then none else some dst) then
      ({ s with rebind := { rb with reg := v, result := 1, phase := 4, us := 0 } }).msi 0 3
    else
      let p := owner.getD 0xFF
      let plan := if kind = 0 && mode = 1 then s.planSaves p rb.mask else ([], false)
      let s1 : State := { s with
        rebind := { rb with
          reg := v, busy := true, phase := 1, result := if plan.2 then 4 else 0, us := 0, act := v, actMask := rb.mask
          owner := p, saving := plan.1, involved := s.blocksOf kind p rb.mask, quietAt := none, revsAt := [] } }
      (if mode = 2 then s1.kill kind p rb.mask else s1).noteQuiet

/-- REBIND_WAIT. -/
def rebindWait (kind : BitVec 2) (dst : BitVec 6) (s : State) : State :=
  s.rebindRequest (BitVec.ofNat 32 (kind.toNat * 2 ^ 30 + dst.toNat * 2 ^ 22))

/-- REBIND_PREEMPT. -/
def rebindPreempt (kind : BitVec 2) (dst : BitVec 6) (s : State) : State :=
  s.rebindRequest (BitVec.ofNat 32 (kind.toNat * 2 ^ 30 + 2 ^ 28 + dst.toNat * 2 ^ 22))

/-- REBIND_KILL. -/
def rebindKill (kind : BitVec 2) (dst : BitVec 6) (s : State) : State :=
  s.rebindRequest (BitVec.ofNat 32 (kind.toNat * 2 ^ 30 + 2 * 2 ^ 28 + dst.toNat * 2 ^ 22))

/-! ### Erase and hand-over (R435, R436, R226, R267) -/

/-- A block is erased and goes to its new owner: shelves zeroed, tile state at its start values, and the objects at its
node zeroed; its tiles scrub in the mode of the owner that they then have (R225). -/
def State.giveBlock (dst : Option Nat) (s : State) (b : Nat) : State :=
  let s1 := s.wakeBlocks (BitVec.ofNat 32 (2 ^ b))
  let s2 := (blockTiles b).foldl (fun s' t => s'.modTile t (fun x => { x.start.zeroShelves (s.readBack t) with st := 0 })) s1
  let s3 : State := { s2 with objs := sdelRange (512 * b) 512 s2.objs }
  (List.range 32).foldl (fun s' p => s'.modPart p (fun q =>
    { q with blocks := if dst = some p then q.blocks ||| BitVec.ofNat 32 (2 ^ b) else q.blocks &&& ~~~(BitVec.ofNat 32 (2 ^ b)) })) s3

/-- A stack is re-keyed and goes to its new owner. -/
def State.giveStack (dst : Option Nat) (s : State) (k : Nat) : State :=
  let s1 := match (s.stack k).owner with
    | some p => s.closeNow (fun w => w.part.toNat = p && s.winOnStack w k)
    | none => s
  (s1.rekey k).modStack k (fun x => { x with owner := dst })

/-- A port's descriptors, transit buffer (with the frames it would send again) and Defer store are cleared, and it goes to its new owner. -/
def State.givePort (dst : Option Nat) (s : State) (n : Nat) : State :=
  let s1 := (s.port n).colls.foldl (fun s' c => s'.tearDown n c.1) s
  s1.modPort n (fun x => { x with colls := [], transit := [], redo := [], owner := dst })

/-- Whether a port has met a revolution boundary since its erase began; at once where no marker comes (R435). DESIGN CHOICE, safe:
assumption 21. -/
def State.boundaryMet (s : State) (n : Nat) : Bool :=
  let x := s.port n
  (x.link ≠ 2 && x.link ≠ 3) || x.lastEmit.isNone || s.rebind.revsAt.any (fun c => c.1 = n && c.2 ≠ x.revs)

/-- The erase of a stack begins: its windows close (R530), and its re-key holds new accesses (R351). -/
def State.eraseStack (s : State) (k : Nat) : State :=
  let s1 := match (s.stack k).owner with
    | some p => s.closeNow (fun w => w.part.toNat = p && s.winOnStack w k)
    | none => s
  s1.modStack k (fun x => { x with rekeying := true })

/-- Whether a re-bind in its erase re-keys a stack. -/
def Rebind.erases (rb : Rebind) (k : Nat) : Bool :=
  rb.busy && rb.phase = 3 && bits rb.act.toNat 31 30 = 1 && rb.actMask.getLsbD k

/-- REBIND_HANDOVER of the kind of resource that the request in progress names: the old owner's work has cleared, and the
resources are erased and handed over, ports at their next revolution boundary. Stacks take two commands: the first begins their re-key,
the second ends it. DEDUCED, safe: assumption 31. PART_REBIND_TIME gives the time from the quiesce
point (R435, R436). -/
def rebindHandover (what : BitVec 2) (s0 : State) : State :=
  let s := s0.noteQuiet
  let rb := s.rebind
  let us := BitVec.ofNat 32 ((s.time.toNat - rb.quietAt.getD s.time.toNat) / 1000)
  let kind := bits rb.act.toNat 31 30
  let dst := bits rb.act.toNat 27 22
  let new : Option Nat := if dst = 63 then none else some dst
  if kind ≠ what.toNat then s0
  else if !rb.busy || rb.phase ≠ 3 || (kind = 2 && !(masked rb.actMask).all s.boundaryMet) then s
  else if kind = 1 && !(masked rb.actMask).all (fun k => (s.stack k).rekeying) then (masked rb.actMask).foldl State.eraseStack s
  else
    let l := masked rb.actMask
    let s1 := l.foldl (fun s' n =>
      if kind = 0 then s'.giveBlock new n else if kind = 1 then s'.giveStack new n else s'.givePort new n) s
    let who := (if rb.owner < 32 then [rb.owner] else []) ++ new.toList
    let s2 := if kind = 1 then who.foldl (fun s' p => (s'.defaultMap p).defaultStage p) s1 else s1
    let s3 : State := { (if kind = 0 then s2.readBackRecords rb.actMask else s2) with
      rebind := { rb with busy := false, phase := 4, result := if rb.result = 4 then 4 else 1, us := us, saving := [], involved := 0, quietAt := none
                          revsAt := [] } }
    ((who.foldl (fun s' p => s'.setFlag p 4) s3).logEvent 3 (new.getD 0xFF)).msi 0 3

/-! ### PART_SYNC, PART_RECMAX, HBM_IMAP, HBM_STG_WIN -/

/-- Whether two index ranges (base, count) share an index. -/
def State.syncOverlap (s : State) (p base count : Nat) : Bool :=
  (List.range 32).any (fun q => q ≠ p && rangesMeet (base, count) ((s.part q).syncBase.toNat, (s.part q).syncCount.toNat))

/-- A write of PART_SYNC[p] (R431): applied while the partition runs and places nothing and where the range overlaps no
other; objects that enter the range are zeroed. -/
def partSyncWrite (p : Nat) (v : BitVec 32) (s : State) : State :=
  let base := bits v.toNat 30 16
  let count := bits v.toNat 15 0
  let q := s.part p
  let ok : Bool := (base = 0 && count = 0) || (16384 ≤ base && count ≤ 16384 && base + count ≤ 32768)
  if 32 ≤ p then s
  else if s.runsOf p ≠ [] || s.syncOverlap p base count || !ok then { s with rebind := { s.rebind with result := 3 } }
  else
    let entering (o : Nat) : Bool :=
      base ≤ o && o < base + count && !(q.syncBase.toNat ≤ o && o < q.syncBase.toNat + q.syncCount.toNat)
    { s.modPart p (fun x => { x with syncBase := BitVec.ofNat 15 base, syncCount := BitVec.ofNat 16 count }) with
      objs := s.objs.filter (fun c => !entering c.1) }

/-- A write of PART_RECMAX[p] (R440); a count above 262,144 is ignored. -/
def partRecmaxWrite (p : Nat) (v : BitVec 32) (s : State) : State :=
  let n := v.toNat % 2 ^ 19
  if 32 ≤ p || 262144 < n then s else s.modPart p (fun q => { q with recMax := BitVec.ofNat 19 n })

/-- The sizes of the windows that hold a stack, added up. -/
def stackGib (l : List (BitVec 32)) (k : Nat) : Nat :=
  ((l.filter (fun w => w.getLsbD 31 && w.getLsbD k)).map (fun w => bits w.toNat 30 24)).foldl (· + ·) 0

/-- Whether pending windows are invalid (R325). -/
def State.mapInvalid (s : State) (p : Nat) (l : List (BitVec 32)) : Bool :=
  let valid := l.filter (fun w => w.getLsbD 31)
  valid ≠ l.take valid.length ||
    valid.any (fun w => w.toNat % 4096 = 0 || bits w.toNat 30 24 = 0 ||
      (List.range 12).any (fun k => w.getLsbD k && (s.stack k).owner ≠ some p)) ||
    (List.range 12).any (fun k => 96 < stackGib l k)

/-- HBM_IMAP.COMMIT of partition `p` (R325): 2 BUSY, 3 INVALID, 1 committed. -/
def hbmImapCommit (p : Nat) (s : State) : State :=
  let q := s.part p
  let l := (List.range 8).map (fun i => sget 0 i q.iwin)
  if 32 ≤ p then s
  else if s.runsOf p ≠ [] || s.copying p then s.modPart p (fun x => { x with imapResult := 2 })
  else if s.mapInvalid p l then s.modPart p (fun x => { x with imapResult := 3 })
  else s.modPart p (fun x => { x with iwinAct := x.iwin, imapResult := 1 })

/-- A write of HBM_STG_WIN of stack `k` (R326). -/
def hbmStgWinWrite (k : Nat) (v : BitVec 32) (s : State) : State :=
  let idle : Bool := match (s.stack k).owner with
    | some p => s.runsOf p = []
    | none => true
  if 12 ≤ k || !idle || 512 < v.toNat / 65536 + v.toNat % 65536 then s
  else s.modStack k (fun x => { x with stgBase := BitVec.ofNat 16 (v.toNat / 65536), stgSize := BitVec.ofNat 16 v.toNat })

/-! ### Resets (R503, R504, R553) -/

/-- The key of the _LO half that accessor `who` holds: pair 0 SB_SUBQ_BASE, 1 SB_CPLQ_BASE, 2 SB_NBL_BASE, 3 WIN_BASE, 4 EL_RD, of
the partition or window `n` (R495). DESIGN CHOICE, unsafe: assumption 28. -/
def loKeyOf (who pair n : Nat) : Nat := (8 * who + pair) * 4096 + n

/-- The held _LO halves of a partition's SIDEBOARD pairs go, whoever holds them (R503). -/
def State.dropSbLos (s : State) (p : Nat) : State :=
  { s with los := (List.range 34).foldl (fun m w => (List.range 3).foldl (fun m' j => sput none (loKeyOf w j p) none m') m) s.los }

/-- The partition reset of `p` (R503, Table 19-7): its work stops as under KILL, its graphs, held records and SIDEBOARD
registers go, its tiles return to their start values, and the entries of Table 19-7's column return to their defaults. -/
def State.resetPart (s : State) (p : Nat) : State :=
  let s0 := s.closeNow (fun w => w.part.toNat = p)
  let s1 := (s0.runsOf p).foldl (fun s' c => s'.stopTask c.1 3) s0
  let s2 := (masked (BitVec.ofNat 32 (s.stackMask p))).foldl (fun s' k =>
    let y := s'.discardQueue k
    y.modStack k (fun x => { x with eng := { x.eng with halted := false } })) s1
  let s3 := (masked (BitVec.ofNat 32 (s.portMask p))).foldl (fun s' n =>
    (s'.killPort n).modPort n (fun x => { x with colls := [] })) s2
  let s4 := (masked (s.part p).blocks).foldl (fun s' b => (blockTiles b).foldl (fun s'' t => s''.modTile t Tile.start) s') s3
  { (s4.modPart p (fun q => { q with sb := {} })).dropSbLos p with
    graphs := s4.graphs.filter (fun g => g.part ≠ p)
    frVf := sdel p s4.frVf
    flags := sdelRange (32 * p) 32 s4.flags }

/-- Whether a request of the RESET/START block finds another in progress, or no firmware to serve it. DESIGN CHOICE, safe:
assumption 21. -/
def State.restartBusy (s : State) : Bool := s.start.kind ≠ 0 || s.start.lmcWait || s.start.recovery || !s.pins.power || s.pins.snuffed

/-- PARTITION_RESET: RST_PART with GO and its key (R502, R503). -/
def partitionReset (p : BitVec 5) (s : State) : State :=
  if s.restartBusy then { s with start := { s.start with partResult := 2 } }
  else
    let s1 := s.resetPart p.toNat
    { s1 with start := { s1.start with part := p, partResult := 1 } }

/-- FUNCTION_LEVEL_RESET of virtual function p + 1: the partition reset, and the function's own settings per PCIe FLR: ATS
disabled and its translations dropped (R503, Table 19-7). -/
def functionLevelReset (p : BitVec 5) (s : State) : State :=
  let s1 := s.resetPart p.toNat
  { s1 with
    cxl := { s1.cxl with
      ats := sdel (p.toNat + 1) s1.cxl.ats, atc := s1.cxl.atc.filter (fun e => e.1 ≠ p.toNat + 1) } }

/-- TILE_RESET: RST_TILE with GO and its key (R502, R504). -/
def tileReset (t : TileId) (s : State) : State :=
  if s.restartBusy then { s with start := { s.start with tileResult := 2 } }
  else if (s.tile t).st ≠ 0 then { s with start := { s.start with tile := t, tileResult := 2 } }
  else
    let s1 := s.modTile t Tile.start
    { s1 with start := { s1.start with tile := t, tileResult := 1 } }

end Sys2Proof.Machine
end

