-- ==== Sys2Proof/Machine/HostMem.lean ====
section
/-!
DEFINITION. HBM as the host and the controller see it: refresh (R344, R346), re-keys by register (R351), host reads and
writes over CXL.mem (R471–R475), address translation (R466), and host streams (R477–R482).
-/
namespace Sys2Proof.Machine

/-! ### Refresh -/

/-- Nanoseconds since the start of the refresh period in progress, whose phase REF_PHASE names (R346). -/
def Stack.refreshPos (x : Stack) (t : Nat) : Nat :=
  let per := 1000 * bits x.ctlAct.toNat 15 8
  (t + per - (1000 * bits x.ctlAct.toNat 7 0) % per) % per

/-- The length of a refresh window in ns: 4 % of the period, 7 % above 85 °C. -/
def Stack.refreshLen (x : Stack) : Nat := (if x.hot then 70 else 40) * bits x.ctlAct.toNat 15 8

def Stack.windowed (x : Stack) : Bool := bits x.ctlAct.toNat 31 30 = 1

/-- REFRESH_BOUNDARY: the pending HBM_CTL takes effect; none falls inside a refresh window. -/
def refreshBoundary (k : Nat) (s : State) : State :=
  if 12 ≤ k || (s.stack k).window then s else s.modStack k (fun x => { x with ctlAct := x.ctl })

/-- REFRESH_WINDOW: under windowed refresh a window starts at REF_PHASE of the period, and ends after its length, which is a
refresh boundary (R346). -/
def refreshWindow (k : Nat) (s : State) : State :=
  let x := s.stack k
  let pos := x.refreshPos s.time.toNat
  if 12 ≤ k then s
  else if x.window then
    (if x.refreshLen ≤ pos then s.modStack k (fun x => { x with window := false, ctlAct := x.ctl }) else s)
  else if x.windowed && pos < x.refreshLen then s.modStack k (fun x => { x with window := true })
  else s

/-- HBM_HOT: the hottest die of a stack has a new temperature, which decides the refresh rate (R344). -/
def hbmHot (k : Nat) (temp : BitVec 8) (s : State) : State :=
  if 12 ≤ k then s else s.modStack k (fun x => { x with temp := temp, hot := decide (85 < temp.toNat) })

/-- A write of HBM_KEYCTL.REKEY starts a re-key: new accesses hold (step 1 of R351). -/
def startRekey (k : Nat) (s : State) : State := if 12 ≤ k then s else s.modStack k (fun x => { x with rekeying := true })

/-- REKEY: the accesses in flight have completed, and the stack replaces its key, zeroes its staging SRAM and clears its engine and
its WSQ; the accesses that it held go on (steps 2 to 5 of R351). -/
def rekeyStack (k : Nat) (s : State) : State :=
  if 12 ≤ k || !(s.stack k).rekeying || s.rebind.erases k then s else s.rekey k

/-- UE_DOORBELL: the engine takes the job, which is a wake event (R371, R540). -/
def ueDoorbell (k : Nat) (s : State) : State := (s.modEngine k Engine.ring).hostBusy.wakeModule

/-! ### CXL.mem (R471–R475) -/

def Cxl.slot (c : Cxl) (i : Nat) : HdmSlot := sget {} i c.hdm
def State.setSlot (s : State) (i : Nat) (x : HdmSlot) : State := { s with cxl := { s.cxl with hdm := sput {} i x s.cxl.hdm } }

/-- The DPAs that a decoder uses: those it skips and this module's share of its range (R472). PRESUMED, unsafe: assumption 22. -/
def hdmSpan (d : Hdm) : Nat := d.skip.toNat + d.size.toNat / d.ways

/-- The first DPA of decoder `i`: each decoder goes on where the one below it ends (R472). PRESUMED, unsafe: assumption 22. -/
def Cxl.dpaBase (c : Cxl) (i : Nat) : Nat :=
  ((List.range i).map (fun j => hdmSpan (c.slot j).prog)).foldl (· + ·) 0 + (c.slot i).prog.skip.toNat

/-- The DPA that decoder `i` gives a host address (R472): the interleave takes the module's units in turn. -/
def Cxl.dpaFor (c : Cxl) (i a : Nat) : Option Nat :=
  let d := (c.slot i).prog
  let off := a - d.base.toNat
  if (c.slot i).on && d.base.toNat ≤ a && a < d.base.toNat + d.size.toNat then
    some (c.dpaBase i + off / (d.gran * d.ways) * d.gran + off % d.gran)
  else none

/-- Whether the program of decoder `i` may commit: its size is not 0, the decoders below it have committed and end at or below its
base, and its DPAs lie in the 1,152 GiB (R471, R472). PRESUMED, unsafe: assumption 22. -/
def Cxl.mayCommit (c : Cxl) (i : Nat) : Bool :=
  let d := (c.slot i).prog
  d.size ≠ 0 && d.base.toNat + d.size.toNat ≤ 2 ^ 64 && c.dpaBase i + d.size.toNat / d.ways ≤ 1152 * 2 ^ 30 &&
    (List.range i).all (fun j => (c.slot j).on && (c.slot j).prog.base.toNat + (c.slot j).prog.size.toNat ≤ d.base.toNat)

/-- The program of a decoder is written; one that has committed keeps its own (R472). -/
def writeHdm (i : Nat) (d : Hdm) (s : State) : State :=
  if (s.cxl.slot i).on then s else s.setSlot i { s.cxl.slot i with prog := d, failed := false }

/-- COMMIT of a decoder: it commits, or shows that it has not; clearing COMMIT takes it back, but not while it is locked or one
above it has committed (R472). PRESUMED, unsafe: assumption 22. -/
def commitHdm (i : Nat) (on : Bool) (s : State) : State :=
  let x := s.cxl.slot i
  if on then
    if x.on then s else if s.cxl.mayCommit i then s.setSlot i { x with on := true, failed := false }
    else s.setSlot i { x with failed := true }
  else if x.on && (x.prog.lock || (List.range 4).any (fun j => i < j && (s.cxl.slot j).on)) then s
  else s.setSlot i { x with on := false, failed := false }

/-- The stack and unit of a host address; none is an unsupported request (R471, R472). -/
def State.hdmUnit (s : State) (a : Nat) : Option (Nat × Nat) :=
  match (List.range 4).findSome? (fun i => s.cxl.dpaFor i a) with
  | none => none
  | some d =>
    let k := d / (96 * 2 ^ 30)
    if k < 12 then some (k, d % (96 * 2 ^ 30) / 64) else none

/-- The snoop filter records a line; a full filter first evicts an entry by BISnpInv, which KV_DV_BIFULL counts (R475). -/
def State.recordLine (s : State) (k u : Nat) (modified : Bool) : State :=
  let put (s' : State) : State := s'.modStack k (fun x => { x with snooped := x.snooped ++ [(u, modified)] })
  let s1 := s.modStack k (fun x => { x with snooped := x.snooped.filter (fun e => e.1 ≠ u) })
  let l := (s1.stack k).snooped
  if l.length < 32768 then put s1
  else
    let s2 : State := { s1 with undef := s1.undef + 1, biFull := satInc s1.biFull }
    put (s2.bisnpLine k (l.getD (Config.snoopVictim k s1.undef % l.length) (0, false)) true)

/-- An access to a stack that no partition owns is counted (R473). -/
def State.countUnowned (s : State) : State := { s with cxl := { s.cxl with unowned := satInc s.cxl.unowned } }

/-- Whether CXL.mem is served now: the link is up and its IDE stream not insecure (R483), and the stack that the line lies on is not
in Banked (R540) and not being re-keyed (R351). -/
def State.memServed (s : State) (a : Nat) : Bool :=
  s.cxl.ready && !s.cxl.cmFailed && !s.dim.banked && (match s.hdmUnit a with
    | some (k, _) => !(s.stack k).rekeying
    | none => true)

/-- A host access that is not served yet: over a link that is up it has arrived all the same, and it wakes the module from Banked (R538,
R540). -/
def State.memArrives (s : State) : State := if s.cxl.ready && !s.cxl.cmFailed then s.hostBusy.wakeModule else s

/-- What the read of a sound unit meets: 1 a correctable error, 2 an uncorrectable one (R347). DESIGN CHOICE, safe: assumption
29. -/
def Stack.meet (x : Stack) (u : Nat) (met : BitVec 2) : Stack :=
  if (met = 1 || met = 2) && sget 0 u x.bad = 0 && !sget false u x.poison then { x with bad := sput 0 u met.toNat x.bad } else x

/-- HOST_MEM_READ of the 64-byte line at host address `a`: the answer is 1 for an unsupported request, else 0, a poison mark
and, without poison, the eight words. `cache` says how the host may keep the line: 0 not, 1 clean, 2 modified; `met` what the
read meets. An access that is not served now has no other effect than to arrive. DESIGN CHOICE, safe: assumption 29. -/
def hostMemRead (a : BitVec 64) (cache met : BitVec 2) (s : State) : State :=
  if !s.memServed a.toNat then s.memArrives
  else match s.hdmUnit a.toNat with
  | none => { s.hostBusy with reply := [1] }
  | some (k, u) =>
    if (s.stack k).owner = none then { s.hostBusy.countUnowned with reply := [0, 1] }
    else
      let s0 := (s.hostBusy.gatherUnits k [u]).modStack k (fun x => x.meet u met)
      let s1 := s0.eccUnit k u
      let s2 := s1.modStack k (fun x => { x with rd := x.rd + 1 })
      let s3 := if cache = 0 then s2 else s2.recordLine k u (cache = 2)
      let x := s3.stack k
      { s3 with reply := if x.anyPoison [u] then [0, 1]
          else [0, 0] ++ (List.range 8).map (fun i => BitVec.ofNat 64 (leNat (x.bytes k (64 * u + 8 * i) 8))) }

/-- HOST_MEM_WRITE of a 64-byte line with its byte mask; `keep` says that the host still caches the line afterwards
(R473, R474). The host's own write needs no back-invalidation. -/
def hostMemWrite (a : BitVec 64) (data : BitVec 512) (mask : BitVec 64) (keep : Bool) (s : State) : State :=
  if !s.memServed a.toNat then s.memArrives
  else match s.hdmUnit a.toNat with
  | none => { s.hostBusy with reply := [1] }
  | some (k, u) =>
    if (s.stack k).owner = none then { s.hostBusy.countUnowned with reply := [0] }
    else
      let b := ((List.range 64).filter (fun i => mask.getLsbD i)).map (fun i => (64 * u + i, data.extractLsb' (8 * i) 8))
      let s1 := (s.hostBusy.gatherUnits k [u]).modStack k (fun x => { x with snooped := x.snooped.filter (fun e => e.1 ≠ u) })
      let s2 := s1.writeBytes k b []
      { (if keep then s2.recordLine k u false else s2) with reply := [0] }

/-! ### Address translation (R466) -/

/-- ATS_INVALIDATION of a page of a function. -/
def atsInvalidation (fn : BitVec 6) (page : BitVec 52) (s : State) : State :=
  { s with cxl := { s.cxl with atc := s.cxl.atc.filter (fun e => e.1 ≠ fn.toNat || e.2.1 ≠ page.toNat) } }

/-! ### Host streams (R479–R482) -/

/-- A host-stream flit whose translation or completion fails: counted, and TILE_ADDR in the router's tile (R467, R482). -/
def State.streamFail (s : State) (t : TileId) (k fn a : Nat) (data : Option (List Byte)) : State :=
  (s.hostFail fn a data).raise t tileADDR false (s.tile t).exchPc (64 * k % 2 ^ 31 + 2 ^ 31)

/-- The next inbound flit: host memory holds `data` at IN_ADDR + 64k. `how`: 0 read well, 1 poison, 2 failed. -/
def streamIn (t : TileId) (q : HostStream) (data : BitVec 512) (how : BitVec 2) (s : State) : State :=
  let x := s.tile t
  let i := sget {} 4 x.exch.ins
  let a := s.armLink t
  let ord := a.kOut % 256
  if x.st ≠ 4 || i.slots ≤ a.kOut || 8 ≤ i.fifo.length then s
  else if q.inLen ≤ 64 * q.kIn then s.raise t exchORDER false x.exchPc (ord * 2 ^ 24 + 2 ^ 8 + 5)
  else
    let fn := (s.runOf t).part + 1
    let at0 := q.inAddr.toNat + 64 * q.kIn
    let s0 := s.hostReq fn at0 none
    if 2 ≤ how || s.hostBlocked fn at0 then s.streamFail t q.kIn fn at0 none
    else if how = 1 then s0.raise t tileUE false x.exchPc (64 * q.kIn % 2 ^ 31 + 2 ^ 31)
    else
      let s1 := s0.modTile t (fun y =>
        { y with exch := { y.exch with ins := sput {} 4 { i with fifo := i.fifo ++ [⟨data, BitVec.ofNat 8 ord, 0⟩] } y.exch.ins } })
      (s1.setArmLink t { a with kOut := a.kOut + 1 }).modRun x.task (fun r =>
        { r with streams := sins t.toNat { q with kIn := q.kIn + 1 } r.streams })

/-- The next outbound flit: its ORD is checked and its bytes go to OUT_ADDR + 64k; a flit that fails is not sent, and a stopped tile
sends no more (R482). -/
def streamOut (t : TileId) (q : HostStream) (how : BitVec 2) (s : State) : State :=
  let x := s.tile t
  let a := s.armLink t
  match a.fromRouter with
  | [] => s
  | f :: more =>
    let ord := f.ord.toNat
    let exp := a.kIn % 256
    if !x.working then s
    else if q.outLen ≤ 64 * q.kOut then s.raise t exchORDER false x.exchPc (ord * 2 ^ 24 + 2 ^ 8 + 5)
    else if ord ≠ exp then s.raise t exchORDER false x.exchPc (ord * 2 ^ 24 + exp * 2 ^ 16 + 5)
    else
      let fn := (s.runOf t).part + 1
      let addr := q.outAddr.toNat + 64 * q.kOut
      if how ≠ 0 || s.hostBlocked fn addr then
        (s.setArmLink t { a with fromRouter := more }).streamFail t q.kOut fn addr (some (flitBytes f.data))
      else
        let s1 := s.hostReq fn addr (some (flitBytes f.data))
        (s1.setArmLink t { a with fromRouter := more, kIn := a.kIn + 1 }).modRun x.task (fun r =>
          { r with streams := sins t.toNat { q with kOut := q.kOut + 1 } r.streams })

/-- HOST_STREAM_FLIT at a CXL attach router: the next flit into the tiles, or out of them. The stream holds while the host
link is down (R487). -/
def hostStreamFlit (t : TileId) (out : Bool) (data : BitVec 512) (how : BitVec 2) (s : State) : State :=
  if !s.cxl.ready then s
  else match (s.runOf t).streams.find? (fun c => c.1 = t.toNat) with
  | none => s
  | some c => if out then streamOut t c.2 how s else streamIn t c.2 data how s

end Sys2Proof.Machine
end

