-- ==== Sys2Proof/Machine/Power.lean ====
section
/-!
DEFINITION. The Dimmer and its power states, starting and recovery, the firmware images, the settings that each reset and
power state keeps, and the pins and the sideband of the board (Chapters 19 and 20).
-/
namespace Sys2Proof.Machine

/-! ### The CXL link (R461, R462, R487) -/

/-- The widest supported width among the usable lanes; none below x4 (R462). -/
def linkWidth (lanes : BitVec 6) : BitVec 6 := if 16 ≤ lanes then 16 else if 8 ≤ lanes then 8 else if 4 ≤ lanes then 4 else 0

/-- The highest supported rate at or below what the host offers. -/
def linkRate (rate : BitVec 4) : BitVec 4 := if 7 ≤ rate then 7 else rate

/-- The link goes down: its encrypted streams end with it. -/
def State.dropLink (s : State) : State :=
  { s with cxl := { s.cxl with
    rate := 0, width := 0, reversed := false, ready := false, ideIo := 0, ideCm := false, skid := false, cmFailed := false
    ioFailed := 0 } }

/-- The link trains; without 256-byte flits, or in recovery, with CXL.io only. It needs REFCLK, and PERST_N deasserted. A link that
does not reach x4, or finds no common rate, is down (R462). -/
def State.trainLink (s : State) (o : LinkObs) : State :=
  let w := linkWidth o.width
  if !s.pins.refclk || s.pins.perst || !s.pins.power || s.pins.snuffed then s
  else if w = 0 || o.rate < 5 then s.dropLink
  else { s with cxl := { s.cxl with
    rate := linkRate o.rate, width := w, reversed := o.reversed, ready := o.flit && !s.start.recovery } }

/-- The CXL configuration returns to its reset values (Table 19-7). -/
def State.resetCxl (s : State) : State := { s with cxl := {} }

/-! ### Stopping all work (R547) -/

/-- Every task is gone: stopped as KILL does, without a completion record. -/
def State.dropTasks (s : State) : State :=
  let s1 := s.liveRuns.foldl (fun s' c => s'.releaseRun c.1) s
  { s1 with
    graphs := [], msgs := [], arms := []
    parts := smap {} (fun q => { q with sb := { q.sb with held := [], stall := [] } }) s1.parts }

/-- Every descriptor of a port is cleared. -/
def State.clearColls (s : State) (p : Nat) : State :=
  ((s.port p).colls.foldl (fun s' c => s'.tearDown p c.1) s).modPort p (fun x => { x with colls := [] })

/-- The LOSS frame that a module which stops sends on a ring it belongs to, with a rank or as a lantern, without splicing, so that peers
end their steps. -/
def State.sendLoss (s : State) (p : Nat) : State :=
  let x := s.port p
  if x.link = 2 || x.link = 3 then s.putCtl p (lossFrameOf x p (ringPos x.ringAct) s.time.toNat) else s

/-- What a warm start of a running module does before step 1 (R547). -/
def State.stopAll (s : State) : State :=
  let s1 := (List.range 12).foldl State.discardQueue s.dropTasks
  (List.range 8).foldl State.sendLoss ((List.range 8).foldl State.clearColls s1)

/-! ### Table 19-7 -/

/-- Every window CLOSED with its generation advanced. -/
def State.retireWindows (s : State) : State :=
  { s with
    winUnits := []
    wins := (List.range 4096).filterMap (fun n => let w := (s.win n).closed; if w = ({} : Win) then none else some (n, w)) }

/-- A tile at its start values, held by no task, with its counters at their reset values. -/
def Tile.restart (x : Tile) : Tile :=
  let y := x.start
  let z : Tile :=
    { y with
      st := 0, task := 0, rel := 0, foot := 0, pc := 0, sstep := 0, freezeFeed := 0, freezeDrain := 0, shelfCe := 0, shelfUe := 0
      scrubPass := 0, conflicts := [], msgTxNak := 0, sends := [], nakCount := 0, copies := [], since := 0, pilotAt := none, lost := 0
      modeHeld := none, wdogHeld := none, sentReg := {} }
  (List.range 8).foldl (fun t n => t.setRing n { t.ring n with nak := 0 }) z

/-- The update engine after a restart: queues and accumulators cleared, programs kept, counters at their reset values. -/
def Engine.restart (e : Engine) (keep : Bool) : Engine :=
  { prog := if keep then e.prog else [], progAddr := e.progAddr
    faultValid := e.faultValid, faultCode := e.faultCode, faultGroup := e.faultGroup, jobRegs := e.jobRegs, wsqF64 := e.wsqF64 }

/-- A stack after a restart. -/
def Stack.restart (x : Stack) (keep : Bool) : Stack :=
  { x with eng := x.eng.restart keep, wsq := {}, ce := 0, ue := 0, copyPoison := 0, g16aRange := 0, rd := 0, wr := 0, narrow := 0, ceWindow := 0
           ceAt := none
           narrowQ := [], narrowOut := [] }

/-- A port after a restart: descriptors gone, counters at their reset values; ring, map and LP_CTL kept. -/
def Port.restart (x : Port) : Port :=
  { x with colls := [], replay := 0, ttlDrop := 0, holes := 0, lates := 0, discard := 0, markLost := 0, fecCe := 0, revs := 0, data := 0 }

/-- A partition after a restart. -/
def Part.restart (q : Part) : Part := { q with sb := {}, msgStuck := 0, syncErr := 0 }

/-- The registers of the module as the PERST_N and warm-restart columns leave them, and as the Snuffed column does for `snuffed`,
but for the window table (R553). DESIGN CHOICE, unsafe: assumption 26. -/
def State.settle (s1 : State) (snuffed : Bool) : State :=
  { s1 with
    beatsW := 0, beatsE := 0
    tiles := smap {} Tile.restart s1.tiles
    objs := if snuffed then [] else s1.objs
    incs := if snuffed then [] else s1.incs
    parts := smap {} Part.restart s1.parts
    hbm := smap {} (fun x => x.restart !snuffed) s1.hbm
    ports := smap {} Port.restart s1.ports
    reds := []
    integ := { sentLast := s1.integ.sentLast }
    biFull := 0
    badAccess := []
    frVf := []
    flags := []
    dim := { s1.dim with
      throttle := 0, energy := 0, seamHold := 0, seamW := 0, seamE := 0, fracW := 0, fracE := 0, pilot := 0, banked := false
      dimW := false, dimE := false, rateW := s1.dim.litW, rateE := s1.dim.litE, busyW := s1.time.toNat, busyE := s1.time.toNat
      busyM := s1.time.toNat, busyB := (List.range 32).foldl (fun m b => sput 0 b s1.time.toNat m) [], seamAt := s1.time.toNat }
    cxl := { s1.cxl with unowned := 0, xlateErr := 0 } }

/-- The module as it is when its rails come on: every setting at its value after a cold start, but for what flash, the fuses and
the waiting list of the Lamplighter keep and what has left the module. HBM holds nothing that was written, no link is up, and no
start has completed (Table 19-7, first column). DESIGN CHOICE, unsafe: assumption 26. -/
def State.blank (s : State) : State :=
  { State.reset with
    pending := s.pending, steppingB0 := s.steppingB0, time := s.time, undef := s.undef, events := s.events
    hbm := (List.range 12).map (fun k => (k, { owner := some 0, rekeys := (s.stack k).rekeys }))
    pins := s.pins
    lmc := { flash := s.lmc.flash, flashLen := s.lmc.flashLen, minSvn := s.lmc.minSvn }
    dim := { cls := s.dim.cls, badStrap := s.dim.badStrap }
    start := { s.start with phase := 0, kind := 0 }
    hostOut := s.hostOut, msix := s.msix, bisnp := s.bisnp, platform := s.platform, reply := s.reply }

/-! ### Starting (R545–R549, R566) -/

/-- A start of a kind begins with step 1. -/
def State.beginStart (s : State) (kind : Nat) : State :=
  { s with start := { s.start with
      kind := kind, phase := 1, began := s.time.toNat, heldNs := 0, holdAt := 0, ports := false, cxl := false } }

/-- A cold start begins. -/
def State.beginCold (s : State) : State := s.blank.beginStart 1

/-- A start fails (R548): a failed warm start is followed by a cold start, a failed cold start by another, and the fourth in
a row leads to recovery. -/
def State.failStart (s : State) : State :=
  let s1 := s.report 8 2 0 0xFF 0 0 0 0
  if s.start.kind = 2 then ({ s1 with start := { s1.start with fellBack := true } } : State).beginCold
  else if s.start.fails = 3 then
    { s1.blank with start := { s1.start with kind := 0, phase := 1, recovery := true, last := 4 } }
  else ({ s1 with start := { s1.start with fails := s1.start.fails + 1 } } : State).beginCold

/-- The firmware image in flash. -/
def Lmc.flashBytes (l : Lmc) : List Byte := readBytes l.flash 0 l.flashLen
/-- The image received. -/
def Lmc.imageBytes (l : Lmc) : List Byte := readBytes l.image 0 l.imageLen

/-- The verdict on an image: 0 OK, 1 BAD_SIG, 2 ROLLBACK (R550). -/
def imageVerdict (b : List Byte) (minSvn : Nat) : Nat :=
  if !Config.imageSigned b then 1 else if Config.imageSvn b < minSvn then 2 else 0

/-- The retained partition map failed its check: the map of R432 takes its place. Blocks whose owner changes are zeroed, and
stacks whose owner changes are re-keyed; objects that come to partition 0 are zeroed (R546, R350, R267). -/
def State.mapReset (s : State) : State :=
  let changed : BitVec 32 := ~~~((s.part 0).blocks)
  let base := (s.part 0).syncBase.toNat
  let entering (o : Nat) : Bool :=
    if o < 16384 then changed.getLsbD (o / 512) else o < 32768 && !(base ≤ o && o < base + (s.part 0).syncCount.toNat)
  let s1 := s.zeroBlocks changed
  let s2 := (List.range 12).foldl (fun s' k =>
    if (s'.stack k).owner = some 0 then s' else (s'.rekey k).modStack k (fun x => { x with owner := some 0 })) s1
  let s3 := (List.range 8).foldl (fun s' p => s'.modPort p (fun x => { x with owner := some 0 })) s2
  let s4 := (List.range 31).foldl (fun s' i =>
    s'.modPart (i + 1) (fun q => { q with blocks := 0, syncBase := 0, syncCount := 0, iwin := [], iwinAct := [] })) s3
  let s5 : State := { s4 with objs := s4.objs.filter (fun c => !entering c.1) }
  (s5.modPart 0 (fun q => { q with
    blocks := 0xFFFFFFFF, syncBase := 16384, syncCount := 16384, recMax := 262144 })).defaultMap 0

/-- Step 4 of a start: after power was lost, fresh keys for every stack that is owned (R350, Table 19-5). No ownership changes, so
GEN counts none of them (R351). DEDUCED, unsafe: assumption 31. -/
def State.freshKeys (s : State) : State :=
  (List.range 12).foldl (fun s' k => if (s'.stack k).owner = none then s'
    else (s'.rekey k).modStack k (fun x => { x with gen := (s'.stack k).gen })) s

/-- Step 6a: ports whose links did not stay up train; while PWR_WARN_N is asserted their rings join coasted (Table 20-7). -/
def State.trainPorts (s : State) (lanes : Vector (BitVec 16) 8) : State :=
  (List.range 8).foldl (fun s' p =>
    if (s'.port p).link = 2 then s' else linkUp p (lanes[p]?.getD 0) s') s

/-- The last step completes: the registers are set, and the start is over (R548, R553). The windows of a module that was in Snuffed were
retired as it entered that state. -/
def State.endStart (s : State) : State :=
  let s1 := if s.start.kind = 1 then s else if s.start.fromSnuffed then s.settle true else s.retireWindows.settle false
  let ms := (s.time.toNat - s.start.began) / 1000000
  ({ s1 with start := { s1.start with
      kind := 0, phase := 0xFF, fails := 0, ms := BitVec.ofNat 16 (min ms 0xFFFF), fromSnuffed := false, fellBack := false
      last := if s.start.fellBack then 3 else if s.start.kind = 1 then 1 else 2 } }).logEvent 2 0xFF

/-- The column of a die that repair disables: the defective one, or column 32 when there is none; no repair covers more than
one (R57, R61). -/
def repairColumn (m : BitVec 33) : Option Nat :=
  match (List.range 33).filter (fun i => m.getLsbD i) with
  | [] => some 32
  | [c] => some c
  | _ => none

/-- The running step of a start completes, or fails (Table 19-5, R548). DESIGN CHOICE, unsafe: assumption 26. -/
def State.startStep (s : State) (o : StartObs) : State :=
  let cold : Bool := s.start.kind = 1
  let next (s' : State) : State := { s' with start := { s'.start with phase := s'.start.phase + 1 } }
  if o.lost then s.failStart
  else match s.start.phase.toNat with
  | 1 =>
    if imageVerdict s.lmc.flashBytes s.lmc.minSvn ≠ 0 then s.failStart
    else
      let s1 : State := { s with lmc := { s.lmc with running := s.lmc.flash, runningLen := s.lmc.flashLen } }
      next (if cold then { s1 with dim := { s1.dim with cls := if o.strap = 3 then 0 else o.strap, badStrap := o.strap = 3 } }
        else s1)
  | 2 => next s
  | 3 =>
    if !cold then next s
    else match repairColumn o.defectsW, repairColumn o.defectsE with
      | some w, some e => next { s with start := { s.start with exhausted := false, repairW := w, repairE := e } }
      | _, _ => next { s.report 8 1 0 0xFF 0 0 0 0 with start := { s.start with exhausted := true } }
  | 4 =>
    if !o.trained then s.failStart
    else next (if cold || s.start.fromSnuffed then s.freshKeys else s)
  | 5 =>
    let s1 := if cold || s.start.fromSnuffed || s.dim.banked then s.zeroBlocks 0xFFFFFFFF else s
    let s2 := if o.mapBad && !cold then s1.mapReset else s1
    next { s2 with start := { s2.start with holdAt := s2.time.toNat } }
  | 6 =>
    let s1 := if s.start.ports then s else s.trainPorts o.lanes
    let s2 := if s.pins.perst then s1 else if s1.cxl.rate = 0 then s1.trainLink o.link else s1
    let s3 : State := { s2 with start := { s2.start with ports := true, cxl := !s.pins.perst } }
    if s.pins.perst then s3 else next s3
  | 7 => s.endStart
  | _ => s

/-- COLD_START: the running step of a cold start (R545). -/
def coldStart (o : StartObs) (s : State) : State := if s.start.kind = 1 then s.startStep o else s

/-- WARM_START: the running step of a warm start (R546). -/
def warmStart (o : StartObs) (s : State) : State := if s.start.kind = 2 then s.startStep o else s

/-- The time that a start has taken, without the time that step 6b was held (R548, R566). -/
def State.startNs (s : State) : Nat :=
  s.time.toNat - s.start.began - s.start.heldNs - (if s.start.phase = 6 && s.pins.perst then s.time.toNat - s.start.holdAt else 0)

/-- START_TIMEOUT (R548). -/
def startTimeout (s : State) : State := if s.start.kind ≠ 0 && 30000000000 ≤ s.startNs then s.failStart else s

/-- RECOVERY: the ROM trains the link with CXL.io only (R549). -/
def recovery (o : LinkObs) (s : State) : State := if s.start.recovery then s.trainLink o else s

/-! ### Requests for a restart (R502, R547, R551) -/

/-- WARM_RESTART_REQUEST: RST_CTL.WARM with its key. -/
def warmRestartRequest (s : State) : State :=
  if s.restartBusy then { s with start := { s.start with ctlResult := 2 } }
  else
    let s1 := s.stopAll.beginStart 2
    { s1 with start := { s1.start with ctlResult := 1, cause := s1.start.cause ||| 0x20000000 } }

/-- LMC_RESTART: RST_CTL.LMC with its key. The Lamplighter restarts; the Dimmer's next control period says that it is back. -/
def lmcRestart (s : State) : State :=
  if s.restartBusy then { s with start := { s.start with ctlResult := 2 } }
  else { s with start := { s.start with ctlResult := 1, lmcWait := true } }

/-- LMC_WATCHDOG: during a start it is a failed start; else the Lamplighter restarts (R548, R551). -/
def lmcWatchdog (s : State) : State :=
  if !s.pins.power || s.pins.snuffed || s.start.recovery then s
  else if s.start.kind ≠ 0 then s.failStart
  else
    let s1 := s.report 8 3 0 0xFF 0 0 0 0
    { s1 with start := { s1.start with lmcWait := true, cause := s1.start.cause ||| 0x10000000 } }

/-! ### Firmware images (R549, R550, Table 19-9) -/

/-- The command in LMC_CMD ends with a RESULT. -/
def State.lmcDone (s : State) (r : Nat) : State := { s with lmc := { s.lmc with busy := false, result := BitVec.ofNat 8 r } }

/-- Whether the Lamplighter runs the command of an opcode now: it has power and does not restart (R541, R551). -/
def State.lmcRuns (s : State) (op : Nat) : Bool := s.lmc.busy && bits s.lmc.cmd.toNat 31 24 = op && !s.start.lmcWait && s.pins.power && !s.pins.snuffed

/-- Bytes of an image at an offset; a chunk at offset 0 begins a new image. DESIGN CHOICE, unsafe: assumption 24. -/
def Lmc.addChunk (l : Lmc) (off : Nat) (b : List Byte) : Lmc :=
  let img := if off = 0 then [] else l.image
  { l with
    image := writeBytes img off b
    imageLen := max (if off = 0 then 0 else l.imageLen) (off + b.length)
    verified := false }

/-- The verified image goes to flash, and raises the fused minimum if its header asks for it; in recovery a cold start with
COLD_FAILS at 0 follows (R549, R550). -/
def State.activateImage (s : State) : State :=
  let l := s.lmc
  let svn := if Config.imageRaises l.imageBytes then max l.minSvn (Config.imageSvn l.imageBytes) else l.minSvn
  let s1 : State := { s with lmc := { l with flash := l.image, flashLen := l.imageLen, minSvn := svn } }
  if s.start.recovery then ({ s1 with start := { s1.start with recovery := false, fails := 0, fellBack := false } } : State).beginCold
  else s1

/-- IMAGE_CHUNK: LEN bytes of LMC_BUF at image offset LMC_ARG. -/
def imageChunk (s : State) : State :=
  let n := s.lmc.cmd.toNat % 65536
  if !s.lmcRuns 1 then s
  else if 61440 < n || Config.imageMax < s.lmc.arg.toNat + n then s.lmcDone 3
  else ({ s with lmc := s.lmc.addChunk s.lmc.arg.toNat (readBytes s.lmc.buf 0 n) } : State).lmcDone 0

/-- IMAGE_VERIFY. -/
def imageVerify (s : State) : State :=
  let r := imageVerdict s.lmc.imageBytes s.lmc.minSvn
  if !s.lmcRuns 2 then s
  else ({ s with lmc := { s.lmc with verified := r = 0 } } : State).lmcDone r

/-- IMAGE_ACTIVATE. -/
def imageActivate (s : State) : State :=
  if !s.lmcRuns 3 then s
  else if !s.lmc.verified then s.lmcDone 3
  else (s.lmcDone 0).activateImage

/-- A write of LMC_CMD starts a command, and one while BUSY is ignored. An opcode that does not exist is answered once the Lamplighter runs
(R551). -/
def State.writeLmcCmd (s : State) (v : BitVec 32) : State :=
  if s.lmc.busy then s
  else
    let op := bits v.toNat 31 24
    let s1 : State := { s with lmc := { s.lmc with cmd := v, busy := true } }
    if op = 1 || op = 2 || op = 3 || s.start.lmcWait then s1 else s1.lmcDone 3

/-- The command of an opcode that does not exist is answered as the Lamplighter comes back. -/
def State.answerLmc (s : State) : State :=
  let op := bits s.lmc.cmd.toNat 31 24
  if s.lmc.busy && !(op = 1 || op = 2 || op = 3) then s.lmcDone 3 else s

/-! ### Leaving power states -/

/-- Exit latencies in µs (Table 19-2). -/
def exitDimmed : Nat := 5
def exitPilot : Nat := 80
def exitBanked : Nat := 2500

/-- States whose exit latency is above the wake budget are left (R540). -/
def State.applyBudget (s : State) : State :=
  let us := s.dim.budget.toNat
  let s2 := if us < exitBanked then s.leaveBanked else s
  let s3 := if us < exitPilot && !s2.lantern then s2.wakeBlocks s2.dim.pilot else s2
  if us < exitDimmed then { s3 with dim := s3.dim.dimDies false false } else s3

/-! ### The control period (R533–R536, R557) -/

/-- The class envelope in W (Table 0-3). -/
def envelope (cls : BitVec 2) : Nat := if cls = 1 then 1600 else if cls = 2 then 2400 else 1000

/-- The guaranteed minimum rate in units of 10 Mbeat/s (Table 0-3). -/
def minRate (cls : BitVec 2) : Nat := if cls = 1 then 170 else if cls = 2 then 200 else 130

/-- The target of a Performance mode (Table 19-1): a rate, or for Economy in the Liquid and Immersion classes a power. -/
def perfTarget (cls perf : BitVec 2) : Option Nat :=
  if cls = 1 then (if perf = 0 then none else if perf = 2 then some 190 else some 180)
  else if cls = 2 then (if perf = 0 then none else if perf = 2 then some 220 else some 210)
  else if perf = 2 then some 150 else some 140

/-- The power to which the Dimmer holds the module (R533, R534, R557): the envelope, CAP_W, the power of Economy in the Liquid and
Immersion classes, and below 44 V what the continuous current gives. -/
def powerLimit (cls perf : BitVec 2) (cap mv : Nat) : Nat :=
  let e := envelope cls
  let p1 := if cap = 0 then e else min e cap
  let p2 := if perf = 0 && cls ≠ 0 then min p1 (if cls = 1 then 1200 else 1800) else p1
  if mv < 44000 then min p2 (e * mv / 44000) else p2

/-- The conditions under which R535 holds the guaranteed minimum, beside the junction. -/
def minHolds (cls perf : BitVec 2) (cap mv : Nat) : Bool :=
  (cap = 0 || envelope cls ≤ cap) && (perf = 1 || perf = 2 || (perf = 0 && cls = 0)) && 44000 ≤ mv && mv ≤ 58000

/-- The next rate of a die that had the rate `old` (R533–R535): `allowed`, at most the target; while the module draws more than its
limit, or the junction is above 105 °C, the rate falls; it does not fall while neither power nor junction asks for it, and rises to the
target while the module draws less than its limit; and it is at least the minimum where R535 holds that. DESIGN CHOICE, unsafe: assumption 27. -/
def dieRate (cls perf : BitVec 2) (cap mv tj watts old allowed : Nat) : Nat :=
  let top := (perfTarget cls perf).getD 255
  let r0 := min top allowed
  let limit := powerLimit cls perf cap mv
  let r1 :=
    if limit < watts || 105 < tj then min r0 (old - 1)
    else if 95 < tj then r0
    else max r0 (min top (if watts < limit then old + 1 else old))
  if tj ≤ 95 && minHolds cls perf cap mv then max (minRate cls) r1 else r1

/-- LIMITED (R534, R535): a condition of R535 fails, or a die lies below the target. -/
def rateLimited (cls perf : BitVec 2) (cap mv rate : Nat) : Bool :=
  !minHolds cls perf cap mv || (perfTarget cls perf).any (fun t => rate < t)

/-- Whether a running task straddles the seam (R259). -/
def State.straddled (s : State) : Bool :=
  s.liveRuns.any (fun c => c.2.bx0 < 4 && 4 < c.2.bx0 + c.2.w && c.2.tiles.any (fun t => (s.tile t).task = c.1 && (s.tile t).assigned))

/-- The rates of both dies: while a running task straddles the seam and the envelope asks for nothing else, neither die runs below
the other (R259, R536). DESIGN CHOICE, unsafe: assumption 27. -/
def pairRates (straddled over95 overPower : Bool) (w e : Nat) : Nat × Nat :=
  if !straddled || overPower then (w, e) else if over95 then (min w e, min w e) else (max w e, max w e)

/-- CONTROL_PERIOD: DIM_CTL takes effect, and the Dimmer sets both dies from what it measures (R533–R536). A Lamplighter that
was restarting is back: a budget written meanwhile is applied, the wake events that came are served, the log entries that waited are
written, and an unknown command is answered (R551). DESIGN
CHOICE, safe: assumption 27. -/
def controlPeriod (o : DimObs) (s : State) : State :=
  if !s.pins.power || s.pins.snuffed then s
  else
    let d := s.dim
    let perf : BitVec 2 := BitVec.ofNat 2 (bits d.ctl.toNat 31 30)
    let cap := d.ctl.toNat % 4096
    let mv := o.millivolt.toNat
    let tj := o.tj.toNat
    let watts := o.watts.toNat
    let r := pairRates s.straddled (decide (95 < tj)) (decide (powerLimit d.cls perf cap mv < watts))
      (dieRate d.cls perf cap mv tj watts d.litW.toNat o.rateW.toNat)
      (dieRate d.cls perf cap mv tj watts d.litE.toNat o.rateE.toNat)
    let lim := rateLimited d.cls perf cap mv r.1 || rateLimited d.cls perf cap mv r.2
    let s1 := if d.ctl = d.ctlAct then s else s.logEvent 5 0xFF
    let s2 : State := { s1 with
      dim := { d with
        ctlAct := d.ctl, watts := o.watts, tj := o.tj, energy := d.energy + o.mj.zeroExtend 64
        litW := BitVec.ofNat 8 r.1, litE := BitVec.ofNat 8 r.2, limited := lim, belowMin := 95 < tj
        throttle := if lim then satInc d.throttle else d.throttle : Dimmer }.dimDies d.dimW d.dimE
      pins := { s1.pins with millivolt := mv }
      start := { s1.start with lmcWait := false } }
    let s3 := [6, 7].foldl (fun s' p => s'.modPort p (fun y => { y with lanes := if y.link = 2 then s'.lanesOf p else y.lanes })) s2
    if s.start.lmcWait then s3.applyBudget.serveWakes.serveLog.answerLmc else s3

/-- SEAM_RATIO_WINDOW: the ratio of the two dies' beats in the window of 1 µs that ends, and the beats in which a seam FIFO
was full (R259). No window ends before 1 µs has passed. DESIGN CHOICE, safe: assumption 5. -/
def seamRatioWindow (hold : BitVec 32) (s : State) : State :=
  let w := s.beatsW - s.dim.seamW
  let e := s.beatsE - s.dim.seamE
  let r := if w = e then 0xFFFF else min 0xFFFF (min w e * 65536 / max w e)
  if !s.pins.power || s.pins.snuffed || s.time.toNat < s.dim.seamAt + 1000 then s
  else { s with dim := { s.dim with
    seamRatio := BitVec.ofNat 32 ((if w < e then 2 ^ 31 else 0) + r), seamW := s.beatsW, seamE := s.beatsE, seamAt := s.time.toNat
    seamHold := s.dim.seamHold + hold.zeroExtend 64 } }

/-! ### Power states (R537–R541) -/

/-- A die holds no task. -/
def State.dieIdle (s : State) (east : Bool) : Bool := s.liveRuns.all (fun c => c.2.tiles.all (fun t => onDieE t ≠ east))

/-- The module is idle (R538), but for host accesses, which `State.hostBusy` notes. -/
def State.moduleIdle (s : State) : Bool :=
  s.dieIdle false && s.dieIdle true && s.tiles.all (fun c => c.2.copies = []) && s.arms.all (fun c => c.2.ins = [] && c.2.outs = []) &&
    s.hbm.all (fun c => c.2.eng.queue = []) && s.ports.all (fun c => c.2.colls.all (fun d => d.2.state ≠ 2))

/-- Entry thresholds in µs (DIM_THRESH). -/
def Dimmer.dimmedUs (d : Dimmer) : Nat := bits d.thresh.toNat 31 24
def Dimmer.pilotUs (d : Dimmer) : Nat := 10 * bits d.thresh.toNat 23 12
def Dimmer.bankedUs (d : Dimmer) : Nat := 1000 * bits d.thresh.toNat 11 0

/-- POWER_STATE_ENTRY for die `n` (0 W, 1 E), block `n` or the module: a unit that has been idle for long enough enters the state
of its scope where budget and threshold allow (R538, R539). -/
def powerStateEntry (u : PowerUnit) (n : BitVec 5) (s : State) : State :=
  let d := s.dim
  let ok (exit threshold busy : Nat) : Bool := exit ≤ d.budget.toNat && busy + 1000 * threshold ≤ s.time.toNat
  if s.start.phase ≠ 0xFF || s.start.lmcWait || d.banked then s
  else match u with
    | .die =>
      let east : Bool := n = 1
      if n.toNat < 2 && s.dieIdle east && ok exitDimmed d.dimmedUs (if east then d.busyE else d.busyW) then
        { s with dim := d.dimDies (d.dimW || !east) (d.dimE || east) }
      else s
    | .block =>
      let b := n.toNat
      if (blockTiles b).all (fun t => (s.tile t).st = 0) && (ok exitPilot d.pilotUs (sget 0 b d.busyB) || s.lantern) then
        (blockTiles b).foldl State.enterPilot { s with dim := { d with pilot := d.pilot ||| BitVec.ofNat 32 (2 ^ b) } }
      else s
    | .module =>
      if s.moduleIdle && d.ctlAct.getLsbD 29 && ok exitBanked d.bankedUs d.busyM then { s with dim := { d with banked := true } } else s

/-- WAKE_BUDGET_WRITE: a budget below the exit latency of a state starts the exit from it (R540), once the Lamplighter runs
(R551). -/
def wakeBudgetWrite (v : BitVec 32) (s : State) : State :=
  let s1 : State := { s with dim := { s.dim with budget := BitVec.ofNat 24 v.toNat } }
  if !s.responds then s else if s.start.lmcWait then s1 else s1.applyBudget

/-- A port that loses power: pending settings take effect, and its settings stay. -/
def Port.snuff (x : Port) : Port :=
  let y := x.leave 0
  let ctl := x.ctl &&& 0xBFFFFFFF
  { owner := y.owner, ctl := ctl, ctlAct := ctl, ring := y.ring, ringAct := y.ringAct, map := y.map, mapAct := y.mapAct
    took := y.took, rev := y.rev, broken := y.broken }

/-- SNUFFED_ENTRY: the host places the physical function in D3cold. The package and HBM lose power; peers see the loss of
the links (R541, Table 19-7). Pending settings of the ports take effect as their links go down (R493), and what Table 19-7 does not mark
stays (R554). -/
def snuffedEntry (s : State) : State :=
  if !s.pins.power || s.pins.snuffed then s
  else
    let s1 := (List.range 12).foldl State.discardQueue s.dropTasks
    let s2 := ((List.range 8).foldl State.clearColls s1).retireWindows.settle true
    let s3 := s2.resetCxl
    { s3 with
      tiles := smap {} (fun x => { x with shelf := [], bad := [] }) s3.tiles
      hbm := smap {} (fun x => { x with
        keyValid := false, rekeying := false, ceAt := none, cells := [], poison := [], found := [], bad := [], seals := []
        stg := [], stgSide := [], stgErr := [], stgPoison := [], narrowQ := [], narrowOut := [], snooped := [] }) s3.hbm
      ports := smap {} Port.snuff s3.ports
      dim := { s3.dim with rateW := 0, rateE := 0, litW := 0, litE := 0 }
      pins := { s3.pins with snuffed := true }
      start := { s3.start with kind := 0, phase := 0 } }

/-! ### Power, reset and warning pins (R556–R568) -/

/-- The rails go off: everything that flash does not keep is lost (R568). -/
def State.powerOff (s : State) : State :=
  let s1 := s.blank
  { s1 with events := [], hbm := smap {} (fun x => { x with owner := none }) s1.hbm
            pins := { s1.pins with power := false, snuffed := false, wakeN := false, smbAlert := false, smb := 0x64 }
            start := { kind := 0, phase := 0, repairW := s.start.repairW, repairE := s.start.repairE } }

/-- POWER_GOOD: VIN is in range and PRSNT_N has mated; a cold start begins (R556, R558). -/
def powerGood (mv : BitVec 17) (s : State) : State :=
  if s.pins.power || mv.toNat ≤ 43000 || 60000 < mv.toNat then s
  else
    let s1 : State := { s with
      pins := { s.pins with power := true, prsnt := true, millivolt := mv.toNat }
      start := { s.start with cause := 0x80000000, fails := 0, recovery := false, fellBack := false, fromSnuffed := false } }
    s1.beginCold

/-- VIN_UNDERVOLTAGE: below 41 V the rails go off (R556, R558). -/
def vinUndervoltage (mv : BitVec 17) (s : State) : State :=
  let s1 : State := { s with pins := { s.pins with millivolt := mv.toNat } }
  if mv.toNat < 41000 then s1.powerOff else s1

/-- VIN_OVERVOLTAGE: above 60 V the rails go off (R556). -/
def vinOvervoltage (mv : BitVec 17) (s : State) : State :=
  let s1 : State := { s with pins := { s.pins with millivolt := mv.toNat } }
  if 60000 < mv.toNat then s1.powerOff else s1

/-- PRSNT_BREAK: the hot-swap controller opens VIN (R559). -/
def prsntBreak (s : State) : State :=
  let s1 := s.powerOff
  { s1 with pins := { s1.pins with prsnt := false } }

/-- PERST_ASSERT: a conventional reset; the link goes down and the CXL configuration is reset. A start in progress begins
again with step 1 (R548, R553). -/
def perstAssert (s : State) : State :=
  if s.pins.perst then s
  else
    let s1 : State := { s with pins := { s.pins with perst := true } }
    if !s.pins.power || s.pins.snuffed then s1
    else
      let s2 := s1.resetCxl
      let s3 : State := { s2 with start := { s2.start with cause := s2.start.cause ||| 0x40000000 } }
      if s.start.kind = 1 then s3.beginCold else if s.start.kind = 2 then s3.beginStart 2 else s3

/-- PERST_DEASSERT: WAKE_N is released. It releases step 6b of a start in progress; from Snuffed, and on a running module, a
warm start begins (R546, R563, R566). -/
def perstDeassert (s : State) : State :=
  if !s.pins.perst then s
  else
    let held := if s.start.kind ≠ 0 && s.start.phase = 6 then s.time.toNat - s.start.holdAt else 0
    let s1 : State := { s with
      pins := { s.pins with perst := false, wakeN := false }
      start := { s.start with heldNs := s.start.heldNs + held } }
    if !s.pins.power || s.start.recovery then s1
    else if s.pins.snuffed then
      ({ s1 with pins := { s1.pins with snuffed := false }, start := { s1.start with fromSnuffed := true } } : State).beginStart 2
    else if s.start.kind ≠ 0 then s1
    else s1.stopAll.beginStart 2

/-- PWR_WARN_ASSERT, for an assertion that lasts: every ring coasts, admission and placement stop, and the log gets an entry.
In Snuffed it is only recorded (R567, Table 20-7). -/
def pwrWarnAssert (s : State) : State :=
  let s1 : State := { s with pins := { s.pins with warn := true } }
  if s.pins.warn then s
  else if !s.pins.power || s.pins.snuffed then s1
  else
    [1, 3, 5, 7].foldl (fun s' p =>
      if [2, 3].contains (s'.port p).link || [2, 3].contains (s'.port (pairPort p)).link then s'.coastRing p else s')
      (s1.logEvent Config.warnKind.toNat 0xFF)

/-- PWR_WARN_DEASSERT: admission and placement resume 10 ms later (R567). -/
def pwrWarnDeassert (s : State) : State :=
  if s.pins.warn then { s with pins := { s.pins with warn := false, warnOff := s.time.toNat + 10000000 } } else s

/-- REFCLK_LOSS: the CXL link is down, and the time stamp goes on (R561). -/
def refclkLoss (s : State) : State :=
  let s1 := s.dropLink
  { s1 with pins := { s1.pins with refclk := false } }

/-- REFCLK_RESUME. -/
def refclkResume (s : State) : State := { s with pins := { s.pins with refclk := true } }

/-! ### The sideband (R562, R563) -/

/-- MCTP_CONTROL: an MCTP control message is answered as the DMTF base specification says. -/
def mctpControl (code : BitVec 8) (s : State) : State :=
  if s.pins.power then { s with reply := [Config.answer 0 code.toNat 0] } else s

/-- The hottest stack. -/
def State.hottest (s : State) : Nat := (s.hbm.map (fun c => c.2.temp.toNat)).foldl max 0

/-- PLDM_SENSOR_READ: a 0 and the reading, or a 1 for unavailable, as in Snuffed. -/
def pldmSensorRead (x : Sensor) (s : State) : State :=
  if !s.pins.power then s
  else if s.pins.snuffed then { s with reply := [1] }
  else { s with reply := [0, BitVec.ofNat 64 (match x with
    | .power => s.dim.watts.toNat
    | .junction => s.dim.tj.toNat
    | .hbm => s.hottest)] }

/-- MCTP_WAKE_REQUEST: in Snuffed it asserts WAKE_N. -/
def mctpWakeRequest (s : State) : State :=
  if s.pins.snuffed then { s with pins := { s.pins with wakeN := true } } else s

/-- SMBUS_ARP: a new address. -/
def smbusArp (a : BitVec 7) (s : State) : State := if s.pins.power then { s with pins := { s.pins with smb := a } } else s

/-! ### The tick -/

/-- The beat ends: tasks that a fault has ended stop (R26), sync nodes take their arrivals (R275), gather units serve the elements
that wait (R340), and switches of lanes and a re-bind's quiesce point are noted (R419, R435). -/
def State.endBeat (s : State) : State :=
  let s1 := s.haltRuns.serveArrivals
  ((List.range 12).foldl State.gatherAll s1).endSwitches.noteQuiet

/-- An error strikes a word of a tile's shelves that is sound and that no queued word is still to read (R215). -/
def Tile.strike (x : Tile) (w : Nat) (hard : Bool) : Tile :=
  if x.mark w ≠ 0 || shelfEnd ≤ 8 * w || anyMeets [(8 * w, 8)] (x.queue.flatMap MxaEntry.readsLeft) then x
  else { x with bad := sput 0 w (if hard then 2 else 1) x.bad }

/-- An error strikes a 64-byte unit of HBM (R347), or a word of the staging SRAM (Table 11-1), that is sound. -/
def Stack.strike (x : Stack) (stg : Bool) (w : Nat) (hard : Bool) : Stack :=
  let m := if hard then 2 else 1
  if stg then
    (if sget 0 w x.stgErr ≠ 0 || sget false w x.stgPoison || 2 ^ 22 ≤ w then x else { x with stgErr := sput 0 w m x.stgErr })
  else if sget 0 w x.bad ≠ 0 || sget false w x.poison || 96 * 2 ^ 24 ≤ w then x
  else { x with bad := sput 0 w m x.bad }

/-- What the memories and the banks meet by chance in 10 ns, while they have power: errors (R215, R347, Table 11-1), and bank beats
lost (R211), where the tile's logic runs (R53). DESIGN CHOICE, safe: assumptions 29 and 30. -/
def State.chance (s : State) : State :=
  if !s.pins.power || s.pins.snuffed then s
  else
    let s1 := (Config.upsets s.time.toNat).foldl (fun s' c =>
      if c.1 = 0 then s'.modTile (BitVec.ofNat 11 c.2.1) (fun x => x.strike c.2.2.1 c.2.2.2)
      else if 12 ≤ c.2.1 then s' else s'.modStack c.2.1 (fun x => x.strike (c.1 = 2) c.2.2.1 c.2.2.2)) s
    (Config.lostRows s.time.toNat).foldl (fun s' c =>
      if shelfEnd ≤ c.2 then s' else s'.modTile c.1 (fun x => if x.st = 8 then x else x.loseBeat c.2)) s1

/-- The units that are not idle are busy until now (R538). -/
def State.markBusy (s : State) : State :=
  let s1 := s.liveRuns.foldl (fun s' c => s'.markRun c.2) s
  if s1.moduleIdle then s1 else s1.hostBusy

/-- What passes while no command waits: the beat in progress ends, 10 ns of the time stamp pass (R114), and the dies complete the
beats that their rates give, to a tenth. DESIGN CHOICE, unsafe: assumption 5. -/
def State.tick (s : State) : State :=
  let s1 := s.endBeat
  let w := s1.dim.fracW + s1.dim.rateW.toNat
  let e := s1.dim.fracE + s1.dim.rateE.toNat
  ({ s1 with
    time := s1.time + 10
    beatsW := s1.beatsW + w / 10
    beatsE := s1.beatsE + e / 10
    dim := { s1.dim with fracW := w % 10, fracE := e % 10 } } : State).markBusy.chance

end Sys2Proof.Machine
end

