-- ==== Sys2Proof/Machine/Regs.lean ====
section
/-!
DEFINITION. BAR0 (Chapter 17): its views, the value of every register, the effects of reads, plain writes of every register,
the SET, CLEAR and TOGGLE aliases, the bit alias of the FLAG space, and the vendor DVSEC.
-/
namespace Sys2Proof.Machine

/-! ### Accessors and their selections (R491, R492) -/

/-- The number of an accessor: the physical function 0, the Lamplighter 1, virtual function p + 1 as 2 + p. -/
def accessor : Who → Nat
  | .pf => 0
  | .lmc => 1
  | .vf p => 2 + p.toNat

/-- Selection registers of an accessor: 0 GLB_PART_SEL, 1 SYNC_SEL, 2 WIN_SEL, 3 EL_SEL, 8 + p LP_MAP_SEL of port p. -/
def State.sel (s : State) (who : Who) (i : Nat) : Nat := (sget 0 (256 * accessor who + i) s.sels).toNat
def State.setSel (s : State) (who : Who) (i : Nat) (v : Nat) : State :=
  { s with sels := sput 0 (256 * accessor who + i) (BitVec.ofNat 32 v) s.sels }

/-- The partition that an accessor reaches. -/
def State.partSel (s : State) : Who → Nat
  | .vf p => p.toNat
  | w => s.sel w 0

/-- Held _LO halves of an accessor (R495). -/
def loKey (who : Who) (pair n : Nat) : Nat := loKeyOf (accessor who) pair n
def State.heldLo (s : State) (who : Who) (pair n : Nat) : Option (BitVec 32) := sget none (loKey who pair n) s.los
def State.holdLo (s : State) (who : Who) (pair n : Nat) (v : BitVec 32) : State :=
  { s with los := sput none (loKey who pair n) (some v) s.los }
def State.dropLo (s : State) (who : Who) (pair n : Nat) : State := { s with los := sput none (loKey who pair n) none s.los }

/-- The low half that a read of _LO returns, and that a write of _HI applies, with the value `v` in force. -/
def State.loHalf (s : State) (who : Who) (pair n : Nat) (v : BitVec 64) : BitVec 32 := (s.heldLo who pair n).getD (v.truncate 32)

/-- What a write of _HI applies. -/
def State.pairValue (s : State) (who : Who) (pair n : Nat) (v : BitVec 64) (hi : BitVec 32) : BitVec 64 :=
  BitVec.ofNat 64 (hi.toNat * 2 ^ 32 + (s.loHalf who pair n v).toNat)

/-! ### Views (Table 17-2, R549) -/

/-- Whether an accessor's view of BAR0 holds the register at an offset. DESIGN CHOICE, unsafe: assumption 16. -/
def State.inView (s : State) (who : Who) (a : Nat) : Bool :=
  match who with
  | .vf p =>
    !s.start.recovery && match a / 65536 with
    | 0 => [0, 4, 8, 0xC, 0x10, 0x20, 0x28, 0x2C, 0x30].contains a
    | 4 => true
    | 5 => true
    | 6 => 0x6C000 ≤ a || (s.stack (a % 65536 / 4096)).owner = some p.toNat
    | 7 => (s.stack (a % 65536 / 4096)).owner = some p.toNat
    | 8 => (s.port (a % 65536 / 4096)).owner = some p.toNat
    | 10 => true
    | 12 => (a - 0xC0000) / 128 = p.toNat
    | _ => false
  | _ => !s.start.recovery || a / 65536 = 0 || a = 0x10010 || a = 0x10014 || a / 65536 = 11

/-- The function of an accessor: 0 the physical function, p + 1 the virtual function of partition p (R464). -/
def whoFn : Who → Nat
  | .vf p => p.toNat + 1
  | _ => 0

/-- Whether an accessor reaches BAR0 at all: a function through the trained CXL link, unless the stream that carries its traffic is
insecure (R483), the Lamplighter while it runs. DESIGN CHOICE, unsafe: assumption 16. -/
def State.reaches (s : State) (who : Who) : Bool :=
  s.pins.power && !s.pins.snuffed && (match who with
    | .lmc => !s.start.lmcWait
    | w => s.ioUp (whoFn w))

/-! ### Values -/

/-- GLOBAL (Table 17-6). -/
def globalValue (who : Who) (o : Nat) (s : State) : BitVec 32 :=
  match o with
  | 0x00 => 0x1F6C0401
  | 0x04 => if s.steppingB0 then 0xB0 else 0xA1
  | 0x08 => BitVec.ofNat 32 s.beatTable
  | 0x0C => 0x800C8820
  | 0x10 => BitVec.ofNat 32 (s.dim.cls.toNat * 2 ^ 30 + 0x608000)
  | 0x20 => BitVec.ofNat 32 (s.partSel who)
  | 0x28 => hi64 s.time.toNat
  | 0x2C => lo64 s.time.toNat
  | 0x30 => sget 0 (accessor who) s.badAccess
  | _ => 0

/-- RESET/START (Table 17-7). -/
def resetValue (o : Nat) (s : State) : BitVec 32 :=
  let t := s.start
  match o with
  | 0x00 => BitVec.ofNat 32 (b2n t.lmcWait * 2 ^ 30 + t.ctlResult.toNat)
  | 0x04 => BitVec.ofNat 32 (t.part.toNat * 2 ^ 16 + t.partResult.toNat)
  | 0x08 => BitVec.ofNat 32 (t.tile.toNat * 2 ^ 16 + t.tileResult.toNat)
  | 0x10 => BitVec.ofNat 32 (t.last.toNat * 2 ^ 29 + t.fails.toNat * 2 ^ 26 + t.phase.toNat * 2 ^ 16 + t.ms.toNat)
  | 0x14 => t.cause
  | _ => 0

/-- DIM_STATUS.STATE: Banked; Pilot where every block is in Pilot; Dimmed where both dies are; else Lit. DEDUCED, unsafe:
assumption 27. -/
def Dimmer.state (d : Dimmer) : Nat :=
  if d.banked then 3 else if d.pilot = 0xFFFFFFFF then 2 else if d.dimW && d.dimE then 1 else 0

/-- DIMMER (Table 19-8) with SEAM_RATIO and SEAM_HOLD. -/
def dimmerValue (o : Nat) (s : State) : BitVec 32 :=
  let d := s.dim
  match o with
  | 0x00 => BitVec.ofNat 32 (d.state * 2 ^ 29 + d.cls.toNat * 2 ^ 27 + b2n d.belowMin * 2 ^ 26 + b2n d.limited * 2 ^ 25
      + b2n d.badStrap * 2 ^ 24 + d.rateW.toNat * 2 ^ 16 + d.rateE.toNat * 2 ^ 8)
  | 0x04 => BitVec.ofNat 32 (d.watts.toNat * 2 ^ 16 + d.tj.toNat * 2 ^ 8)
  | 0x08 => d.ctl
  | 0x0C => d.budget.zeroExtend 32
  | 0x10 => d.thresh
  | 0x14 => d.throttle
  | 0x18 => hi64 d.energy.toNat
  | 0x1C => lo64 d.energy.toNat
  | 0x800 => d.seamRatio
  | 0x808 => hi64 d.seamHold.toNat
  | 0x80C => lo64 d.seamHold.toNat
  | _ => 0

/-- Whether a partition owns at least one resource. -/
def State.active (s : State) (p : Nat) : Bool :=
  (s.part p).blocks ≠ 0 || s.stackMask p ≠ 0 || s.portMask p ≠ 0 || (s.part p).syncCount ≠ 0

/-- PARTITION (Table 15-11, Table 19-4). -/
def partitionValue (o : Nat) (s : State) : BitVec 32 :=
  let r := s.rebind
  if o = 0 then BitVec.ofNat 32 (0x20 * 2 ^ 24 + ((List.range 32).filter s.active).length * 2 ^ 16)
  else if o = 0x10 then r.reg
  else if o = 0x14 then r.mask
  else if o = 0x18 then BitVec.ofNat 32 (b2n r.busy * 2 ^ 31 + r.phase.toNat * 2 ^ 28 + r.result.toNat * 2 ^ 24)
  else if o = 0x1C then r.us
  else if 0x100 ≤ o && o < 0x500 then
    (let p := (o - 0x100) / 32
     let q := s.part p
     match o % 32 with
     | 0x00 => q.rerunMax.zeroExtend 32
     | 0x04 => q.blocks
     | 0x08 => BitVec.ofNat 32 (s.portMask p * 2 ^ 16 + s.stackMask p)
     | 0x0C => BitVec.ofNat 32 (q.syncBase.toNat * 2 ^ 16 + q.syncCount.toNat)
     | 0x10 => q.recMax.zeroExtend 32
     | 0x14 => BitVec.ofNat 32 (s.recUsed p)
     | 0x18 => q.ctxAddr
     | _ => q.ctxSize)
  else if 0x800 ≤ o && o < 0x900 then
    (let q := s.part ((o - 0x800) / 8)
     if o % 8 = 0 then q.mode else q.modeAct)
  else 0

/-- SIDEBOARD (Table 17-8) of the partition that the accessor reaches. -/
def sideboardValue (who : Who) (o : Nat) (s : State) : BitVec 32 :=
  let p := s.partSel who
  let q := s.sb p
  match o with
  | 0x00 => BitVec.ofNat 32 (b2n q.enable)
  | 0x04 => BitVec.ofNat 32 (b2n q.cfgErr * 2 ^ 31 + (s.graphs.filter (fun g => g.part = p)).length * 2 ^ 26
      + q.held.length * 2 ^ 17 + min (s.noPlace p) 0x1FFFF)
  | 0x10 => s.loHalf who 0 p q.subqBase
  | 0x14 => hi64 q.subqBase.toNat
  | 0x18 => q.subqSize.zeroExtend 32
  | 0x1C => q.subqTail.zeroExtend 32
  | 0x20 => q.subqHead.zeroExtend 32
  | 0x28 => s.loHalf who 1 p q.cplqBase
  | 0x2C => hi64 q.cplqBase.toNat
  | 0x30 => q.cplqSize.zeroExtend 32
  | 0x34 => q.cplqHead.zeroExtend 32
  | 0x38 => BitVec.ofNat 32 (b2n q.phase * 2 ^ 20 + q.cplqTail.toNat)
  | 0x40 => s.loHalf who 2 p q.nblBase
  | 0x44 => hi64 q.nblBase.toNat
  | 0x50 => hi64 q.tasks.toNat
  | 0x54 => lo64 q.tasks.toNat
  | _ => 0

/-- The object that SYNC_SEL of an accessor maps to. -/
def State.selObj (s : State) (who : Who) : Option Nat := s.translate (s.partSel who) (s.sel who 1)

/-- SYNC (Table 9-5). -/
def syncValue (who : Who) (o : Nat) (s : State) : BitVec 32 :=
  let p := s.partSel who
  let q := s.part p
  if 0x1000 ≤ o && o < 0x5000 then s.xlateEntry p ((o - 0x1000) / 4)
  else match o with
  | 0x00 => q.wdog
  | 0x04 => q.wdogAct
  | 0x10 => BitVec.ofNat 32 (s.sel who 1)
  | 0x14 => match s.selObj who with
    | some i => (s.obj i).value
    | none => 0
  | 0x18 => match s.selObj who with
    | some i => BitVec.ofNat 32 ((s.obj i).cnt.toNat * 2 ^ 16 + (s.obj i).arrived.toNat)
    | none => 0
  | 0x20 => q.syncErr
  | 0x24 => q.msgStuck
  | _ => 0

/-- Whether HBM is paced to 50 % by class and mode (R345). -/
def State.paced (s : State) : Bool := s.dim.cls = 0 && bits s.dim.ctlAct.toNat 31 30 ≠ 0

/-- A stack block (Table 11-8). -/
def stackValue (k o : Nat) (s : State) : BitVec 32 :=
  let x := s.stack k
  match o with
  | 0x00 => BitVec.ofNat 32 (k * 2 ^ 24 + x.owner.getD 0xFF * 2 ^ 16 + 0x6000)
  | 0x04 => BitVec.ofNat 32 (b2n x.keyValid * 2 ^ 31 + b2n x.rekeying * 2 ^ 30 + b2n x.hot * 2 ^ 29 + b2n s.paced * 2 ^ 28 + x.temp.toNat * 2 ^ 16)
  | 0x08 => x.ctl
  | 0x0C => x.ctlAct
  | 0x10 => BitVec.ofNat 32 (x.stgBase.toNat * 2 ^ 16 + x.stgSize.toNat)
  | 0x14 => BitVec.ofNat 32 (b2n x.rekeying * 2 ^ 31 + x.gen.toNat)
  | 0x18 => x.ce
  | 0x1C => x.ue
  | 0x20 => x.ueAddr
  | 0x28 => x.g16aRange
  | 0x2C => x.copyPoison
  | 0x30 => hi64 x.rd.toNat
  | 0x34 => lo64 x.rd.toNat
  | 0x38 => hi64 x.wr.toNat
  | 0x3C => lo64 x.wr.toNat
  | 0x40 => hi64 x.narrow.toNat
  | 0x44 => lo64 x.narrow.toNat
  | _ => 0

/-- The partition's HBM registers (Table 11-9). -/
def hbmPartValue (p o : Nat) (s : State) : BitVec 32 :=
  let q := s.part p
  if o < 0x20 then sget 0 (o / 4) q.iwin
  else if 0x40 ≤ o && o < 0x60 then sget 0 ((o - 0x40) / 4) q.iwinAct
  else match o with
  | 0x20 => q.imapResult.zeroExtend 32
  | 0x24 => BitVec.ofNat 32 (s.psize p / 2 ^ 30)
  | 0x28 => q.g16aExp.zeroExtend 32
  | _ => 0

/-- An update engine (Table 12-10). -/
def engineValue (k o : Nat) (s : State) : BitVec 32 :=
  let x := s.stack k
  let e := x.eng
  if 0x100 ≤ o && o < 0x1C0 then sget 0 ((o - 0x100) / 4) e.jobRegs
  else match o with
  | 0x00 => BitVec.ofNat 32 (k * 2 ^ 24 + x.owner.getD 0xFF * 2 ^ 16 + 0x4080)
  | 0x04 => BitVec.ofNat 32 (b2n e.busy * 2 ^ 31 + b2n e.halted * 2 ^ 30 + b2n (e.phase = 1) * 2 ^ 29
      + b2n e.reducing.isSome * 2 ^ 28 + b2n x.wsq.inf * 2 ^ 27 + e.queue.length)
  | 0x0C => e.progAddr.zeroExtend 32
  | 0x10 => sget 0 e.progAddr.toNat e.prog
  | 0x14 => e.doorbell.zeroExtend 32
  | 0x18 => BitVec.ofNat 32 (b2n e.faultValid * 2 ^ 31 + e.faultCode.toNat)
  | 0x1C => e.faultGroup
  | 0x20 => e.hole
  | 0x24 => e.late
  | 0x28 => e.satblk
  | 0x30 => hi64 e.elems.toNat
  | 0x34 => lo64 e.elems.toNat
  | 0x38 => hi64 e.wsqF64.toNat
  | 0x3C => lo64 e.wsqF64.toNat
  | _ => 0

/-- A word of LP_COLL[n]. -/
def Coll.word (d : Coll) (j : Nat) : BitVec 32 :=
  match j with
  | 0 => d.w0
  | 1 => d.w1
  | 2 => d.w2
  | 3 => d.w3
  | 4 => d.w4
  | 5 => BitVec.ofNat 32 (d.state.toNat * 2 ^ 30 + d.fault.toNat)
  | _ => 0

/-- A port (Table 14-9). -/
def portValue (who : Who) (p o : Nat) (s : State) : BitVec 32 :=
  let x := s.port p
  if 0x800 ≤ o then (s.coll p ((o - 0x800) / 32)).word (o % 32 / 4)
  else match o with
  | 0x00 => BitVec.ofNat 32 (p * 2 ^ 24 + x.owner.getD 0xFF * 2 ^ 16 + 0x1000)
  | 0x04 => BitVec.ofNat 32 (x.link.toNat * 2 ^ 29 + b2n x.spliced * 2 ^ 28 + b2n x.coasted * 2 ^ 27 + b2n x.broken * 2 ^ 26
      + b2n x.holding * 2 ^ 25 + x.lanes * 2 ^ 20 + x.laneOk.toNat)
  | 0x08 => x.ctl &&& 0xBFFFFFFF
  | 0x0C => x.ctlAct
  | 0x10 => x.ring
  | 0x14 => x.ringAct
  | 0x18 => BitVec.ofNat 32 (s.sel who (8 + p))
  | 0x1C => (let e := (sget 0 (s.sel who (8 + p)) x.map).toNat
     BitVec.ofNat 32 (e / 128 * 2 ^ 31 + e % 128))
  | 0x20 => x.rev
  | 0x24 => x.replay
  | 0x28 => x.ttlDrop
  | 0x2C => x.holes
  | 0x30 => x.lates
  | 0x34 => x.discard
  | 0x38 => x.markLost
  | 0x40 => hi64 x.fecCe.toNat
  | 0x44 => lo64 x.fecCe.toNat
  | 0x48 => hi64 x.revs.toNat
  | 0x4C => lo64 x.revs.toNat
  | 0x50 => hi64 x.data.toNat
  | 0x54 => lo64 x.data.toNat
  | _ => 0

/-- INTEGRITY (Table 18-9). -/
def integrityValue (who : Who) (o : Nat) (s : State) : BitVec 32 :=
  let n := s.sel who 2
  let w := s.win n
  if 0x200 ≤ o && o < 0x240 then
    (if o % 8 = 0 then sget 0 ((o - 0x200) / 8) s.winPortId else sget 0 ((o - 0x200) / 8) s.winPortBase)
  else match o with
  | 0x00 => s.integ.sealErr
  | 0x04 => s.integ.sentMismatch
  | 0x08 => s.integ.sentLast
  | 0x10 => hi64 s.integ.sealMade.toNat
  | 0x14 => lo64 s.integ.sealMade.toNat
  | 0x18 => hi64 s.integ.sentChecks.toNat
  | 0x1C => lo64 s.integ.sentChecks.toNat
  | 0x100 => BitVec.ofNat 32 n
  | 0x104 => BitVec.ofNat 32 (w.state.toNat * 2 ^ 30 + b2n w.peer * 2 ^ 27 + b2n w.host * 2 ^ 26 + w.part.toNat * 2 ^ 16 + w.gen.toNat)
  | 0x108 => s.loHalf who 3 n w.base
  | 0x10C => hi64 w.base.toNat
  | 0x110 => w.len
  | 0x120 => s.integ.winStale
  | 0x124 => s.integ.winRefused
  | _ => 0

/-- The fault-record mailbox of an accessor's function. -/
def State.frBox (s : State) : Who → FrBox
  | .vf p => sget {} p.toNat s.frVf
  | _ => s.frPf

/-- A word of the event-log entry in the slot that EL_SEL names; in a virtual function's view an entry of another partition
reads as zero apart from SEQ (R523). -/
def State.elData (s : State) (who : Who) (j : Nat) : BitVec 32 :=
  let e := (sget 0 (s.sel who 3) s.el).toNat
  let hidden : Bool := match who with
    | .vf p => bits e 111 104 ≠ p.toNat
    | _ => false
  if hidden && j ≠ 7 then 0 else BitVec.ofNat 32 (bits e (32 * j + 31) (32 * j))

/-- Whether an accessor is a virtual function. -/
def Who.virtual : Who → Bool
  | .vf _ => true
  | _ => false

/-- EVENT LOG and fault-record mailbox (Table 18-10). -/
def eventValue (who : Who) (o : Nat) (s : State) : BitVec 32 :=
  let b := s.frBox who
  let head := b.recs.headD []
  let vf := Who.virtual who
  if 0x20 ≤ o && o < 0x40 then s.elData who ((o - 0x20) / 4)
  else if 0x1000 ≤ o && o < 0x2000 then BitVec.ofNat 32 (leNat ((head.drop (o - 0x1000)).take 4))
  else match o with
  | 0x00 => hi64 s.elSeq.toNat
  | 0x04 => lo64 s.elSeq.toNat
  | 0x08 => if vf then 0 else s.loHalf who 4 0 s.elRd
  | 0x0C => if vf then 0 else hi64 s.elRd.toNat
  | 0x10 => if vf then 0 else s.elLost
  | 0x14 => BitVec.ofNat 32 (s.sel who 3)
  | 0x100 => BitVec.ofNat 32 (b2n (b.recs ≠ []) * 2 ^ 31 + b.recs.length * 2 ^ 16 + head.length)
  | 0x108 => b.lost
  | _ => 0

/-- LMC MAILBOX (Table 19-9). -/
def lmcValue (o : Nat) (s : State) : BitVec 32 :=
  if 0x1000 ≤ o then BitVec.ofNat 32 (readLE s.lmc.buf (o - 0x1000) 4)
  else match o with
  | 0x00 => s.lmc.cmd &&& 0xFF00FFFF
  | 0x04 => s.lmc.arg
  | 0x08 => BitVec.ofNat 32 (b2n s.lmc.busy * 2 ^ 31 + s.lmc.result.toNat * 2 ^ 16)
  | _ => 0

/-- The reader of a tile window. -/
def readerOf : Who → Reader
  | .lmc => .lmc
  | _ => .host

/-- The value of the register at a BAR0 offset below 0x0040_0000, without side effects (R488, R491). -/
def regValue (who : Who) (a : Nat) (s : State) : BitVec 32 :=
  let o := a % 65536
  if !s.inView who a then 0
  else if 0x100000 ≤ a then
    (if a < 0x180000 then csrValue (readerOf who) (BitVec.ofNat 11 (a % 0x80000 / 256)) (a % 256 / 4) s else 0)
  else match a / 65536 with
  | 0 => globalValue who o s
  | 1 => resetValue o s
  | 2 => dimmerValue o s
  | 3 => partitionValue o s
  | 4 => sideboardValue who o s
  | 5 => syncValue who o s
  | 6 => if o < 0xC000 then stackValue (o / 4096) (o % 4096) s else hbmPartValue (s.partSel who) (o - 0xC000) s
  | 7 => if o < 0xC000 then engineValue (o / 4096) (o % 4096) s else 0
  | 8 => if o < 0x8000 then portValue who (o / 4096) (o % 4096) s else 0
  | 9 => integrityValue who o s
  | 10 => eventValue who o s
  | 11 => lmcValue o s
  | 12 => if o < 0x1000 then sget 0 (o / 4) s.flags else 0
  | _ => 0

/-! ### The bit alias (R500) -/

/-- The flag word and bit that a bit-alias offset reaches. -/
def flagOf (a : Nat) : Nat × Nat := ((a - 0x400000) / 4 / 32, (a - 0x400000) / 4 % 32)

/-- Whether an accessor's view holds a flag word. -/
def State.flagInView (s : State) (who : Who) (w : Nat) : Bool := s.inView who (0xC0000 + 4 * w)

/-- A flag word written: reserved bits of FLAG_EVENT stay 0. DEDUCED, unsafe: assumption 28. -/
def State.writeFlag (s : State) (w : Nat) (v : BitVec 32) : State :=
  { s with flags := sput 0 w (if w % 32 = 0 then v &&& 0x3F else v) s.flags }

/-- A write of one flag; a reserved bit of FLAG_EVENT stays 0. -/
def State.writeFlagBit (s : State) (w b : Nat) (on : Bool) : State :=
  let old := sget 0 w s.flags
  let m := BitVec.ofNat 32 (2 ^ b)
  if w % 32 = 0 && 6 ≤ b then s
  else { s with flags := sput 0 w (if on then old ||| m else old &&& ~~~m) s.flags }

/-! ### Reads with their effects (R11, R489) -/

/-- SYNC_ERR counts one. -/
def State.countSyncErr (s : State) (p : Nat) : State := s.modPart p (fun q => { q with syncErr := satInc q.syncErr })

/-- What a read of a register changes: RC and SAT registers clear, and SYNC_VALUE and SYNC_BAR through an unmapped ID count
in SYNC_ERR. -/
def readEffect (who : Who) (a : Nat) (s : State) : State :=
  let o := a % 65536
  let p := s.partSel who
  if !s.inView who a then s
  else if 0x100000 ≤ a then
    (if a < 0x180000 then s.modTile (BitVec.ofNat 11 (a % 0x80000 / 256)) (csrClear (readerOf who) (a % 256 / 4)) else s)
  else match a / 65536 with
  | 0 => if o = 0x30 then { s with badAccess := sput 0 (accessor who) 0 s.badAccess } else s
  | 1 => if o = 0x14 then { s with start := { s.start with cause := 0 } } else s
  | 2 => if o = 0x14 then { s with dim := { s.dim with throttle := 0 } } else s
  | 5 =>
    if (o = 0x14 || o = 0x18) && (s.selObj who).isNone then s.countSyncErr p
    else if o = 0x20 then s.modPart p (fun q => { q with syncErr := 0 })
    else if o = 0x24 then s.modPart p (fun q => { q with msgStuck := 0 })
    else s
  | 6 =>
    if 0xC000 ≤ o then s
    else s.modStack (o / 4096) (fun x => match o % 4096 with
      | 0x18 => { x with ce := 0 }
      | 0x1C => { x with ue := 0 }
      | 0x28 => { x with g16aRange := 0 }
      | 0x2C => { x with copyPoison := 0 }
      | _ => x)
  | 7 =>
    if 0xC000 ≤ o then s
    else s.modEngine (o / 4096) (fun e => match o % 4096 with
      | 0x18 => { e with faultValid := false, faultCode := 0 }
      | 0x20 => { e with hole := 0 }
      | 0x24 => { e with late := 0 }
      | 0x28 => { e with satblk := 0 }
      | _ => e)
  | 8 =>
    if 0x8000 ≤ o then s
    else s.modPort (o / 4096) (fun x => match o % 4096 with
      | 0x24 => { x with replay := 0 }
      | 0x28 => { x with ttlDrop := 0 }
      | 0x2C => { x with holes := 0 }
      | 0x30 => { x with lates := 0 }
      | 0x34 => { x with discard := 0 }
      | 0x38 => { x with markLost := 0 }
      | _ => x)
  | 9 => { s with integ := match o with
      | 0x00 => { s.integ with sealErr := 0 }
      | 0x04 => { s.integ with sentMismatch := 0 }
      | 0x120 => { s.integ with winStale := 0 }
      | 0x124 => { s.integ with winRefused := 0 }
      | _ => s.integ }
  | 10 =>
    if o = 0x10 && !Who.virtual who then { s with elLost := 0 }
    else if o = 0x108 then (match who with
      | .vf q => { s with frVf := sput {} q.toNat { s.frBox who with lost := 0 } s.frVf }
      | _ => { s with frPf := { s.frPf with lost := 0 } })
    else s
  | _ => s

/-- A read of a BAR0 register: its value, and the effects of the read. The bit alias gives its flag in bit 0; other aliases
read as zero (R498, R500). -/
def regRead (who : Who) (off : Nat) (s : State) : State :=
  let a := off / 4 * 4
  if !s.reaches who then s
  else if a < 0x400000 then { readEffect who a s with reply := [(regValue who a s).zeroExtend 64] }
  else if a < 0x420000 then
    (let f := flagOf a
     { s with reply := [if s.flagInView who f.1 && (sget 0 f.1 s.flags).getLsbD f.2 then 1 else 0] })
  else { s with reply := [0] }

/-! ### Writes, block by block -/

/-- A write of RESET/START with another key, or while a request is in progress, changes nothing but RESULT (R502). -/
def resetRefuse (o : Nat) (s : State) : State :=
  match o with
  | 0x00 => { s with start := { s.start with ctlResult := 2 } }
  | 0x04 => { s with start := { s.start with partResult := 2 } }
  | 0x08 => { s with start := { s.start with tileResult := 2 } }
  | _ => s

/-- RESET/START (R502). -/
def resetWrite (o : Nat) (v : BitVec 32) (s : State) : State :=
  if bits v.toNat 15 8 ≠ 0x5A || s.restartBusy then resetRefuse o s
  else match o with
  | 0x00 => if v.getLsbD 31 then warmRestartRequest s else if v.getLsbD 30 then lmcRestart s else s
  | 0x04 =>
    let p : BitVec 5 := v.extractLsb' 16 5
    if v.getLsbD 31 then partitionReset p s else { s with start := { s.start with part := p } }
  | 0x08 =>
    let t : TileId := v.extractLsb' 16 11
    if v.getLsbD 31 then tileReset t s else { s with start := { s.start with tile := t } }
  | _ => s

/-- DIM_CTL: a reserved PERF leaves the pending one (R542). -/
def dimCtlWrite (v : BitVec 32) (s : State) : State :=
  let perf := if bits v.toNat 31 30 = 3 then s.dim.ctl &&& 0xC0000000 else v &&& 0xC0000000
  { s with dim := { s.dim with ctl := perf ||| (v &&& 0x20000FFF) } }

/-- DIMMER. -/
def dimmerWrite (o : Nat) (v : BitVec 32) (s : State) : State :=
  match o with
  | 0x08 => dimCtlWrite v s
  | 0x0C => wakeBudgetWrite v s
  | 0x10 => { s with dim := { s.dim with thresh := v } }
  | _ => s

/-- Change the tiles that tasks of a partition hold. -/
def State.modHeldTiles (s : State) (p : Nat) (f : Tile → Tile) : State :=
  { s with tiles := s.tiles.map (fun c => if c.2.assigned && (s.run c.2.task).part = p then (c.1, f c.2) else c) }

/-- MODE[p]: a reserved DET or INTEG leaves the pending setting of that mode (R542); a tile that no task holds takes it at once (Table 17-3). -/
def modeWrite (p : Nat) (v : BitVec 32) (s : State) : State :=
  let old := (s.part p).mode
  let keep : BitVec 32 := (if bits v.toNat 31 30 = 3 then 0xC0000000 else 0) ||| (if bits v.toNat 28 27 = 3 then 0x18000000 else 0)
  let m := (v &&& 0xFF000000 &&& ~~~keep) ||| (old &&& keep)
  ((s.modHeldTiles p (fun x => { x with modeHeld := heldSetting old m x.modeHeld })).modPart p
    (fun q => { q with mode := m })).inForce p

/-- PARTITION. -/
def partitionWrite (o : Nat) (v : BitVec 32) (s : State) : State :=
  if o = 0x10 then s.rebindRequest (v &&& 0xFFC00000)
  else if o = 0x14 then { s with rebind := { s.rebind with mask := v } }
  else if 0x100 ≤ o && o < 0x500 then
    (let p := (o - 0x100) / 32
     match o % 32 with
     | 0x00 => s.modPart p (fun q => { q with rerunMax := v.truncate 4 })
     | 0x0C => partSyncWrite p (v &&& 0x7FFFFFFF) s
     | 0x10 => partRecmaxWrite p v s
     | 0x18 => s.modPart p (fun q => { q with ctxAddr := v })
     | 0x1C => s.modPart p (fun q => { q with ctxSize := v })
     | _ => s)
  else if 0x800 ≤ o && o < 0x900 && o % 8 = 0 then modeWrite ((o - 0x800) / 8) v s
  else s

/-- SB_CTL.ENABLE = 1: the configuration is checked (R505). -/
def sbEnable (p : Nat) (s : State) : State :=
  let q := s.sb p
  if q.enable then s
  else if q.subqBase.toNat % 4096 = 0 && q.cplqBase.toNat % 4096 = 0 && q.nblBase.toNat % 65536 = 0
      && 4 ≤ q.subqSize && q.subqSize ≤ 16 && 6 ≤ q.cplqSize && q.cplqSize ≤ 20 then
    s.modSb p (fun q => { q with enable := true, cfgErr := false, subqHead := 0, subqTail := 0, cplqHead := 0, cplqTail := 0, phase := true })
  else s.modSb p (fun q => { q with cfgErr := true })

/-- SB_CTL.ENABLE = 0 stops admission (R505). -/
def sbDisable (p : Nat) (s : State) : State := s.modSb p (fun q => { q with enable := false })

/-- SB_SUBQ_TAIL; an index at or above the size is ignored (R506). -/
def sbSubqTail (p : Nat) (v : BitVec 20) (s : State) : State :=
  if 2 ^ (s.sb p).subqSize.toNat ≤ v.toNat then s else s.modSb p (fun q => { q with subqTail := v })

/-- SB_CPLQ_HEAD (R506). -/
def sbCplqHead (p : Nat) (v : BitVec 20) (s : State) : State :=
  if 2 ^ (s.sb p).cplqSize.toNat ≤ v.toNat then s else s.modSb p (fun q => { q with cplqHead := v })

/-- A _HI write of a SIDEBOARD pair, which ENABLE = 1 ignores (R495, R505). -/
def sbPairWrite (who : Who) (p pair : Nat) (hi : BitVec 32) (s : State) : State :=
  let q := s.sb p
  let old := if pair = 0 then q.subqBase else if pair = 1 then q.cplqBase else q.nblBase
  let v := s.pairValue who pair p old hi
  if q.enable then s
  else (s.dropLo who pair p).modSb p (fun q =>
    if pair = 0 then { q with subqBase := v } else if pair = 1 then { q with cplqBase := v } else { q with nblBase := v })

/-- SIDEBOARD. -/
def sideboardWrite (who : Who) (o : Nat) (v : BitVec 32) (s : State) : State :=
  let p := s.partSel who
  let on := (s.sb p).enable
  match o with
  | 0x00 => if v.getLsbD 0 then sbEnable p s else sbDisable p s
  | 0x10 => if on then s else s.holdLo who 0 p v
  | 0x14 => sbPairWrite who p 0 v s
  | 0x18 => if on then s else s.modSb p (fun q => { q with subqSize := v.truncate 5 })
  | 0x1C => sbSubqTail p (v.truncate 20) s
  | 0x28 => if on then s else s.holdLo who 1 p v
  | 0x2C => sbPairWrite who p 1 v s
  | 0x30 => if on then s else s.modSb p (fun q => { q with cplqSize := v.truncate 5 })
  | 0x34 => sbCplqHead p (v.truncate 20) s
  | 0x40 => if on then s else s.holdLo who 2 p v
  | 0x44 => sbPairWrite who p 2 v s
  | _ => s

/-- Whether a physical index lies in a partition's share of the pool (R286, R431). -/
def State.inShare (s : State) (p o : Nat) : Bool :=
  let q := s.part p
  if o < 16384 then q.blocks.getLsbD (o / 512) else q.syncBase.toNat ≤ o && o < q.syncBase.toNat + q.syncCount.toNat

/-- SYNC_XLATE[n] of a partition: an entry outside the share, or with LAMP below the root, is ignored and counted; a virtual
function's write is ignored (R284, R286). -/
def syncXlateWrite (who : Who) (n : Nat) (v : BitVec 32) (s : State) : State :=
  let p := s.partSel who
  let o := v.toNat % 2 ^ 15
  if Who.virtual who || !s.reaches who || !s.inView who 0x51000 then s
  else if v.getLsbD 31 && (!s.inShare p o || (v.getLsbD 30 && o < 28672)) then s.countSyncErr p
  else { s with xlate := sput 0 (4096 * p + n % 4096) (v &&& 0xC0007FFF) s.xlate }

/-- SYNC_SIG: INC is added to the selected object, or counted where the ID is unmapped (R268). -/
def syncSigWrite (who : Who) (v : BitVec 16) (s : State) : State :=
  if !s.reaches who || !s.inView who 0x5001C then s
  else match s.selObj who with
    | some o => s.sendInc o v.toNat .host
    | none => s.countSyncErr (s.partSel who)

/-- SYNC. -/
def syncWrite (who : Who) (o : Nat) (v : BitVec 32) (s : State) : State :=
  let p := s.partSel who
  if 0x1000 ≤ o && o < 0x5000 then syncXlateWrite who ((o - 0x1000) / 4) v s
  else match o with
  | 0x00 =>
    let m := v &&& 0x00FFFFFF
    let old := (s.part p).wdog
    ((s.modHeldTiles p (fun x => { x with wdogHeld := heldSetting old m x.wdogHeld })).modPart p (fun q => { q with wdog := m })).inForce p
  | 0x10 => s.setSel who 1 (v.toNat % 4096)
  | 0x1C => syncSigWrite who (v.truncate 16) s
  | _ => s

/-- HBM_CTL: a reserved mode, a period outside 8–64 or a phase not below the period leaves the pending value. -/
def hbmCtlOk (v : BitVec 32) : Bool :=
  let per := bits v.toNat 15 8
  bits v.toNat 31 30 ≤ 1 && 8 ≤ per && per ≤ 64 && bits v.toNat 7 0 < per

/-- A stack block; HBM_STG_WIN and HBM_KEYCTL are written by the physical function only. -/
def stackWrite (who : Who) (k o : Nat) (v : BitVec 32) (s : State) : State :=
  match o with
  | 0x08 => if hbmCtlOk v then s.modStack k (fun x => { x with ctl := v &&& 0xC000FFFF }) else s
  | 0x10 => if Who.virtual who then s else hbmStgWinWrite k v s
  | 0x14 => if Who.virtual who || !v.getLsbD 31 then s else startRekey k s
  | _ => s

/-- The partition's HBM registers, written by the physical function only. -/
def hbmPartWrite (who : Who) (o : Nat) (v : BitVec 32) (s : State) : State :=
  let p := s.partSel who
  if Who.virtual who then s
  else if o < 0x20 then s.modPart p (fun q => { q with iwin := sput 0 (o / 4) (v &&& 0xFF800FFF) q.iwin })
  else if o = 0x20 then (if v.getLsbD 31 then hbmImapCommit p s else s)
  else if o = 0x28 then s.modPart p (fun q => { q with g16aExp := v.truncate 8 })
  else s

/-- UE_CTL. -/
def ueCtlWrite (k : Nat) (v : BitVec 32) (s : State) : State :=
  s.modStack k (fun x =>
    let x1 := if v.getLsbD 29 then x.snap else x
    let x2 := if v.getLsbD 31 then x1.clrWsq else x1
    let x3 := if v.getLsbD 30 then { x2 with eng := x2.eng.clrX } else x2
    let x4 := if v.getLsbD 1 then { x3 with eng := x3.eng.abort } else x3
    if v.getLsbD 0 then { x4 with eng := x4.eng.resume } else x4)

/-- An update engine. -/
def engineWrite (k o : Nat) (v : BitVec 32) (s : State) : State :=
  if 0x100 ≤ o && o < 0x1C0 then s.modEngine k (fun e => { e with jobRegs := sput 0 ((o - 0x100) / 4) v e.jobRegs })
  else match o with
  | 0x08 => ueCtlWrite k v s
  | 0x0C => s.modEngine k (fun e => { e with progAddr := v.truncate 8 })
  | 0x10 => s.modEngine k (fun e => e.progData v)
  | 0x14 => ueDoorbell k s
  | _ => s

/-- A port; LP_RING and LP_MAP are read only in a virtual function's view. -/
def portWrite (who : Who) (p o : Nat) (v : BitVec 32) (s : State) : State :=
  if 0x800 ≤ o then s.writeColl p ((o - 0x800) / 32) (o % 32 / 4) v
  else match o with
  | 0x08 => s.writeLpCtl p who v
  | 0x10 => if Who.virtual who then s else s.writeRing p v
  | 0x18 => s.setSel who (8 + p) (v.toNat % 128)
  | 0x1C => if Who.virtual who then s else s.writeMap p (s.sel who (8 + p)) v
  | _ => s

/-- WIN_CFG: PEER, HOST and PART on a CLOSED entry, then CMD (R524, R528). -/
def winCfgWrite (n : Nat) (v : BitVec 32) (s : State) : State :=
  let w := s.win n
  let s1 := if w.state = 0 then
      s.setWin n { w with peer := v.getLsbD 27, host := v.getLsbD 26, part := v.extractLsb' 16 5 } else s
  let cmd := bits v.toNat 29 28
  if cmd = 1 then s1.winOpen n else if cmd = 2 then s1.winClose n else s1

/-- INTEGRITY. -/
def integrityWrite (who : Who) (o : Nat) (v : BitVec 32) (s : State) : State :=
  let n := s.sel who 2
  let w := s.win n
  if 0x200 ≤ o && o < 0x240 then
    (let k := (o - 0x200) / 8
     if o % 8 = 0 then { s with winPortId := sput 0 k (v &&& 0x0FFFFFFF) s.winPortId }
     else { s with winPortBase := sput 0 k v s.winPortBase })
  else match o with
  | 0x100 => s.setSel who 2 (v.toNat % 4096)
  | 0x104 => winCfgWrite n v s
  | 0x108 => if w.state = 0 then s.holdLo who 3 n v else s
  | 0x10C => if w.state = 0 then (s.dropLo who 3 n).setWin n { w with base := s.pairValue who 3 n w.base v } else s
  | 0x110 => if w.state = 0 then s.setWin n { w with len := v } else s
  | _ => s

/-- FR_POP: the head record of the function's mailbox is removed (R520). -/
def frPop (who : Who) (s : State) : State :=
  if !s.reaches who || !s.inView who 0xA0104 then s
  else match who with
    | .vf p => { s with frVf := sput {} p.toNat ((s.frBox who).pop) s.frVf }
    | _ => { s with frPf := s.frPf.pop }

/-- EVENT LOG. -/
def eventWrite (who : Who) (o : Nat) (v : BitVec 32) (s : State) : State :=
  match o with
  | 0x08 => if Who.virtual who then s else s.holdLo who 4 0 v
  | 0x0C => if Who.virtual who then s else (s.dropLo who 4 0).setElRd (s.pairValue who 4 0 s.elRd v)
  | 0x14 => s.setSel who 3 (v.toNat % 4096)
  | 0x104 => if v.getLsbD 0 then frPop who s else s
  | _ => s

/-- LMC MAILBOX. -/
def lmcWrite (o : Nat) (v : BitVec 32) (s : State) : State :=
  if 0x1000 ≤ o then { s with lmc := { s.lmc with buf := writeLE s.lmc.buf (o - 0x1000) 4 v.toNat } }
  else match o with
  | 0x00 => s.writeLmcCmd (v &&& 0xFF00FFFF)
  | 0x04 => { s with lmc := { s.lmc with arg := v } }
  | _ => s

/-- A plain write of the register at a BAR0 offset below 0x0040_0000. -/
def plainWrite (who : Who) (a : Nat) (v : BitVec 32) (s : State) : State :=
  let o := a % 65536
  if !s.inView who a then s
  else if 0x100000 ≤ a then
    (if a < 0x180000 then csrWrite (readerOf who) (BitVec.ofNat 11 (a % 0x80000 / 256)) (a % 256 / 4) v s else s)
  else match a / 65536 with
  | 0 => if o = 0x20 && !Who.virtual who then s.setSel who 0 (v.toNat % 32) else s
  | 1 => resetWrite o v s
  | 2 => dimmerWrite o v s
  | 3 => partitionWrite o v s
  | 4 => sideboardWrite who o v s
  | 5 => syncWrite who o v s
  | 6 => if o < 0xC000 then stackWrite who (o / 4096) (o % 4096) v s else hbmPartWrite who (o - 0xC000) v s
  | 7 => if o < 0xC000 then engineWrite (o / 4096) (o % 4096) v s else s
  | 8 => if o < 0x8000 then portWrite who (o / 4096) (o % 4096) v s else s
  | 9 => integrityWrite who o v s
  | 10 => eventWrite who o v s
  | 11 => lmcWrite o v s
  | 12 => if o < 0x1000 then s.writeFlag (o / 4) v else s
  | _ => s

/-- The three alias operations: 1 SET, 2 CLEAR, 3 TOGGLE (R496). -/
def aliasOf (op : Nat) (v m : BitVec 32) : BitVec 32 :=
  if op = 1 then v ||| m else if op = 2 then v &&& ~~~m else v ^^^ m

/-- A write through an alias: the result for the register's value is written as a plain write (R496, R497). -/
def aliasWrite (op : Nat) (who : Who) (a : Nat) (m : BitVec 32) (s : State) : State :=
  if s.reaches who && a < 0x100000 then plainWrite who a (aliasOf op (regValue who a s) m) s else s

/-- A write of one flag through the bit alias, from a view that holds it. -/
def flagBitWrite (who : Who) (w b : Nat) (on : Bool) (s : State) : State :=
  if s.reaches who && s.flagInView who w then s.writeFlagBit w b on else s

/-- A 32-bit write at any BAR0 offset. -/
def regWrite (who : Who) (off : Nat) (v : BitVec 32) (s : State) : State :=
  let a := off / 4 * 4
  if !s.reaches who then s
  else if a < 0x400000 then plainWrite who a v s
  else if a < 0x420000 then flagBitWrite who (flagOf a).1 (flagOf a).2 (v.getLsbD 0) s
  else if 0x1000000 ≤ a then aliasWrite (a / 0x1000000) who (a % 0x1000000) v s
  else s

/-! ### The registers that have rows of their own -/

/-- REGISTER_WRITE (R489): a 64-bit write is served as two writes, the lower offset first. -/
def registerWrite (w : RegWrite) (s : State) : State :=
  match w with
  | .bar0 who off v => regWrite who off.toNat v s
  | .wide who off v => regWrite who (off.toNat + 4) (v.extractLsb' 32 32) (regWrite who off.toNat (v.truncate 32) s)
  | .short who _ =>
    if s.reaches who then { s with badAccess := sput 0 (accessor who) (satInc (sget 0 (accessor who) s.badAccess)) s.badAccess } else s
  | .hdm i d => if s.ioUp 0 then writeHdm i.toNat d s else s
  | .hdmCommit i on => if s.ioUp 0 then commitHdm i.toNat on s else s
  | .ats fn on => if !s.ioUp fn.toNat then s else { s with cxl := { s.cxl with
      ats := sput false fn.toNat on s.cxl.ats
      atc := if on then s.cxl.atc else s.cxl.atc.filter (fun e => e.1 ≠ fn.toNat) } }

/-- A register of the vendor DVSEC (Chapter 16). -/
def dvsecValue (o : Nat) (s : State) : BitVec 32 :=
  let c := s.cxl
  match o with
  | 0x48C => BitVec.ofNat 32 (0x20001A + b2n c.ready * 2 ^ 15)
  | 0x490 => BitVec.ofNat 32 (c.rate.toNat * 2 ^ 28 + c.width.toNat * 2 ^ 22 + b2n c.reversed * 2 ^ 21 + b2n (c.ideIo ≠ 0) * 2 ^ 20
      + b2n c.ideCm * 2 ^ 19)
  | 0x494 => c.unowned
  | 0x498 => c.xlateErr
  | 0x49C => s.biFull
  | _ => 0

/-- What a read of the vendor DVSEC clears. -/
def dvsecEffect (o : Nat) (s : State) : State :=
  match o with
  | 0x494 => { s with cxl := { s.cxl with unowned := 0 } }
  | 0x498 => { s with cxl := { s.cxl with xlateErr := 0 } }
  | 0x49C => { s with biFull := 0 }
  | _ => s

/-! ### Configuration space and BAR2 (R460, R464, R472, Table 16-8) -/

/-- Where a structure begins that Table 16-8 puts behind another at one offset: 0 Data Link Feature behind 0x1A0, 1 Physical Layer 64.0
GT/s, 2 Physical Layer 128.0 GT/s and 3 Lane Margining behind 0x1C0. PRESUMED, safe: assumption 25. -/
def capOff (k : Nat) : Nat :=
  if k = 0 then 0x1A4 + 4 * ((Config.capPlace 0).toNat % 7) else 0x170 + 0x60 * k + 4 * ((Config.capPlace k).toNat % 24)

/-- Those structures: offset, capability ID, and the offset of the next. -/
def laterCaps : List (Nat × Nat × Nat) :=
  [(capOff 0, 0x25, 0x1C0), (capOff 1, 0x31, capOff 2), (capOff 2, Config.phy128Id.toNat, capOff 3), (capOff 3, 0x27, 0x300)]

/-- The extended capabilities of a function in order: offset and capability ID (Table 16-8). The IDs are those of PCIe; where the
table puts several structures at one offset, the first. PRESUMED, unsafe: assumption 25. -/
def extCaps (fn : Nat) : List (Nat × Nat) :=
  if fn = 0 then
    [(0x100, 0x01), (0x148, 0x0E), (0x150, 0x10), (0x190, 0x0F), (0x1A0, 0x19), (0x1C0, 0x2A), (0x300, 0x2E), (0x340, 0x30),
      (0x400, 0x23), (0x440, 0x23), (0x460, 0x23), (0x480, 0x23)]
  else [(0x148, 0x0E), (0x190, 0x0F)]

/-- The capabilities of the first 256 bytes: Power Management, PCI Express, MSI-X. -/
def caps (fn : Nat) : List (Nat × Nat) := if fn = 0 then [(0x40, 0x01), (0x50, 0x10), (0x90, 0x11)] else [(0x50, 0x10), (0x90, 0x11)]

/-- What follows the entry at an offset in a list of capabilities; 0 ends it. -/
def capNext : List (Nat × Nat) → Nat → Nat
  | a :: b :: r, o => if a.1 = o then b.1 else capNext (b :: r) o
  | _, _ => 0

/-- A word of configuration space with the bits from `lo` up to `hi` replaced; the others are those of the standards. -/
def setField (w : BitVec 32) (hi lo v : Nat) : BitVec 32 :=
  BitVec.ofNat 32 (w.toNat - bits w.toNat hi lo * 2 ^ lo + v % 2 ^ (hi + 1 - lo) * 2 ^ lo)

/-- Words of configuration space that the tables of this specification lay out, with the capability bits that Table 16-1 supports or does
not: each field as its bits and its value. The places of those bits are those of PCIe and CXL. PRESUMED, unsafe: assumption 25. -/
def configFields (s : State) (fn o : Nat) : List (Nat × Nat × Nat) :=
  match (caps fn).find? (fun c => c.1 = o), (extCaps fn).find? (fun c => c.1 = o) with
  | some c, _ => (7, 0, c.2) :: (15, 8, capNext (caps fn) o) :: (if o = 0x90 then [(26, 16, if fn = 0 then 35 else 3)] else [])
  | none, some c =>
    [(15, 0, c.2), (31, 20, if o = 0x1A0 then capOff 0 else if o = 0x1C0 then capOff 1 else capNext (extCaps fn) o)]
  | none, none =>
    if o = 0x34 then [(7, 0, (((caps fn).map (·.1)).headD 0))]
    else if o = 0x194 then [(31, 31, b2n (sget false fn s.cxl.ats))]
    else if fn ≠ 0 then []
    else if o = 0 then [(15, 0, 0x1F6C), (31, 16, 0x4B34)]
    else if o = 8 then [(31, 8, 0x120000)]
    else if o = 0x5C then [(3, 0, 7), (9, 4, 16)]
    else if o = 0x104 then [(28, 28, b2n (s.cxl.aer ≠ 0))]
    else if o = 0x15C then [(15, 0, 32), (31, 16, 32)]
    else if o = 0x164 then [(15, 0, 1), (31, 16, 1)]
    else if o = 0x168 then [(31, 16, 0x4B35)]
    else if 0x1A4 ≤ o && o < 0x300 then (match laterCaps.find? (fun c => c.1 = o) with
      | some c => [(15, 0, c.2.1), (31, 20, c.2.2)]
      | none => [])
    else if o = 0x344 then [(0, 0, 0), (1, 1, 1), (6, 6, 1), (12, 8, 0), (23, 16, 3)]
    else if o = 0x408 then [(15, 0, 0x0000), (18, 16, 7), (29, 29, 0)]
    else if o = 0x448 then [(15, 0, 0x0007), (18, 16, 7), (21, 21, 0), (22, 22, 0), (29, 29, 1), (30, 30, 0)]
    else if o = 0x468 then [(15, 0, 0x0008)]
    else if o = 0x46C then [(2, 0, 2), (15, 8, 1), (31, 16, 0)]
    else if o = 0x474 then [(2, 0, 2), (15, 8, 3), (31, 16, 1)]
    else if o = 0x470 || o = 0x478 then [(31, 0, 0)]
    else if o = 0x484 then [(15, 0, 0x1F6C), (19, 16, 0), (31, 20, 0x20)]
    else if o = 0x488 then [(15, 0, 0x0001)]
    else []

/-- A word of the configuration space of a function (Table 16-8, R464). -/
def configValue (fn o : Nat) (s : State) : BitVec 32 :=
  if fn = 0 && 0x48C ≤ o && o < 0x4A0 then dvsecValue o s
  else (configFields s fn o).foldl (fun w f => setField w f.1 f.2.1 f.2.2) (Config.configWord fn o)

/-- log2 of the interleave ways and granularity as a decoder's control register codes them. -/
def hdmCode (d : Hdm) : Nat := Nat.log2 (d.gran / 256) + 16 * Nat.log2 d.ways

/-- A register of HDM decoder `i`: base, size, control and DPA skip, as CXL lays them out. PRESUMED, unsafe: assumption 25. -/
def hdmValue (c : Cxl) (i j : Nat) : BitVec 32 :=
  let x := c.slot i
  let d := x.prog
  match j with
  | 0 => lo64 d.base.toNat
  | 1 => hi64 d.base.toNat
  | 2 => lo64 d.size.toNat
  | 3 => hi64 d.size.toNat
  | 4 => BitVec.ofNat 32 (hdmCode d + b2n d.lock * 2 ^ 8 + b2n (x.on || x.failed) * 2 ^ 9 + b2n x.on * 2 ^ 10 + b2n x.failed * 2 ^ 11)
  | 5 => lo64 d.skip.toNat
  | 6 => hi64 d.skip.toNat
  | _ => 0

/-- Where the registers of the HDM decoders begin among the component registers, the first 64 KiB of BAR2 (R464, R472). PRESUMED, safe:
assumption 25. -/
def hdmPlace : Nat := 4 * (Config.hdmBlock % 0x3FDC)

/-- Words of the device registers, the second 64 KiB of BAR2: the array of capabilities Device Status, Primary Mailbox and Memory Device
Status, as CXL lays it out (R464, R486). PRESUMED, unsafe: assumption 25. -/
def deviceFields (o : Nat) : List (Nat × Nat × Nat) :=
  if o = 0x10000 then [(15, 0, 0), (23, 16, 1)]
  else if o = 0x10004 then [(15, 0, 3)]
  else if o = 0x10010 then [(15, 0, 1), (23, 16, 1)]
  else if o = 0x10020 then [(15, 0, 2), (23, 16, 1)]
  else if o = 0x10030 then [(15, 0, 0x4000), (23, 16, 1)]
  else []

/-- A word of BAR2, of 256 KiB: the component registers with the four decoders' in the first 64 KiB, the device registers in the next
(R464, R472). -/
def bar2Value (o : Nat) (s : State) : BitVec 32 :=
  let w := Config.configWord 64 o
  if 0x10000 ≤ o then (deviceFields o).foldl (fun w f => setField w f.1 f.2.1 f.2.2) w
  else
    let h := hdmPlace
    if o = h then setField w 3 0 2
    else if h + 0x10 ≤ o && o < h + 0x90 then hdmValue s.cxl ((o - h - 0x10) / 32) ((o - h - 0x10) % 32 / 4)
    else w

/-- A read of 1, 2 or 4 bytes reads the whole register and returns the bytes requested; one of 8 bytes reads two registers, the
lower offset first (R489). -/
def sizedRead (who : Who) (off n : Nat) (s : State) : State :=
  if !s.reaches who then s
  else
    let s1 := regRead who off s
    let v := (s1.reply.headD 0).toNat
    if n = 8 then
      let s2 := regRead who (off + 4) s1
      { s2 with reply := [BitVec.ofNat 64 (v + 2 ^ 32 * (s2.reply.headD 0).toNat)] }
    else { s1 with reply := [BitVec.ofNat 64 (v / 2 ^ (8 * (off % 4)) % 2 ^ (8 * n))] }

/-- CLEAR_ON_READ: a read of a register returns its value; an RC or SAT register is cleared (R11). -/
def clearOnRead (r : RegRead) (s : State) : State :=
  match r with
  | .bar0 who off n => sizedRead who off.toNat n s
  | .config fn off =>
    if !s.ioUp fn.toNat then s
    else
      let s1 := if fn = 0 then dvsecEffect (off.toNat / 4 * 4) s else s
      { s1 with reply := [(configValue fn.toNat (off.toNat / 4 * 4) s).zeroExtend 64] }
  | .bar2 off => if !s.ioUp 0 then s else { s with reply := [(bar2Value (off.toNat / 4 * 4) s).zeroExtend 64] }
  | .dvsec off =>
    if !s.ioUp 0 then s
    else { dvsecEffect (off.toNat / 4 * 4) s with reply := [(dvsecValue (off.toNat / 4 * 4) s).zeroExtend 64] }

/-- SYNC_VALUE_READ of SYNC_VALUE, or of SYNC_BAR (R273). -/
def syncValueRead (who : Who) (bar : Bool) (s : State) : State := regRead who (if bar then 0x50018 else 0x50014) s

/-- EL_RD_WRITE (R522). -/
def elRdWrite (v : BitVec 64) (s : State) : State := s.whenUp (fun s => s.setElRd v)

/-- PAIR_HI_WRITE: a write of the _HI register of an RW pair (R495). -/
def pairHiWrite (who : Who) (off : BitVec 26) (v : BitVec 32) (s : State) : State :=
  if [0x40014, 0x4002C, 0x40044, 0x9010C, 0xA000C].contains off.toNat then regWrite who off.toNat v s else s

/-- A write of LP_CTL of a port. -/
def ctlWrite (who : Who) (p : Nat) (v : BitVec 32) (s : State) : State := regWrite who (0x80008 + 0x1000 * p) v s

/-- RETRAIN: a write of LP_CTL with RETRAIN set (R420). -/
def retrain (who : Who) (p : Nat) (s : State) : State := ctlWrite who p ((s.port p).ctl ||| 0x40000000) s

/-- LP_COAST: a write of LP_CTL with COAST = 1 (R417). -/
def lpCoast (who : Who) (p : Nat) (s : State) : State := ctlWrite who p ((s.port p).ctl ||| 0x80000000) s

/-- LP_RESUME: a write of LP_CTL with COAST = 0 (R418). -/
def lpResume (who : Who) (p : Nat) (s : State) : State := ctlWrite who p ((s.port p).ctl &&& 0x7FFFFFFF) s

/-- Whether a reader reaches the TILE WINDOW: not a virtual function, and not in recovery (R62, R549). -/
def State.reachesTiles (s : State) (who : Who) : Bool := s.reaches who && s.inView who 0x100000

/-- RING_OPEN: a host write of MRINGn_CFG with OPEN = 1 (R62, R68, R70). -/
def ringOpen (who : Who) (t : TileId) (n : BitVec 3) (size : BitVec 11) (base : BitVec 14) (s : State) : State :=
  if !s.reachesTiles who then s
  else csrWrite (readerOf who) t (24 + n.toNat) (BitVec.ofNat 32 (2 ^ 31 + size.toNat * 2 ^ 15 + base.toNat)) s

/-- RING_CLOSE: OPEN = 0 (R62, R69). -/
def ringClose (who : Who) (t : TileId) (n : BitVec 3) (s : State) : State :=
  if !s.reachesTiles who then s
  else csrWrite (readerOf who) t (24 + n.toNat) ((((s.tile t).ring n.toNat).cfg) &&& 0x7FFFFFFF) s

/-- HEAD_WRITE: a host write of MRINGn_PTR (R62, R293). -/
def headWrite (who : Who) (t : TileId) (n : BitVec 3) (h : BitVec 13) (s : State) : State :=
  if !s.reachesTiles who then s
  else csrWrite (readerOf who) t (32 + n.toNat) (h.zeroExtend 32) s

end Sys2Proof.Machine
end

