-- ==== Sys2Proof/Machine/Sha.lean ====
section
/-!
DEFINITION. SHA-512, the digest of the measurements (R552), as FIPS 180-4 defines it.
-/
namespace Sys2Proof.Machine

/-- The largest `r + d` with `d < 2 ^ b` whose power `k` is at most `n`. -/
def rootFrom (k n : Nat) : Nat → Nat → Nat
  | 0, r => r
  | b + 1, r => if (r + 2 ^ b) ^ k ≤ n then rootFrom k n b (r + 2 ^ b) else rootFrom k n b r

/-- The first 64 bits of the fraction of the `k`-th root of `p`. -/
def rootFraction (k p : Nat) : BitVec 64 := BitVec.ofNat 64 (rootFrom k (p * 2 ^ (64 * k)) 70 0)

/-- The primes below 410: the first 80. -/
def shaPrimes : List Nat := (List.range 410).filter (fun n => 2 ≤ n && (List.range n).all (fun d => d < 2 || n % d ≠ 0))

/-- The initial hash value: square roots of the first eight primes. -/
def shaInit : List (BitVec 64) := (shaPrimes.take 8).map (rootFraction 2)

/-- The round constants: cube roots of the first 80 primes. -/
def shaConsts : List (BitVec 64) := shaPrimes.map (rootFraction 3)

/-- The message schedule: the words of a block, newest first, extended by `n` words. -/
def shaSchedule : Nat → List (BitVec 64) → List (BitVec 64)
  | 0, l => l
  | n + 1, l =>
    let w (i : Nat) : BitVec 64 := l.getD (i - 1) 0
    let s0 := (w 15).rotateRight 1 ^^^ (w 15).rotateRight 8 ^^^ w 15 >>> 7
    let s1 := (w 2).rotateRight 19 ^^^ (w 2).rotateRight 61 ^^^ w 2 >>> 6
    shaSchedule n ((w 16 + s0 + w 7 + s1) :: l)

/-- One round on the eight working variables, with a round constant and a word of the schedule. -/
def shaRound (v : List (BitVec 64)) (kw : BitVec 64 × BitVec 64) : List (BitVec 64) :=
  match v with
  | [a, b, c, d, e, f, g, h] =>
    let t1 := h + (e.rotateRight 14 ^^^ e.rotateRight 18 ^^^ e.rotateRight 41) + (e &&& f ^^^ ~~~e &&& g) + kw.1 + kw.2
    let t2 := (a.rotateRight 28 ^^^ a.rotateRight 34 ^^^ a.rotateRight 39) + (a &&& b ^^^ a &&& c ^^^ b &&& c)
    [t1 + t2, a, b, c, d + t1, e, f, g]
  | _ => v

/-- The hash value after one block of sixteen words. -/
def shaBlock (consts h block : List (BitVec 64)) : List (BitVec 64) :=
  let w := (shaSchedule 64 block.reverse).reverse
  List.zipWith (· + ·) h ((consts.zip w).foldl shaRound h)

/-- The number that bytes spell, the first highest. -/
def beNat (l : List Byte) : Nat := l.foldl (fun n b => 256 * n + b.toNat) 0

/-- A message with its padding: the bit 1, zeros, and its length in bits in sixteen bytes. -/
def shaPad (m : List Byte) : List Byte :=
  m ++ 0x80 :: (List.replicate ((239 - m.length % 128) % 128) 0 ++
    (List.range 16).map (fun i => BitVec.ofNat 8 (8 * m.length / 2 ^ (8 * (15 - i)))))

/-- SHA-512 of a message, as eight words. -/
def sha512 (m : List Byte) : List (BitVec 64) :=
  let b := shaPad m
  (List.range (b.length / 128)).foldl (fun h i =>
    shaBlock shaConsts h ((List.range 16).map (fun j => BitVec.ofNat 64 (beNat ((b.drop (128 * i + 8 * j)).take 8))))) shaInit

end Sys2Proof.Machine
end

