-- ==== Sys2Proof/Machine/Cxl.lean ====
section
/-!
DEFINITION. The host link, IDE, the DOE responders, CDAT and the Memory Device mailbox (Chapter 16), with attestation (R552).
-/
namespace Sys2Proof.Machine

/-! ### The link -/

/-- CXL_LINK_TRAIN: the link trains, or changes its rate or width (R461, R462). In a start, step 6b trains it. -/
def cxlLinkTrain (o : LinkObs) (s : State) : State := if s.start.kind ≠ 0 then s else s.trainLink o

/-- CXL_LINK_DOWN (R487): work that needs no host goes on; what needs the host holds. -/
def cxlLinkDown (s : State) : State := s.dropLink

/-- Whether the DOE mailbox answers: CXL.io carries the physical function's traffic, outside recovery (R460, R483, R549). -/
def State.doeReady (s : State) : Bool := s.ioUp 0 && !s.start.recovery

/-- The IDE streams of CXL.io (bits 3:0) and CXL.cachemem: an IDE_KM message programs and starts, or refreshes, the key of
one; `cm` names the CXL.cachemem stream, `skid` its mode, `n` else the selective stream (R483). It travels in a secured session of its own,
so that a stream which is insecure can get a new key. DESIGN CHOICE, safe: assumption 25. -/
def ideKm (cm skid : Bool) (n : BitVec 2) (s : State) : State :=
  if s.cxl.rate = 0 || s.start.recovery then s
  else if cm then { s with cxl := { s.cxl with ideCm := true, skid := skid, cmFailed := false } }
  else { s with cxl := { s.cxl with
    ideIo := s.cxl.ideIo ||| BitVec.ofNat 4 (2 ^ n.toNat), ioFailed := s.cxl.ioFailed &&& ~~~(BitVec.ofNat 4 (2 ^ n.toNat)) } }

/-- IDE_INTEGRITY_FAILURE: the stream is insecure and AER counts it; until a new key its traffic is discarded: CXL.mem accesses have
no effect, requests on CXL.cache fail, and register accesses and untranslated requests of the functions whose CXL.io traffic the stream
carries do not arrive (R483). DESIGN CHOICE, safe: assumption 25. -/
def ideIntegrityFailure (cm : Bool) (n : BitVec 2) (s : State) : State :=
  let c := s.cxl
  if cm then (if c.ideCm then { s with cxl := { c with ideCm := false, cmFailed := true, aer := c.aer + 1 } } else s)
  else if c.ideIo.getLsbD n.toNat then
    { s with cxl := { c with
      ideIo := c.ideIo &&& ~~~(BitVec.ofNat 4 (2 ^ n.toNat)), ioFailed := c.ioFailed ||| BitVec.ofNat 4 (2 ^ n.toNat), aer := c.aer + 1 } }
  else s

/-! ### DOE (R460, R483, R484) -/

/-- The data objects that the mailbox supports, in the order of their discovery: vendor 0x0001 (PCI-SIG) types 0 (Discovery),
1 (CMA/SPDM) and 2 (Secured SPDM), and vendor 0x1E98 (CXL) type 2 (CDAT table access). Vendor in bits 15:0, type in 23:16. -/
def doeObjects : List Nat := [0x000001, 0x010001, 0x020001, 0x021E98]

/-- The mailbox answers with a data object of `n` bytes, at most 256 KiB (R484). -/
def State.doeAnswer (s : State) (n : Nat) (l : List (BitVec 64)) : State :=
  if !s.doeReady || 0x40000 < n then s else { s with reply := l }

/-- DOE_DISCOVERY of index `i`: vendor and type, and the next index in bits 31:24, 0 after the last. -/
def doeDiscovery (i : BitVec 8) (s : State) : State :=
  let n := i.toNat
  s.doeAnswer 12 (match doeObjects[n]? with
    | some v => [BitVec.ofNat 64 (v + (if n + 1 < doeObjects.length then (n + 1) * 2 ^ 24 else 0))]
    | none => [0xFFFFFF])

/-- Requests to the SPDM responder name its answers: 1 the certificate chain of slot 0, 2 a measurement. -/
def getCertificate (slot : BitVec 8) (off len : BitVec 16) (s : State) : State :=
  if slot ≠ 0 then s
  else s.doeAnswer (len.toNat + 16) ((List.range len.toNat).map (fun i => Config.answer 1 0 (off.toNat + i)))

/-- What a measurement index covers (Table 19-6), as bytes: 1 the boot ROM and 4 the loader configuration are free; 2 is the
image in force; 3 the repair map and the fuses, free but for the minimum SVN; 5 the partition map; 6 DIM_CTL and every MODE_ACT. DEDUCED, unsafe: assumption 25.
-/
def State.measured (s : State) (index : Nat) : List Byte :=
  let free := (List.range (Config.measuredLen index)).map (Config.measuredByte index)
  match index with
  | 2 => readBytes s.lmc.running 0 s.lmc.runningLen
  | 3 => leBytes 8 s.lmc.minSvn ++ [BitVec.ofNat 8 s.start.repairW, BitVec.ofNat 8 s.start.repairE] ++ free
  | 5 => (List.range 32).flatMap (fun p =>
      let q := s.part p
      leBytes 4 q.blocks.toNat ++ leBytes 4 (s.portMask p * 2 ^ 16 + s.stackMask p)
        ++ leBytes 4 (q.syncBase.toNat * 2 ^ 16 + q.syncCount.toNat))
  | 6 => leBytes 4 s.dim.ctlAct.toNat ++ (List.range 32).flatMap (fun p => leBytes 4 (s.part p).modeAct.toNat)
  | _ => free

/-- GET_MEASUREMENTS: the SHA-512 digest of an index, as eight words, and behind it the responder's ECDSA P-521 signature of 132
bytes, as seventeen (R484, R552, Table 19-6). -/
def getMeasurements (index : BitVec 8) (s : State) : State :=
  if !s.doeReady || index = 0 || 6 < index then s
  else { s with
    undef := s.undef + 1
    reply := sha512 (s.measured index.toNat) ++ (List.range 17).map (Config.signature s.undef) }

/-- CDAT_TABLE_ACCESS: the entries of Table 16-6. Each word is: type (0 DSMAS, 1 DSLBIS, 4 DSEMTS), handle, a selector, and a
figure. -/
def cdatEntries : List (List (BitVec 64)) :=
  [ [0, 0, 0, 0, 0x12000000000]   -- DSMAS: handle 0, no flags, DPA base 0, length 1,152 GiB
  , [1, 0, 1, 420]                -- DSLBIS: read latency in ns
  , [1, 0, 2, 450]                -- DSLBIS: write latency in ns
  , [1, 0, 4, 230]                -- DSLBIS: read bandwidth in GB/s
  , [1, 0, 5, 230]                -- DSLBIS: write bandwidth in GB/s
  , [4, 0, 1, 0x12000000000] ]    -- DSEMTS: handle 0, specific-purpose, over the whole DSMAS

/-- CDAT_TABLE_ACCESS of entry `i`; beyond the last entry the answer is empty. -/
def cdatTableAccess (i : BitVec 16) (s : State) : State :=
  s.doeAnswer 64 (cdatEntries[i.toNat]?.getD [])

/-! ### The Memory Device mailbox (R486, Table 16-7) -/

/-- Whether the mailbox in BAR2 takes commands: CXL.io carries the physical function's traffic, and the start is over (R483, R548). -/
def State.mailboxReady (s : State) : Bool := s.ioUp 0 && !s.start.recovery && s.start.phase = 0xFF

/-- A command ends with a return code and data, and raises vector 0 (Table 16-3). Codes as CXL gives them: 0 Success, 2 Invalid
Input, 3 Unsupported, 0x0B firmware verification failed. PRESUMED, unsafe: assumption 25. -/
def State.mailboxDone (s : State) (code : Nat) (data : List (BitVec 64)) : State :=
  { s.msi 0 0 with reply := BitVec.ofNat 64 code :: data }

/-- The DPAs of units that were met as uncorrectable and are still poisoned. -/
def State.poisonList (s : State) : List Nat :=
  (List.range 12).flatMap (fun k =>
    ((s.stack k).found.filter (fun c => sget false c.1 (s.stack k).poison)).map (fun c => dpaOf k (64 * c.1)))

/-- Every stack re-keyed (R351). -/
def State.rekeyAll (s : State) : State := (List.range 12).foldl State.rekey s

/-- What a command of Table 16-7 does:
Identify Memory Device gives total, volatile and persistent capacity in multiples of 256 MiB;
Get Event Records gives for each record its DPA, its count and its time stamp, and a General Media record carries the poison flag (bit 0
of the DPA word, R521);
Clear Event Records clears the oldest `n`, and more than are held is invalid input;
Get Supported Logs and Get Log know one log, the Command Effects Log;
Get Poison List gives poisoned units by DPA;
Sanitize and Secure Erase re-key every stack (R351);
Get FW Info gives the SVN of the image in force and of the image in flash;
Transfer FW takes bytes at an offset as IMAGE_CHUNK does, and verifies with the last part as IMAGE_VERIFY does;
Activate FW takes a verified image as IMAGE_ACTIVATE does (R550);
any other command returns Unsupported. -/
def runMbox (c : Mbox) (t : State) : State :=
  match c with
  | .identify => t.mailboxDone 0 [4608, 4608, 0]
  | .getEvents => t.mailboxDone 0 (t.cxlEvts.flatMap (fun e =>
      [BitVec.ofNat 64 (e.dpa + b2n (!e.dram)), BitVec.ofNat 64 e.count, BitVec.ofNat 64 e.tstamp]))
  | .clearEvents n =>
    if t.cxlEvts.length < n.toNat then t.mailboxDone 2 [] else { t with cxlEvts := t.cxlEvts.drop n.toNat }.mailboxDone 0 []
  | .getPolicy => t.mailboxDone 0 [t.cxl.policy.zeroExtend 64]
  | .setPolicy v => { t with cxl := { t.cxl with policy := v } }.mailboxDone 0 []
  | .getLogs => t.mailboxDone 0 [1, Config.answer 2 0 0, Config.answer 2 0 1]
  | .getLog off len => t.mailboxDone 0 ((List.range len.toNat).map (fun i => Config.answer 2 1 (off.toNat + i)))
  | .getPoison => t.mailboxDone 0 (t.poisonList.map (BitVec.ofNat 64))
  | .sanitize => t.rekeyAll.mailboxDone 0 []
  | .secureErase => t.rekeyAll.mailboxDone 0 []
  | .getFwInfo => t.mailboxDone 0
      [BitVec.ofNat 64 (Config.imageSvn (readBytes t.lmc.running 0 t.lmc.runningLen)), BitVec.ofNat 64 (Config.imageSvn t.lmc.flashBytes)]
  | .transferFw off b final =>
    let l := t.lmc.addChunk off.toNat b
    let r := imageVerdict l.imageBytes l.minSvn
    if Config.imageMax < off.toNat + b.length then t.mailboxDone 2 []
    else if !final then { t with lmc := l }.mailboxDone 0 []
    else { t with lmc := { l with verified := r = 0 } }.mailboxDone (if r = 0 then 0 else 0x0B) []
  | .activateFw => if t.lmc.verified then (t.activateImage).mailboxDone 0 [] else t.mailboxDone 2 []
  | .other _ => t.mailboxDone 3 []

/-- A command runs when the mailbox answers; one that comes while the Lamplighter restarts waits until it is back (R551). -/
def State.mailbox (s : State) (c : Mbox) : State :=
  if !s.mailboxReady then s
  else if s.start.lmcWait then { s with cxl := { s.cxl with mbox := s.cxl.mbox ++ [c] } }
  else runMbox c s

/-- The commands that waited for the Lamplighter are served in their order (R551). -/
def State.serveMailbox (s : State) : State :=
  if s.cxl.mbox = [] || s.start.lmcWait || !s.mailboxReady then s
  else s.cxl.mbox.foldl (fun s' c => runMbox c s') { s with cxl := { s.cxl with mbox := [] } }

def identifyMemoryDevice (s : State) : State := s.mailbox .identify
def getEventRecords (s : State) : State := s.mailbox .getEvents
def clearEventRecords (n : BitVec 8) (s : State) : State := s.mailbox (.clearEvents n)
def getEventInterruptPolicy (s : State) : State := s.mailbox .getPolicy
def setEventInterruptPolicy (v : BitVec 32) (s : State) : State := s.mailbox (.setPolicy v)
def getSupportedLogs (s : State) : State := s.mailbox .getLogs
def getLog (off len : BitVec 32) (s : State) : State := s.mailbox (.getLog off len)
def getPoisonList (s : State) : State := s.mailbox .getPoison
def sanitize (s : State) : State := s.mailbox .sanitize
def secureErase (s : State) : State := s.mailbox .secureErase
def getFwInfo (s : State) : State := s.mailbox .getFwInfo
def transferFw (off : BitVec 32) (b : List Byte) (final : Bool) (s : State) : State := s.mailbox (.transferFw off b final)
def activateFw (s : State) : State := s.mailbox .activateFw
def unsupportedCommand (op : BitVec 16) (s : State) : State := s.mailbox (.other op)

end Sys2Proof.Machine
end

