-- ==== Sys2Proof/Machine/CxlCmds.lean ====
section
/-!
DEFINITION. The host link, DOE and the Memory Device mailbox.
-/
namespace Sys2Proof.Machine

/-- CXL_LINK_TRAIN (R462): the host link trains or changes rate or width. -/
def cmdCxlLinkTrain (o : LinkObs) (s : State) : Host.Outcome State Fault Refusal :=
  .next (cxlLinkTrain o s)

/-- CXL_LINK_DOWN (R487): the host link goes down and host-dependent work holds. -/
def cmdCxlLinkDown (s : State) : Host.Outcome State Fault Refusal :=
  .next (cxlLinkDown s)

/-- IDE_KM (R483): an IDE key is established or refreshed over Secured SPDM. -/
def cmdIdeKm (cm : Bool) (skid : Bool) (n : BitVec 2) (s : State) : Host.Outcome State Fault Refusal :=
  .next (ideKm cm skid n s)

/-- IDE_INTEGRITY_FAILURE (R483): an IDE failure makes the stream insecure and discards traffic. -/
def cmdIdeIntegrityFailure (cm : Bool) (n : BitVec 2) (s : State) : Host.Outcome State Fault Refusal :=
  .next (ideIntegrityFailure cm n s)

/-- DOE_DISCOVERY (R484): A DOE discovery request is answered. -/
def cmdDoeDiscovery (i : BitVec 8) (s : State) : Host.Outcome State Fault Refusal :=
  .next (doeDiscovery i s)

/-- GET_CERTIFICATE (R552): the SPDM responder returns the slot 0 certificate chain. -/
def cmdGetCertificate (slot : BitVec 8) (off : BitVec 16) (len : BitVec 16) (s : State) : Host.Outcome State Fault Refusal :=
  .next (getCertificate slot off len s)

/-- GET_MEASUREMENTS (R552): the SPDM responder returns measurement digests. -/
def cmdGetMeasurements (i : BitVec 8) (s : State) : Host.Outcome State Fault Refusal :=
  .next (getMeasurements i s)

/-- CDAT_TABLE_ACCESS (R485): returns CDAT entries. -/
def cmdCdatTableAccess (i : BitVec 16) (s : State) : Host.Outcome State Fault Refusal :=
  .next (cdatTableAccess i s)

/-- IDENTIFY_MEMORY_DEVICE (R486): returns capacity and volatility. -/
def cmdIdentifyMemoryDevice (s : State) : Host.Outcome State Fault Refusal :=
  .next (identifyMemoryDevice s)

/-- GET_EVENT_RECORDS (R486): returns CXL event records. -/
def cmdGetEventRecords (s : State) : Host.Outcome State Fault Refusal :=
  .next (getEventRecords s)

/-- CLEAR_EVENT_RECORDS (R486): clears CXL event records. -/
def cmdClearEventRecords (n : BitVec 8) (s : State) : Host.Outcome State Fault Refusal :=
  .next (clearEventRecords n s)

/-- GET_EVENT_INTERRUPT_POLICY (R486): returns the event interrupt policy. -/
def cmdGetEventInterruptPolicy (s : State) : Host.Outcome State Fault Refusal :=
  .next (getEventInterruptPolicy s)

/-- SET_EVENT_INTERRUPT_POLICY (R486): sets the event interrupt policy. -/
def cmdSetEventInterruptPolicy (v : BitVec 32) (s : State) : Host.Outcome State Fault Refusal :=
  .next (setEventInterruptPolicy v s)

/-- GET_SUPPORTED_LOGS (R486): returns the supported logs. -/
def cmdGetSupportedLogs (s : State) : Host.Outcome State Fault Refusal :=
  .next (getSupportedLogs s)

/-- GET_LOG (R486): returns the Command Effects Log. -/
def cmdGetLog (off : BitVec 32) (len : BitVec 32) (s : State) : Host.Outcome State Fault Refusal :=
  .next (getLog off len s)

/-- GET_POISON_LIST (R486): returns poisoned HBM units by DPA. -/
def cmdGetPoisonList (s : State) : Host.Outcome State Fault Refusal :=
  .next (getPoisonList s)

/-- SANITIZE (R486): re-keys every stack. -/
def cmdSanitize (s : State) : Host.Outcome State Fault Refusal :=
  .next (sanitize s)

/-- SECURE_ERASE (R486): re-keys every stack. -/
def cmdSecureErase (s : State) : Host.Outcome State Fault Refusal :=
  .next (secureErase s)

/-- GET_FW_INFO (R486): returns firmware information. -/
def cmdGetFwInfo (s : State) : Host.Outcome State Fault Refusal :=
  .next (getFwInfo s)

/-- TRANSFER_FW (R550): transfers an Obest image. -/
def cmdTransferFw (off : BitVec 32) (bytes : List Byte) (final : Bool) (s : State) : Host.Outcome State Fault Refusal :=
  .next (transferFw off bytes final s)

/-- ACTIVATE_FW (R550): activates a verified Obest image. -/
def cmdActivateFw (s : State) : Host.Outcome State Fault Refusal :=
  .next (activateFw s)

/-- UNSUPPORTED_COMMAND (R486): any other mailbox command returns Unsupported. -/
def cmdUnsupportedCommand (op : BitVec 16) (s : State) : Host.Outcome State Fault Refusal :=
  .next (unsupportedCommand op s)

end Sys2Proof.Machine
end

