-- ==== Sys2Proof/Machine/EngineCmds.lean ====
section
/-!
DEFINITION. The update engines.
-/
namespace Sys2Proof.Machine

/-- UE_DOORBELL (R371): A doorbell write copies the job descriptor into the engine queue. -/
def cmdUeDoorbell (k : Fin 12) (s : State) : Host.Outcome State Fault Refusal :=
  .next (s.whenUp (ueDoorbell k.val))

/-- UE_JOB_START (R370): the engine starts the next queued job, translating and checking it. -/
def cmdUeJobStart (k : Fin 12) (s : State) : Host.Outcome State Fault Refusal :=
  .next (ueJobStart k.val s)

/-- UE_GROUP (R370): the engine runs the body for the next group of 64 elements. -/
def cmdUeGroup (k : Fin 12) (s : State) : Host.Outcome State Fault Refusal :=
  .next (ueGroup k.val s)

/-- UE_JOB_END (R370): the job's writes complete and it signals SIG_VID. -/
def cmdUeJobEnd (k : Fin 12) (s : State) : Host.Outcome State Fault Refusal :=
  .next (ueJobEnd k.val s)

/-- UE_NOP (R374): microprogram no-operation. -/
def cmdUeNop (k : Fin 12) (s : State) : Host.Outcome State Fault Refusal :=
  .next (ueNop k.val s)

/-- UE_BODY (R374): marks the start of the body part. -/
def cmdUeBody (k : Fin 12) (s : State) : Host.Outcome State Fault Refusal :=
  .next (ueBody k.val s)

/-- UE_END (R374): ends the microprogram. -/
def cmdUeEnd (k : Fin 12) (s : State) : Host.Outcome State Fault Refusal :=
  .next (ueEnd k.val s)

/-- LDS (R376): loads a stream element converted to FP32. -/
def cmdLds (k : Fin 12) (s : State) : Host.Outcome State Fault Refusal :=
  .next (ueLds k.val s)

/-- STS (R376): stores a lane to a stream converted by RM. -/
def cmdSts (k : Fin 12) (s : State) : Host.Outcome State Fault Refusal :=
  .next (ueSts k.val s)

/-- UE_MOV (R375): moves B into an engine register. -/
def cmdUeMov (k : Fin 12) (s : State) : Host.Outcome State Fault Refusal :=
  .next (ueMov k.val s)

/-- UE_ADD (R375): engine FP32 add. -/
def cmdUeAdd (k : Fin 12) (s : State) : Host.Outcome State Fault Refusal :=
  .next (ueAdd k.val s)

/-- UE_SUB (R375): engine FP32 subtract. -/
def cmdUeSub (k : Fin 12) (s : State) : Host.Outcome State Fault Refusal :=
  .next (ueSub k.val s)

/-- UE_MUL (R375): engine FP32 multiply. -/
def cmdUeMul (k : Fin 12) (s : State) : Host.Outcome State Fault Refusal :=
  .next (ueMul k.val s)

/-- UE_FMA (R375): engine fused multiply-add. -/
def cmdUeFma (k : Fin 12) (s : State) : Host.Outcome State Fault Refusal :=
  .next (ueFma k.val s)

/-- UE_DIV (R375): engine correctly rounded divide. -/
def cmdUeDiv (k : Fin 12) (s : State) : Host.Outcome State Fault Refusal :=
  .next (ueDiv k.val s)

/-- UE_SQRT (R375): engine correctly rounded square root. -/
def cmdUeSqrt (k : Fin 12) (s : State) : Host.Outcome State Fault Refusal :=
  .next (ueSqrt k.val s)

/-- UE_MIN (R375): engine minimum as VMIN. -/
def cmdUeMin (k : Fin 12) (s : State) : Host.Outcome State Fault Refusal :=
  .next (ueMin k.val s)

/-- UE_MAX (R375): engine maximum as VMAX. -/
def cmdUeMax (k : Fin 12) (s : State) : Host.Outcome State Fault Refusal :=
  .next (ueMax k.val s)

/-- UE_ABS (R375): engine absolute value. -/
def cmdUeAbs (k : Fin 12) (s : State) : Host.Outcome State Fault Refusal :=
  .next (ueAbs k.val s)

/-- UE_NEG (R375): engine negation. -/
def cmdUeNeg (k : Fin 12) (s : State) : Host.Outcome State Fault Refusal :=
  .next (ueNeg k.val s)

/-- UE_SEL (R375): engine select by non-zero. -/
def cmdUeSel (k : Fin 12) (s : State) : Host.Outcome State Fault Refusal :=
  .next (ueSel k.val s)

/-- CMP (R375): engine compare producing 1.0 or +0. -/
def cmdCmp (k : Fin 12) (s : State) : Host.Outcome State Fault Refusal :=
  .next (ueCmp k.val s)

/-- ACCSQ (R375): adds exact squares of active lanes to an accumulator. -/
def cmdAccsq (k : Fin 12) (s : State) : Host.Outcome State Fault Refusal :=
  .next (ueAccsq k.val s)

/-- XCLR (R375): zeroes an exact accumulator. -/
def cmdXclr (k : Fin 12) (s : State) : Host.Outcome State Fault Refusal :=
  .next (ueXclr k.val s)

/-- RED (R360): contributes a WSQ or accumulator snapshot to a root reduction object. -/
def cmdRed (k : Fin 12) (s : State) : Host.Outcome State Fault Refusal :=
  .next (ueRed k.val s)

/-- RED_RESULT (R363): the total T returns and the RED word writes P[D] by its mode. -/
def cmdRedResult (k : Fin 12) (s : State) : Host.Outcome State Fault Refusal :=
  .next (ueRedResult k.val s)

/-- SOP (R375): scalar operation on P registers. -/
def cmdSop (k : Fin 12) (s : State) : Host.Outcome State Fault Refusal :=
  .next (ueSop k.val s)

/-- CLR_WSQ (R358): clears WSQ and WSQ_INF. -/
def cmdClrWsq (k : Fin 12) (s : State) : Host.Outcome State Fault Refusal :=
  .next (s.whenUp (fun s => s.modStack k.val Stack.clrWsq))

/-- CLR_X (R369): zeroes the engine accumulators X0–X7. -/
def cmdClrX (k : Fin 12) (s : State) : Host.Outcome State Fault Refusal :=
  .next (s.whenUp (fun s => s.modEngine k.val Engine.clrX))

/-- SNAP (R358): copies WSQ rounded to FP64 into WSQ_F64. -/
def cmdSnap (k : Fin 12) (s : State) : Host.Outcome State Fault Refusal :=
  .next (s.whenUp (fun s => s.modStack k.val Stack.snap))

/-- UE_ABORT (R378): empties the halted engine's queue and clears HALTED. -/
def cmdUeAbort (k : Fin 12) (s : State) : Host.Outcome State Fault Refusal :=
  .next (s.whenUp (fun s => s.modEngine k.val Engine.abort))

/-- UE_RESUME (R378): clears HALTED so the next queued job starts. -/
def cmdUeResume (k : Fin 12) (s : State) : Host.Outcome State Fault Refusal :=
  .next (s.whenUp (fun s => s.modEngine k.val Engine.resume))

/-- UE_PROG_DATA_WRITE (R369): writes a program word and advances UE_PROG_ADDR. -/
def cmdUeProgDataWrite (k : Fin 12) (v : BitVec 32) (s : State) : Host.Outcome State Fault Refusal :=
  .next (s.whenUp (fun s => s.modEngine k.val (fun e => e.progData v)))

end Sys2Proof.Machine
end

