-- ==== Sys2Proof/Machine/HbmCmds.lean ====
section
/-!
DEFINITION. Copies, arms, narrow operations, HBM and host access.
-/
namespace Sys2Proof.Machine

/-- COPY_COMPLETE (R332): A copy descriptor completes and advances its counter. -/
def cmdCopyComplete (t : TileId) (n : Nat) (s : State) : Host.Outcome State Fault Refusal :=
  .next (execCopyComplete t n s)

/-- ARM_ACCEPT (R334): the base die accepts an arm into its link's arm queue. -/
def cmdArmAccept (t : TileId) (s : State) : Host.Outcome State Fault Refusal :=
  .next (execArmAccept t s)

/-- ARM_IN_FLIT (R336): A flit arriving at the base-die end is checked and landed or added into staging. -/
def cmdArmInFlit (t : TileId) (s : State) : Host.Outcome State Fault Refusal :=
  .next (execArmInFlit t s)

/-- ARM_OUT_FLIT (R335): the base-die end sends the next staged flit of an ARM_OUT. -/
def cmdArmOutFlit (t : TileId) (s : State) : Host.Outcome State Fault Refusal :=
  .next (execArmOutFlit t s)

/-- NARROW_ELEMENT (R340): A narrow element reaches the gather unit and is applied in arrival order. -/
def cmdNarrowElement (t : TileId) (n : Nat) (s : State) : Host.Outcome State Fault Refusal :=
  .next (execNarrowElement t n s)

/-- NARROW_REPLY (R340): A narrow read reply or acknowledgement returns to the tile. -/
def cmdNarrowReply (t : TileId) (n : Nat) (s : State) : Host.Outcome State Fault Refusal :=
  .next (execNarrowReply t n s)

/-- REFRESH_BOUNDARY (R346): A stack refresh boundary applies a pending HBM_CTL. -/
def cmdRefreshBoundary (k : Fin 12) (s : State) : Host.Outcome State Fault Refusal :=
  .next (refreshBoundary k.val s)

/-- REFRESH_WINDOW (R346): A windowed refresh starts when the time stamp reaches its phase. -/
def cmdRefreshWindow (k : Fin 12) (s : State) : Host.Outcome State Fault Refusal :=
  .next (refreshWindow k.val s)

/-- REKEY (R351): A stack replaces its key, zeroes staging and clears its engine. -/
def cmdRekey (k : Fin 12) (s : State) : Host.Outcome State Fault Refusal :=
  .next (rekeyStack k.val s)

/-- HOST_MEM_READ (R474): A host CXL.mem read is applied as a whole 64-byte access. -/
def cmdHostMemRead (a : BitVec 64) (cache : BitVec 2) (met : BitVec 2) (s : State) : Host.Outcome State Fault Refusal :=
  .next (hostMemRead a cache met s)

/-- HOST_MEM_WRITE (R474): A host CXL.mem write is applied as a whole 64-byte access. -/
def cmdHostMemWrite (a : BitVec 64) (data : BitVec 512) (mask : BitVec 64) (keep : Bool) (s : State) : Host.Outcome State Fault Refusal :=
  .next (hostMemWrite a data mask keep s)

/-- ATS_INVALIDATION (R466): an ATS invalidation completes after requests using the entry complete. -/
def cmdAtsInvalidation (fn : BitVec 6) (page : BitVec 52) (s : State) : Host.Outcome State Fault Refusal :=
  .next (atsInvalidation fn page s)

/-- HOST_STREAM_FLIT (R479): A CXL attach end moves the next host-stream flit in or out. -/
def cmdHostStreamFlit (t : TileId) (out : Bool) (data : BitVec 512) (how : BitVec 2) (s : State) : Host.Outcome State Fault Refusal :=
  .next (hostStreamFlit t out data how s)

/-- HBM_IMAP_COMMIT (R325): commits pending interleave windows or refuses as BUSY or INVALID. -/
def cmdHbmImapCommit (p : BitVec 5) (s : State) : Host.Outcome State Fault Refusal :=
  .next (s.whenUp (hbmImapCommit p.toNat))

/-- HBM_STG_WIN_WRITE (R326): sets the staging window when idle and in range. -/
def cmdHbmStgWinWrite (k : Fin 12) (v : BitVec 32) (s : State) : Host.Outcome State Fault Refusal :=
  .next (s.whenUp (hbmStgWinWrite k.val v))

/-- HBM_HOT (R344): A stack's hottest die crosses 85 °C, flipping HBM_STATUS.HOT and the refresh rate and bandwidth shares. -/
def cmdHbmHot (k : Fin 12) (temp : BitVec 8) (s : State) : Host.Outcome State Fault Refusal :=
  .next (hbmHot k.val temp s)

/-- CXL_DRAM_EVENT_RECORD (R521): at the end of a stack's 100 ms rate-limit period, a pending CXL DRAM event record carrying the
count of corrected units is logged and MSI-X vector 1 is raised. -/
def cmdCxlDramEventRecord (k : Fin 12) (s : State) : Host.Outcome State Fault Refusal :=
  .next (cxlDramEvent k.val s)

end Sys2Proof.Machine
end

