-- ==== Sys2Proof/Machine/LampCmds.lean ====
section
/-!
DEFINITION. The Lampline.
-/
namespace Sys2Proof.Machine

/-- FRAME_SEND (R397): A port sends one frame, idle if nothing is ready, each frame period. -/
def cmdFrameSend (p : BitVec 3) (s : State) : Host.Outcome State Fault Refusal :=
  .next (frameSend p.toNat s)

/-- IDLE_FRAME (R398): A received idle frame updates only the link fields. -/
def cmdIdleFrame (p : BitVec 3) (f : Frame) (s : State) : Host.Outcome State Fault Refusal :=
  .next (idleFrame p.toNat f s)

/-- DATA_FRAME (R411): A DATA frame is consumed, copied or forwarded. -/
def cmdDataFrame (p : BitVec 3) (f : Frame) (s : State) : Host.Outcome State Fault Refusal :=
  .next (dataFrame p.toNat f s)

/-- REDUCE_FRAME (R411): A REDUCE partial is added to the local contribution or parked. -/
def cmdReduceFrame (p : BitVec 3) (f : Frame) (s : State) : Host.Outcome State Fault Refusal :=
  .next (reduceArrives p.toNat f s)

/-- SYNC_FRAME (R404): A SYNC frame collects or applies scalar totals or sync deltas. -/
def cmdSyncFrame (p : BitVec 3) (f : Frame) (s : State) : Host.Outcome State Fault Refusal :=
  .next (syncFrame p.toNat f s)

/-- MARK_FRAME (R405): the marker passes, marking a revolution boundary and applying pending maps. -/
def cmdMarkFrame (p : BitVec 3) (f : Frame) (s : State) : Host.Outcome State Fault Refusal :=
  .next (markFrame p.toNat f s)

/-- COAST_FRAME (R417): A COAST frame coasts or resumes the ring and is forwarded once. -/
def cmdCoastFrame (p : BitVec 3) (f : Frame) (s : State) : Host.Outcome State Fault Refusal :=
  .next (coastArrives p.toNat f s)

/-- LOSS_FRAME (R423): A LOSS frame ends the ring's running collectives with LINK_LOSS. -/
def cmdLossFrame (p : BitVec 3) (f : Frame) (s : State) : Host.Outcome State Fault Refusal :=
  .next (lossFrame p.toNat f s)

/-- WWRITE_FRAME (R526): A remote-window write is applied or refused with a WNAK. -/
def cmdWwriteFrame (p : BitVec 3) (f : Frame) (s : State) : Host.Outcome State Fault Refusal :=
  .next (wwriteFrame p.toNat f s)

/-- WNAK_FRAME (R526): A window refusal reaches the sender. -/
def cmdWnakFrame (p : BitVec 3) (f : Frame) (s : State) : Host.Outcome State Fault Refusal :=
  .next (wnakFrame p.toNat f s)

/-- RESERVED_FRAME (R397): A frame of reserved TYPE is discarded and counted. -/
def cmdReservedFrame (p : BitVec 3) (f : Frame) (s : State) : Host.Outcome State Fault Refusal :=
  .next (reservedFrame p.toNat f s)

/-- MARKER_TIMEOUT (R406): rank 0 re-emits a marker not returned within 2 × LP_REV. -/
def cmdMarkerTimeout (p : BitVec 3) (s : State) : Host.Outcome State Fault Refusal :=
  .next (markerTimeout p.toNat s)

/-- COLLECTIVE_STEP_START (R408): A collective step starts when its trigger reaches STEP_TARGET. -/
def cmdCollectiveStepStart (p : BitVec 3) (n : BitVec 6) (s : State) : Host.Outcome State Fault Refusal :=
  .next (collStepStart p.toNat n.toNat s)

/-- COLLECTIVE_STEP_DONE (R408): A delivered step signals DONE_VID. -/
def cmdCollectiveStepDone (p : BitVec 3) (n : BitVec 6) (s : State) : Host.Outcome State Fault Refusal :=
  .next (collStepDone p.toNat n.toNat s)

/-- LAMPLINE_ATTACH_FLIT (R409): A port takes or gives the next flit of a step's stream on its ATTACH links. -/
def cmdLamplineAttachFlit (p : BitVec 3) (n : BitVec 6) (out : Bool) (s : State) : Host.Outcome State Fault Refusal :=
  .next (attachFlit p.toNat n.toNat out s)

/-- GRACE_EXPIRY (R415): A contribution still late after GRACE is passed over with HOLE. -/
def cmdGraceExpiry (p : BitVec 3) (n : BitVec 6) (s : State) : Host.Outcome State Fault Refusal :=
  .next (graceExpiry p.toNat n.toNat s)

/-- LANE_DEGRADE (R419): A failing lane makes both ends switch to a narrower lane set. -/
def cmdLaneDegrade (p : BitVec 3) (ok : BitVec 16) (s : State) : Host.Outcome State Fault Refusal :=
  .next (laneDegrade p.toNat ok s)

/-- LINK_LOSS_DETECT (R422): A lost X link is detected within 2 µs and the neighbours splice. -/
def cmdLinkLossDetect (p : BitVec 3) (warned : Bool) (s : State) : Host.Outcome State Fault Refusal :=
  .next (linkLossDetect p.toNat warned s)

/-- LP_COAST (R417): LP_CTL.COAST = 1 coasts the ring down. -/
def cmdLpCoast (who : Who) (p : BitVec 3) (s : State) : Host.Outcome State Fault Refusal :=
  .next (lpCoast who p.toNat s)

/-- LP_RESUME (R418): LP_CTL.COAST = 0 resumes the ring. -/
def cmdLpResume (who : Who) (p : BitVec 3) (s : State) : Host.Outcome State Fault Refusal :=
  .next (lpResume who p.toNat s)

/-- RETRAIN (R420): retrains a coasted port at full width. -/
def cmdRetrain (who : Who) (p : BitVec 3) (s : State) : Host.Outcome State Fault Refusal :=
  .next (retrain who p.toNat s)

/-- SPLICE_CLEAR (R428): clearing LP_RING.SPLICE rejoins an inserted neighbour. -/
def cmdSpliceClear (p : BitVec 3) (s : State) : Host.Outcome State Fault Refusal :=
  .next (s.whenUp (spliceClear p.toNat))

/-- COLL_DESCRIPTOR_WRITE (R361): setting VALID makes a collective descriptor live or ends it with FAULT 0x04. -/
def cmdCollDescriptorWrite (p : BitVec 3) (n : BitVec 6) (j : BitVec 3) (v : BitVec 32) (s : State) : Host.Outcome State Fault Refusal :=
  .next (s.whenUp (fun s => s.writeColl p.toNat n.toNat j.toNat v))

/-- COLL_TEARDOWN (R366): clearing VALID tears the descriptor down after the frame in progress. -/
def cmdCollTeardown (p : BitVec 3) (n : BitVec 6) (s : State) : Host.Outcome State Fault Refusal :=
  .next (s.whenUp (fun s => s.tearDown p.toNat n.toNat))

/-- UNCORRECTABLE_FRAME (R399): A Lampline receiver meets a frame with an uncorrectable FEC codeword, discards it and sets RPLY
until the sender replays. -/
def cmdUncorrectableFrame (p : BitVec 3) (s : State) : Host.Outcome State Fault Refusal :=
  .next (uncorrectableFrame p.toNat s)

/-- LAMPLINE_LINK_UP (R428): A Lampline port whose link was down or lost sees a peer appear, trains and comes up. -/
def cmdLamplineLinkUp (p : BitVec 3) (ok : BitVec 16) (s : State) : Host.Outcome State Fault Refusal :=
  .next (linkUp p.toNat ok s)

end Sys2Proof.Machine
end

