-- ==== Sys2Proof/Machine/PowerCmds.lean ====
section
/-!
DEFINITION. Firmware images, the Dimmer, starting, pins and the sideband.
-/
namespace Sys2Proof.Machine

/-- IMAGE_CHUNK (R549): accepts LEN bytes of an image at an offset. -/
def cmdImageChunk (s : State) : Host.Outcome State Fault Refusal :=
  .next (imageChunk s)

/-- IMAGE_VERIFY (R550): verifies an image's signature and SVN. -/
def cmdImageVerify (s : State) : Host.Outcome State Fault Refusal :=
  .next (imageVerify s)

/-- IMAGE_ACTIVATE (R550): writes the verified image to flash, cold-starting in recovery. -/
def cmdImageActivate (s : State) : Host.Outcome State Fault Refusal :=
  .next (imageActivate s)

/-- WAKE_BUDGET_WRITE (R540): A budget below the current exit latency starts a wake. -/
def cmdWakeBudgetWrite (v : BitVec 32) (s : State) : Host.Outcome State Fault Refusal :=
  .next (wakeBudgetWrite v s)

/-- CONTROL_PERIOD (R533): every 20 µs the Dimmer sets each die's voltage within limits; mailbox commands that waited for the
Lamplighter are then served (R551). -/
def cmdControlPeriod (o : DimObs) (s : State) : Host.Outcome State Fault Refusal :=
  .next (controlPeriod o s).serveMailbox

/-- POWER_STATE_ENTRY (R538): an idle unit passes a threshold and enters a deeper power state. -/
def cmdPowerStateEntry (u : PowerUnit) (n : BitVec 5) (s : State) : Host.Outcome State Fault Refusal :=
  .next (powerStateEntry u n s)

/-- WAKE_EVENT (R540): A wake event returns the needed units to Lit. -/
def cmdWakeEvent (dies : BitVec 2) (blocks : BitVec 32) (s : State) : Host.Outcome State Fault Refusal :=
  .next (wakeEvent dies blocks s)

/-- SNUFFED_ENTRY (R541): the host places the physical function in D3cold. -/
def cmdSnuffedEntry (s : State) : Host.Outcome State Fault Refusal :=
  .next (snuffedEntry s)

/-- SEAM_RATIO_WINDOW (R259): each 1 µs window updates SEAM_RATIO from both dies' beats. -/
def cmdSeamRatioWindow (hold : BitVec 32) (s : State) : Host.Outcome State Fault Refusal :=
  .next (seamRatioWindow hold s)

/-- POWER_GOOD (R558): power good starts a cold start. -/
def cmdPowerGood (mv : BitVec 17) (s : State) : Host.Outcome State Fault Refusal :=
  .next (powerGood mv s)

/-- COLD_START (R545): the cold start runs its steps in order. -/
def cmdColdStart (o : StartObs) (s : State) : Host.Outcome State Fault Refusal :=
  .next (coldStart o s)

/-- WARM_START (R546): A warm start runs keeping ownership and, where powered, HBM. -/
def cmdWarmStart (o : StartObs) (s : State) : Host.Outcome State Fault Refusal :=
  .next (warmStart o s)

/-- START_TIMEOUT (R548): A start not complete after 30 s fails. -/
def cmdStartTimeout (s : State) : Host.Outcome State Fault Refusal :=
  .next (startTimeout s)

/-- RECOVERY (R549): the ROM trains CXL.io only and accepts an image. -/
def cmdRecovery (o : LinkObs) (s : State) : Host.Outcome State Fault Refusal :=
  .next (recovery o s)

/-- LMC_WATCHDOG (R551): the Lamplighter watchdog expires and restarts it. -/
def cmdLmcWatchdog (s : State) : Host.Outcome State Fault Refusal :=
  .next (lmcWatchdog s)

/-- PERST_ASSERT (R566): PERST_N asserts, causing conventional reset. -/
def cmdPerstAssert (s : State) : Host.Outcome State Fault Refusal :=
  .next (perstAssert s)

/-- PERST_DEASSERT (R566): PERST_N deasserts, releasing step 6b or starting a warm start. -/
def cmdPerstDeassert (s : State) : Host.Outcome State Fault Refusal :=
  .next (perstDeassert s)

/-- PWR_WARN_ASSERT (R567): A lasting PWR_WARN_N coasts every ring and stops admission. -/
def cmdPwrWarnAssert (s : State) : Host.Outcome State Fault Refusal :=
  .next (pwrWarnAssert s)

/-- PWR_WARN_DEASSERT (R567): admission resumes 10 ms after PWR_WARN_N deasserts. -/
def cmdPwrWarnDeassert (s : State) : Host.Outcome State Fault Refusal :=
  .next (pwrWarnDeassert s)

/-- VIN_UNDERVOLTAGE (R558): VIN below 41 V for 50 µs removes power. -/
def cmdVinUndervoltage (mv : BitVec 17) (s : State) : Host.Outcome State Fault Refusal :=
  .next (vinUndervoltage mv s)

/-- PRSNT_BREAK (R559): PRSNT_N breaks and the hot-swap controller opens VIN. -/
def cmdPrsntBreak (s : State) : Host.Outcome State Fault Refusal :=
  .next (prsntBreak s)

/-- REFCLK_LOSS (R561): REFCLK is lost; the time stamp follows the on-board oscillator. -/
def cmdRefclkLoss (s : State) : Host.Outcome State Fault Refusal :=
  .next (refclkLoss s)

/-- REFCLK_RESUME (R561): REFCLK resumes and the time stamp returns to it. -/
def cmdRefclkResume (s : State) : Host.Outcome State Fault Refusal :=
  .next (refclkResume s)

/-- MCTP_CONTROL (R562): an MCTP control message is served. -/
def cmdMctpControl (code : BitVec 8) (s : State) : Host.Outcome State Fault Refusal :=
  .next (mctpControl code s)

/-- PLDM_SENSOR_READ (R562): A PLDM sensor read returns power and temperatures. -/
def cmdPldmSensorRead (x : Sensor) (s : State) : Host.Outcome State Fault Refusal :=
  .next (pldmSensorRead x s)

/-- MCTP_WAKE_REQUEST (R563): in Snuffed, a wake request asserts WAKE_N. -/
def cmdMctpWakeRequest (s : State) : Host.Outcome State Fault Refusal :=
  .next (mctpWakeRequest s)

/-- SMBUS_ARP (R562): the platform reassigns the SMBus address. -/
def cmdSmbusArp (a : BitVec 7) (s : State) : Host.Outcome State Fault Refusal :=
  .next (smbusArp a s)

/-- VIN_OVERVOLTAGE (R556): the input rises above 60 V and the module turns its rails off. -/
def cmdVinOvervoltage (mv : BitVec 17) (s : State) : Host.Outcome State Fault Refusal :=
  .next (vinOvervoltage mv s)

end Sys2Proof.Machine
end

