-- ==== Sys2Proof/Machine/RegisterCmds.lean ====
section
/-!
DEFINITION. BAR0, resets, windows and fault records.
-/
namespace Sys2Proof.Machine

/-- EL_RD_WRITE (R522): sets the event-log read pointer, clamped to held entries. -/
def cmdElRdWrite (v : BitVec 64) (s : State) : Host.Outcome State Fault Refusal :=
  .next (elRdWrite v s)

/-- FR_POP (R520): removes the head fault record of the function's mailbox. -/
def cmdFrPop (who : Who) (s : State) : Host.Outcome State Fault Refusal :=
  .next (frPop who s)

/-- CLEAR_ON_READ (R11): A read of an RC or SAT register returns and clears it. -/
def cmdClearOnRead (r : RegRead) (s : State) : Host.Outcome State Fault Refusal :=
  .next (clearOnRead r s)

/-- PAIR_HI_WRITE (R495): A _HI write applies a held _LO and itself together. -/
def cmdPairHiWrite (who : Who) (off : BitVec 26) (v : BitVec 32) (s : State) : Host.Outcome State Fault Refusal :=
  .next (pairHiWrite who off v s)

/-- SET_ALIAS (R496): writes v OR m to the aliased register. -/
def cmdSetAlias (who : Who) (off : BitVec 20) (m : BitVec 32) (s : State) : Host.Outcome State Fault Refusal :=
  .next (aliasWrite 1 who (off.toNat / 4 * 4) m s)

/-- CLEAR_ALIAS (R496): writes v AND NOT m to the aliased register. -/
def cmdClearAlias (who : Who) (off : BitVec 20) (m : BitVec 32) (s : State) : Host.Outcome State Fault Refusal :=
  .next (aliasWrite 2 who (off.toNat / 4 * 4) m s)

/-- TOGGLE_ALIAS (R496): writes v XOR m to the aliased register. -/
def cmdToggleAlias (who : Who) (off : BitVec 20) (m : BitVec 32) (s : State) : Host.Outcome State Fault Refusal :=
  .next (aliasWrite 3 who (off.toNat / 4 * 4) m s)

/-- FLAG_BIT_WRITE (R500): sets or clears one flag bit through the bit alias. -/
def cmdFlagBitWrite (who : Who) (w : BitVec 10) (b : BitVec 5) (on : Bool) (s : State) : Host.Outcome State Fault Refusal :=
  .next (flagBitWrite who w.toNat b.toNat on s)

/-- REGISTER_WRITE (R489): A write to a register without a row of its own, including staged pending values. -/
def cmdRegisterWrite (w : RegWrite) (s : State) : Host.Outcome State Fault Refusal :=
  .next (registerWrite w s)

/-- WARM_RESTART_REQUEST (R547): RST_CTL.WARM stops all work and starts a warm start. -/
def cmdWarmRestartRequest (s : State) : Host.Outcome State Fault Refusal :=
  .next (warmRestartRequest s)

/-- LMC_RESTART (R551): RST_CTL.LMC restarts the Lamplighter alone. -/
def cmdLmcRestart (s : State) : Host.Outcome State Fault Refusal :=
  .next (lmcRestart s)

/-- PARTITION_RESET (R503): RST_PART stops all of a partition's work without changing ownership. -/
def cmdPartitionReset (p : BitVec 5) (s : State) : Host.Outcome State Fault Refusal :=
  .next (partitionReset p s)

/-- FUNCTION_LEVEL_RESET (R503): an FLR of a virtual function performs the partition reset. -/
def cmdFunctionLevelReset (p : BitVec 5) (s : State) : Host.Outcome State Fault Refusal :=
  .next (functionLevelReset p s)

/-- TILE_RESET (R504): resets an UNASSIGNED tile's registers and MXA state. -/
def cmdTileReset (t : TileId) (s : State) : Host.Outcome State Fault Refusal :=
  .next (tileReset t s)

/-- WIN_OPEN (R524): opens a CLOSED window entry. -/
def cmdWinOpen (n : BitVec 12) (s : State) : Host.Outcome State Fault Refusal :=
  .next (s.whenUp (fun s => s.winOpen n.toNat))

/-- WIN_CLOSE (R528): sets a window CLOSING and sends drain markers. -/
def cmdWinClose (n : BitVec 12) (s : State) : Host.Outcome State Fault Refusal :=
  .next (s.whenUp (fun s => s.winClose n.toNat))

/-- WIN_CLOSE_COMPLETE (R528): the window becomes CLOSED with GEN + 1 once markers return and host writes complete. -/
def cmdWinCloseComplete (n : BitVec 12) (s : State) : Host.Outcome State Fault Refusal :=
  .next (winCloseComplete n.toNat s)

/-- HOST_WINDOW_WRITE (R527): A host DMWr through an aperture port is applied or refused. -/
def cmdHostWindowWrite (k : BitVec 3) (o : BitVec 12) (bytes : List Byte) (s : State) : Host.Outcome State Fault Refusal :=
  .next (hostWindowWrite k.toNat o.toNat bytes s)

/-- FAULT_RECORD (R519): the Lamplighter writes a coalesced CPER fault record to mailboxes, platform and log. -/
def cmdFaultRecord (s : State) : Host.Outcome State Fault Refusal :=
  .next (faultRecord s)

end Sys2Proof.Machine
end

