-- ==== Sys2Proof/Machine/VecMem.lean ====
section
/-!
DEFINITION. The vector load and store words (R84, R135–R138).
-/
namespace Sys2Proof.Machine

/-- FMT, MODE and STRIDE of a slot-B memory word (R85, Table 3-6). -/
def okMB (o : OpM) : Bool :=
  o.fmt.toNat ≤ 7 && o.mode.toNat ≤ 3 &&
    (if o.mode = 1 then true else if o.mode = 2 then o.stride.toNat < 32 else o.stride = 0)

/-- Active elements of a memory word. -/
def memActive (o : OpM) (old : Tile) : List Nat := activeList old o.vm (8 * memSize o.fmt)

/-- The v registers a memory word reads. -/
def memVr (o : OpM) : List (BitVec 5) := if o.mode = 2 then [o.vm, o.stride.truncate 5] else [o.vm]

/-- The first active element, in element order, whose address fails its check (R84, Table 2-8). -/
def vecCheck (as : List Nat) (sz : Nat) : List (Nat × Nat) :=
  match as.find? (badElem sz) with
  | some a => [(tileADDR, a)]
  | none => []

/-- VLD (R135): only the element addresses of active elements are checked and read, so with MODE 0b011 and no active element
g[RB] + OFF is neither. DESIGN CHOICE, unsafe: assumption 60. -/
def wVld (h : Hdr) (o : OpM) : TileWord :=
  { bad := !okMB o
    hdr := h
    vd := [o.rt]
    vr := memVr o
    reads := fun old => (memActive o old).map (fun j => (elemAddr o old j, memSize o.fmt))
    check := fun _ old _ => vecCheck ((memActive o old).map (elemAddr o old)) (memSize o.fmt)
    run := onTile fun old x =>
      let sz := memSize o.fmt
      x.setV o.rt (maskRow' old o.vm (8 * sz) (old.v o.rt)
        (fun j => readLE x.shelf (elemAddr o old j) sz)) }
where
  /-- New elements computed only where active. -/
  maskRow' (t : Tile) (vm : BitVec 5) (w : Nat) (dst : Row) (f : Nat → Nat) : Row :=
    packRow w ((elems w dst).zipIdx.map (fun c => if active t vm w c.2 then f c.2 else c.1))

/-- Bytes that a vector store writes: pairs of element and address, in ascending element order, so that the highest
index supplies colliding bytes (R137). -/
def vecBytes (old : Tile) (rt : BitVec 5) (sz : Nat) (l : List (Nat × Nat)) : List (Nat × Byte) :=
  l.flatMap (fun c => at' c.2 (leBytes sz (((old.v rt).toNat >>> (8 * sz * c.1)) % 2 ^ (8 * sz))))

/-- A vector store over (element, address) pairs: every address is checked before anything is written (R136). -/
def wVecStore (bad : Bool) (h : Hdr) (o : OpM) (pairs : Tile → List (Nat × Nat)) : TileWord :=
  { bad := bad
    hdr := h
    vr := o.rt :: memVr o
    stores := fun old => (pairs old).flatMap (fun c => (List.range (memSize o.fmt)).map (c.2 + ·))
    check := fun _ old _ => vecCheck ((pairs old).map (·.2)) (memSize o.fmt)
    run := fun tid old s => storeProg tid (vecBytes old o.rt (memSize o.fmt) (pairs old)) s }

def wVst (h : Hdr) (o : OpM) : TileWord :=
  wVecStore (!(okMB o && o.mode ≠ 3)) h o (fun old => (memActive o old).map (fun j => (j, elemAddr o old j)))

/-- VSTC: the active elements to consecutive element addresses (R138). -/
def wVstc (h : Hdr) (o : OpM) : TileWord :=
  wVecStore (!(okMB o && o.mode = 0)) h o
    (fun old => (memActive o old).zipIdx.map (fun c => (c.1, elemAddr o old c.2)))

end Sys2Proof.Machine
end

