-- ==== Sys2Proof/Machine/WordTable.lean ====
section
/-!
DEFINITION. The opcode maps (Tables 3-10 and 3-11): what each word of slot A and slot B is, and the reading of a raw word.
-/
namespace Sys2Proof.Machine

/-- The bits of a word in format R (Tables 3-1, 3-4). -/
def rawR (maj min : Nat) (h : Hdr) (o : OpR) : Word :=
  BitVec.ofNat 64 (maj * 2 ^ 58 + h.pred.toNat * 2 ^ 55 + b2n h.pinv * 2 ^ 54 + min * 2 ^ 48 + o.rd.toNat * 2 ^ 43
    + o.ra.toNat * 2 ^ 38 + o.rb.toNat * 2 ^ 33 + o.rc.toNat * 2 ^ 28 + o.fmt.toNat * 2 ^ 24 + o.rm.toNat * 2 ^ 21
    + o.vm.toNat * 2 ^ 16 + o.fn.toNat)

/-- A word that the sentinel samples, with its bits, which go to the partner in a word item (R512, R513). -/
def sampled (maj min : Nat) (h : Hdr) (o : OpR) (w : TileWord) : TileWord := { w with raw := rawR maj min h o }

/-- ADD: MAJ 0x01, MIN 0x00. -/
def wordAdd (h : Hdr) (o : OpR) : TileWord := wAlu aluAdd h o
/-- SUB: MAJ 0x01, MIN 0x01. -/
def wordSub (h : Hdr) (o : OpR) : TileWord := wAlu aluSub h o
/-- AND: MAJ 0x01, MIN 0x02. -/
def wordAnd (h : Hdr) (o : OpR) : TileWord := wAlu aluAnd h o
/-- OR: MAJ 0x01, MIN 0x03. -/
def wordOr (h : Hdr) (o : OpR) : TileWord := wAlu aluOr h o
/-- XOR: MAJ 0x01, MIN 0x04. -/
def wordXor (h : Hdr) (o : OpR) : TileWord := wAlu aluXor h o
/-- ANDN: MAJ 0x01, MIN 0x05. -/
def wordAndn (h : Hdr) (o : OpR) : TileWord := wAlu aluAndn h o
/-- SHL: MAJ 0x01, MIN 0x06. -/
def wordShl (h : Hdr) (o : OpR) : TileWord := wAlu aluShl h o
/-- SHR: MAJ 0x01, MIN 0x07. -/
def wordShr (h : Hdr) (o : OpR) : TileWord := wAlu aluShr h o
/-- SAR: MAJ 0x01, MIN 0x08. -/
def wordSar (h : Hdr) (o : OpR) : TileWord := wAlu aluSar h o
/-- ROL: MAJ 0x01, MIN 0x09. -/
def wordRol (h : Hdr) (o : OpR) : TileWord := wAlu aluRol h o
/-- MUL: MAJ 0x01, MIN 0x0A. -/
def wordMul (h : Hdr) (o : OpR) : TileWord := wAlu aluMul h o
/-- MULHU: MAJ 0x01, MIN 0x0B. -/
def wordMulhu (h : Hdr) (o : OpR) : TileWord := wAluH aluMulhu h o
/-- MULHS: MAJ 0x01, MIN 0x0C. -/
def wordMulhs (h : Hdr) (o : OpR) : TileWord := wAluH aluMulhs h o
/-- MIN: MAJ 0x01, MIN 0x0D. -/
def wordMin (h : Hdr) (o : OpR) : TileWord := wAlu aluMin h o
/-- MAX: MAJ 0x01, MIN 0x0E. -/
def wordMax (h : Hdr) (o : OpR) : TileWord := wAlu aluMax h o
/-- MINU: MAJ 0x01, MIN 0x0F. -/
def wordMinu (h : Hdr) (o : OpR) : TileWord := wAlu aluMinu h o
/-- MAXU: MAJ 0x01, MIN 0x10. -/
def wordMaxu (h : Hdr) (o : OpR) : TileWord := wAlu aluMaxu h o
/-- CLZ: MAJ 0x01, MIN 0x11. -/
def wordClz (h : Hdr) (o : OpR) : TileWord := wAlu1 aluClz h o
/-- CTZ: MAJ 0x01, MIN 0x12. -/
def wordCtz (h : Hdr) (o : OpR) : TileWord := wAlu1 aluCtz h o
/-- POPC: MAJ 0x01, MIN 0x13. -/
def wordPopc (h : Hdr) (o : OpR) : TileWord := wAlu1 aluPopc h o
/-- SEL: MAJ 0x01, MIN 0x14. -/
def wordSel (h : Hdr) (o : OpR) : TileWord := wSel h o
/-- ADDI: MAJ 0x02, MIN 0x00. -/
def wordAddi (h : Hdr) (o : OpI) : TileWord := wAluI aluAdd h o
/-- ANDI: MAJ 0x02, MIN 0x02. -/
def wordAndi (h : Hdr) (o : OpI) : TileWord := wAluI aluAnd h o
/-- ORI: MAJ 0x02, MIN 0x03. -/
def wordOri (h : Hdr) (o : OpI) : TileWord := wAluI aluOr h o
/-- XORI: MAJ 0x02, MIN 0x04. -/
def wordXori (h : Hdr) (o : OpI) : TileWord := wAluI aluXor h o
/-- SHLI: MAJ 0x02, MIN 0x06. -/
def wordShli (h : Hdr) (o : OpI) : TileWord := wAluI aluShl h o
/-- SHRI: MAJ 0x02, MIN 0x07. -/
def wordShri (h : Hdr) (o : OpI) : TileWord := wAluI aluShr h o
/-- SARI: MAJ 0x02, MIN 0x08. -/
def wordSari (h : Hdr) (o : OpI) : TileWord := wAluI aluSar h o
/-- MULI: MAJ 0x02, MIN 0x0A. -/
def wordMuli (h : Hdr) (o : OpI) : TileWord := wAluI aluMul h o
/-- CEQ: MAJ 0x03, MIN 0x00. -/
def wordCeq (h : Hdr) (o : OpR) : TileWord := wCmp .eq h o
/-- CNE: MAJ 0x03, MIN 0x01. -/
def wordCne (h : Hdr) (o : OpR) : TileWord := wCmp .ne h o
/-- CLT: MAJ 0x03, MIN 0x02. -/
def wordClt (h : Hdr) (o : OpR) : TileWord := wCmp .lt h o
/-- CGE: MAJ 0x03, MIN 0x03. -/
def wordCge (h : Hdr) (o : OpR) : TileWord := wCmp .ge h o
/-- CLTU: MAJ 0x03, MIN 0x04. -/
def wordCltu (h : Hdr) (o : OpR) : TileWord := wCmp .ltu h o
/-- CGEU: MAJ 0x03, MIN 0x05. -/
def wordCgeu (h : Hdr) (o : OpR) : TileWord := wCmp .geu h o
/-- CEQ_IMM: MAJ 0x04, MIN 0x00. -/
def wordCeqImm (h : Hdr) (o : OpI) : TileWord := wCmpI .eq h o
/-- CNE_IMM: MAJ 0x04, MIN 0x01. -/
def wordCneImm (h : Hdr) (o : OpI) : TileWord := wCmpI .ne h o
/-- CLT_IMM: MAJ 0x04, MIN 0x02. -/
def wordCltImm (h : Hdr) (o : OpI) : TileWord := wCmpI .lt h o
/-- CGE_IMM: MAJ 0x04, MIN 0x03. -/
def wordCgeImm (h : Hdr) (o : OpI) : TileWord := wCmpI .ge h o
/-- CLTU_IMM: MAJ 0x04, MIN 0x04. -/
def wordCltuImm (h : Hdr) (o : OpI) : TileWord := wCmpI .ltu h o
/-- CGEU_IMM: MAJ 0x04, MIN 0x05. -/
def wordCgeuImm (h : Hdr) (o : OpI) : TileWord := wCmpI .geu h o
/-- PAND: MAJ 0x03, MIN 0x08. -/
def wordPand (h : Hdr) (o : OpR) : TileWord := wPred (fun a b => a && b) h o
/-- POR: MAJ 0x03, MIN 0x09. -/
def wordPor (h : Hdr) (o : OpR) : TileWord := wPred (fun a b => a || b) h o
/-- PXOR: MAJ 0x03, MIN 0x0A. -/
def wordPxor (h : Hdr) (o : OpR) : TileWord := wPred (fun a b => a != b) h o
/-- PANDN: MAJ 0x03, MIN 0x0B. -/
def wordPandn (h : Hdr) (o : OpR) : TileWord := wPred (fun a b => a && !b) h o
/-- PMOV: MAJ 0x03, MIN 0x0C. -/
def wordPmov (h : Hdr) (o : OpR) : TileWord := wPmov h o
/-- PGET: MAJ 0x03, MIN 0x0D. -/
def wordPget (h : Hdr) (o : OpR) : TileWord := wPget h o
/-- LD: MAJ 0x05, MIN 0x00. -/
def wordLd (h : Hdr) (o : OpM) : TileWord := wLoad true h o
/-- LDU: MAJ 0x05, MIN 0x01. -/
def wordLdu (h : Hdr) (o : OpM) : TileWord := wLoad false h o
/-- ST: MAJ 0x06, MIN 0x00. -/
def wordSt (h : Hdr) (o : OpM) : TileWord := wStore h o
/-- B: MAJ 0x07, MIN 0x00. -/
def wordB (h : Hdr) (o : OpI) : TileWord := wBranch h o
/-- BL: MAJ 0x07, MIN 0x01. -/
def wordBl (h : Hdr) (o : OpI) : TileWord := wBl h o
/-- JR: MAJ 0x07, MIN 0x02. -/
def wordJr (h : Hdr) (o : OpI) : TileWord := wJr h o
/-- DBNZ: MAJ 0x07, MIN 0x03. -/
def wordDbnz (h : Hdr) (o : OpI) : TileWord := wDbnz h o
/-- IFLUSH: MAJ 0x08, MIN 0x00. -/
def wordIflush (h : Hdr) (o : OpI) : TileWord := wIflush h o
/-- FENCE: MAJ 0x08, MIN 0x01. -/
def wordFence (h : Hdr) (o : OpI) : TileWord := wFence h o
/-- TSTAMP: MAJ 0x08, MIN 0x02. -/
def wordTstamp (h : Hdr) (o : OpI) : TileWord := wTstamp h o
/-- BEATS: MAJ 0x08, MIN 0x03. -/
def wordBeats (h : Hdr) (o : OpI) : TileWord := wBeats h o
/-- SIG: MAJ 0x09, MIN 0x00. -/
def wordSig (h : Hdr) (o : OpS) : TileWord := wSig h o
/-- WAIT: MAJ 0x09, MIN 0x01. -/
def wordWait (h : Hdr) (o : OpS) : TileWord := wWait h o
/-- BAR: MAJ 0x09, MIN 0x02. -/
def wordBar (h : Hdr) (o : OpS) : TileWord := wBar h o
/-- CTRD: MAJ 0x09, MIN 0x03. -/
def wordCtrd (h : Hdr) (o : OpS) : TileWord := wCtrd h o
/-- SEND: MAJ 0x0A, MIN 0x00. -/
def wordSend (h : Hdr) (o : OpR) : TileWord := wSend h o
/-- MSTAT: MAJ 0x0A, MIN 0x01. -/
def wordMstat (h : Hdr) (o : OpR) : TileWord := wMstat h o
/-- COPY: MAJ 0x0B, MIN 0x00. -/
def wordCopy (h : Hdr) (o : OpX) : TileWord := wCopy h o
/-- EXCH: MAJ 0x0B, MIN 0x01. -/
def wordExch (h : Hdr) (o : OpX) : TileWord := wExch false h o
/-- EXCH_LAST: MAJ 0x0B, MIN 0x02. -/
def wordExchLast (h : Hdr) (o : OpX) : TileWord := wExch true h o
/-- CSRR: MAJ 0x0C, MIN 0x00. -/
def wordCsrr (h : Hdr) (o : OpI) : TileWord := wCsrr h o
/-- CSRW: MAJ 0x0C, MIN 0x01. -/
def wordCsrw (h : Hdr) (o : OpI) : TileWord := wCsrw h o
/-- RKEY: MAJ 0x0D, MIN 0x00. -/
def wordRkey (h : Hdr) (o : OpR) : TileWord := wRkey h o
/-- RCTR: MAJ 0x0D, MIN 0x01. -/
def wordRctr (h : Hdr) (o : OpR) : TileWord := wRctr h o
/-- RDRAW: MAJ 0x0D, MIN 0x02. -/
def wordRdraw (h : Hdr) (o : OpR) : TileWord := wRdraw h o
/-- RDRAWV: MAJ 0x0D, MIN 0x03. -/
def wordRdrawv (h : Hdr) (o : OpR) : TileWord := wRdrawv h o
/-- VADD: MAJ 0x10, MIN 0x00. -/
def wordVadd (h : Hdr) (o : OpR) : TileWord := sampled 0x10 0x00 h o (wVArith Fx.add (· + ·) h o)
/-- VSUB: MAJ 0x10, MIN 0x01. -/
def wordVsub (h : Hdr) (o : OpR) : TileWord := sampled 0x10 0x01 h o (wVArith Fx.sub (· - ·) h o)
/-- VMUL: MAJ 0x10, MIN 0x02. -/
def wordVmul (h : Hdr) (o : OpR) : TileWord := sampled 0x10 0x02 h o (wVArith Fx.mul (· * ·) h o)
/-- VFMA: MAJ 0x10, MIN 0x03. -/
def wordVfma (h : Hdr) (o : OpR) : TileWord := sampled 0x10 0x03 h o (wVfma h o)
/-- VMIN: MAJ 0x10, MIN 0x04. -/
def wordVmin (h : Hdr) (o : OpR) : TileWord := sampled 0x10 0x04 h o (wVMinMax Fx.minNum h o)
/-- VMAX: MAJ 0x10, MIN 0x05. -/
def wordVmax (h : Hdr) (o : OpR) : TileWord := sampled 0x10 0x05 h o (wVMinMax Fx.maxNum h o)
/-- VABS: MAJ 0x10, MIN 0x06. -/
def wordVabs (h : Hdr) (o : OpR) : TileWord := sampled 0x10 0x06 h o (wVUnary Fx.abs (fun i => (i.natAbs : Int)) h o)
/-- VNEG: MAJ 0x10, MIN 0x07. -/
def wordVneg (h : Hdr) (o : OpR) : TileWord := sampled 0x10 0x07 h o (wVUnary Fx.neg (fun i => -i) h o)
/-- VAND: MAJ 0x10, MIN 0x08. -/
def wordVand (h : Hdr) (o : OpR) : TileWord := sampled 0x10 0x08 h o (wVBit (· &&& ·) h o)
/-- VOR: MAJ 0x10, MIN 0x09. -/
def wordVor (h : Hdr) (o : OpR) : TileWord := sampled 0x10 0x09 h o (wVBit (· ||| ·) h o)
/-- VXOR: MAJ 0x10, MIN 0x0A. -/
def wordVxor (h : Hdr) (o : OpR) : TileWord := sampled 0x10 0x0A h o (wVBit (· ^^^ ·) h o)
/-- VSHL: MAJ 0x10, MIN 0x0B. -/
def wordVshl (h : Hdr) (o : OpR) : TileWord := sampled 0x10 0x0B h o (wVShift shlE h o)
/-- VSHR: MAJ 0x10, MIN 0x0C. -/
def wordVshr (h : Hdr) (o : OpR) : TileWord := sampled 0x10 0x0C h o (wVShift shrE h o)
/-- VSAR: MAJ 0x10, MIN 0x0D. -/
def wordVsar (h : Hdr) (o : OpR) : TileWord := sampled 0x10 0x0D h o (wVShift sarE h o)
/-- VCEQ: MAJ 0x10, MIN 0x0E. -/
def wordVceq (h : Hdr) (o : OpR) : TileWord := sampled 0x10 0x0E h o (wVCmp .eq h o)
/-- VCLT: MAJ 0x10, MIN 0x0F. -/
def wordVclt (h : Hdr) (o : OpR) : TileWord := sampled 0x10 0x0F h o (wVCmp .lt h o)
/-- VCLE: MAJ 0x10, MIN 0x10. -/
def wordVcle (h : Hdr) (o : OpR) : TileWord := sampled 0x10 0x10 h o (wVCmp .le h o)
/-- VSEL: MAJ 0x10, MIN 0x11. -/
def wordVsel (h : Hdr) (o : OpR) : TileWord := sampled 0x10 0x11 h o (wVsel h o)
/-- VEXP: MAJ 0x10, MIN 0x12. -/
def wordVexp (h : Hdr) (o : OpR) : TileWord := sampled 0x10 0x12 h o (wVFun Fx.exp h o)
/-- VRCP: MAJ 0x10, MIN 0x13. -/
def wordVrcp (h : Hdr) (o : OpR) : TileWord := sampled 0x10 0x13 h o (wVFun Fx.recip h o)
/-- VRSQ: MAJ 0x10, MIN 0x14. -/
def wordVrsq (h : Hdr) (o : OpR) : TileWord := sampled 0x10 0x14 h o (wVFun Fx.rsqrt h o)
/-- VMOV: MAJ 0x10, MIN 0x15. -/
def wordVmov (h : Hdr) (o : OpR) : TileWord := sampled 0x10 0x15 h o (wVmov h o)
/-- VBCG: MAJ 0x10, MIN 0x16. -/
def wordVbcg (h : Hdr) (o : OpR) : TileWord := wVbcg h o
/-- VEXTG: MAJ 0x10, MIN 0x17. -/
def wordVextg (h : Hdr) (o : OpR) : TileWord := wVextg h o
/-- VPERM: MAJ 0x10, MIN 0x18. -/
def wordVperm (h : Hdr) (o : OpR) : TileWord := sampled 0x10 0x18 h o (wVperm h o)
/-- VRSUM: MAJ 0x11, MIN 0x00. -/
def wordVrsum (h : Hdr) (o : OpR) : TileWord := sampled 0x11 0x00 h o (wVrsum h o)
/-- VRMAX: MAJ 0x11, MIN 0x01. -/
def wordVrmax (h : Hdr) (o : OpR) : TileWord := sampled 0x11 0x01 h o (wVrext Fx.maxNum h o)
/-- VRMIN: MAJ 0x11, MIN 0x02. -/
def wordVrmin (h : Hdr) (o : OpR) : TileWord := sampled 0x11 0x02 h o (wVrext Fx.minNum h o)
/-- VSCAN: MAJ 0x11, MIN 0x03. -/
def wordVscan (h : Hdr) (o : OpR) : TileWord := sampled 0x11 0x03 h o (wVscan (okRm o) (arith2 Fx.add (· + ·) o.fmt.toNat o.rm.toNat) h o)
/-- VSCANMAX: MAJ 0x11, MIN 0x04. -/
def wordVscanmax (h : Hdr) (o : OpR) : TileWord :=
  sampled 0x11 0x04 h o (wVscan (o.rm = 0) (fun a b => toElem o.fmt.toNat .rne (Fx.maxNum (elemFx o.fmt.toNat a) (elemFx o.fmt.toNat b))) h o)
/-- VLD: MAJ 0x12, MIN 0x00. -/
def wordVld (h : Hdr) (o : OpM) : TileWord := wVld h o
/-- VST: MAJ 0x13, MIN 0x00. -/
def wordVst (h : Hdr) (o : OpM) : TileWord := wVst h o
/-- VSTC: MAJ 0x13, MIN 0x01. -/
def wordVstc (h : Hdr) (o : OpM) : TileWord := wVstc h o
/-- VMERGE: MAJ 0x14, MIN 0x00. -/
def wordVmerge (h : Hdr) (o : OpR) : TileWord := sampled 0x14 0x00 h o (wVmerge h o)
/-- VISECT: MAJ 0x14, MIN 0x01. -/
def wordVisect (h : Hdr) (o : OpR) : TileWord := sampled 0x14 0x01 h o (wVisect h o)
/-- VDIFF: MAJ 0x14, MIN 0x02. -/
def wordVdiff (h : Hdr) (o : OpR) : TileWord := sampled 0x14 0x02 h o (wVdiff h o)
/-- VDEDUP: MAJ 0x14, MIN 0x03. -/
def wordVdedup (h : Hdr) (o : OpR) : TileWord := sampled 0x14 0x03 h o (wVdedup h o)
/-- VSORT: MAJ 0x14, MIN 0x04. -/
def wordVsort (h : Hdr) (o : OpR) : TileWord := sampled 0x14 0x04 h o (wVsort h o)
/-- VCVT: MAJ 0x15, MIN 0x00. -/
def wordVcvt (h : Hdr) (o : OpR) : TileWord := sampled 0x15 0x00 h o (wVcvt h o)
/-- VMXSC: MAJ 0x15, MIN 0x01. -/
def wordVmxsc (h : Hdr) (o : OpR) : TileWord := sampled 0x15 0x01 h o (wVmxsc h o)
/-- WELF: MAJ 0x16, MIN 0x00. -/
def wordWelf (h : Hdr) (o : OpR) : TileWord := sampled 0x16 0x00 h o (wWelf h o)
/-- WELFM: MAJ 0x16, MIN 0x01. -/
def wordWelfm (h : Hdr) (o : OpR) : TileWord := sampled 0x16 0x01 h o (wWelfm h o)
/-- SLOAD: MAJ 0x18, MIN 0x00. -/
def wordSload (h : Hdr) (o : OpT) : TileWord := wSload h o
/-- SSWAP: MAJ 0x18, MIN 0x01. -/
def wordSswap (h : Hdr) (o : OpT) : TileWord := wSswap h o
/-- MMUL: MAJ 0x18, MIN 0x02. -/
def wordMmul (h : Hdr) (o : OpT) : TileWord := wMmul h o
/-- AMOV: MAJ 0x19, MIN 0x00. -/
def wordAmov (h : Hdr) (o : OpT) : TileWord := wAmov h o
/-- AMOVI: MAJ 0x19, MIN 0x01. -/
def wordAmovi (h : Hdr) (o : OpT) : TileWord := wAmovi h o
/-- ACLR: MAJ 0x19, MIN 0x02. -/
def wordAclr (h : Hdr) (o : OpT) : TileWord := wAclr h o
/-- ADRAIN: MAJ 0x19, MIN 0x03. -/
def wordAdrain (h : Hdr) (o : OpT) : TileWord := wAdrain h o
/-- AADD: MAJ 0x19, MIN 0x04. -/
def wordAadd (h : Hdr) (o : OpT) : TileWord := wAadd h o

/-- The words of major opcode 0x01. -/
def major01 (w : Word) : TileWord :=
  match wMin w with
  | 0x00 => wordAdd (wHdr w) (wOpR w)
  | 0x01 => wordSub (wHdr w) (wOpR w)
  | 0x02 => wordAnd (wHdr w) (wOpR w)
  | 0x03 => wordOr (wHdr w) (wOpR w)
  | 0x04 => wordXor (wHdr w) (wOpR w)
  | 0x05 => wordAndn (wHdr w) (wOpR w)
  | 0x06 => wordShl (wHdr w) (wOpR w)
  | 0x07 => wordShr (wHdr w) (wOpR w)
  | 0x08 => wordSar (wHdr w) (wOpR w)
  | 0x09 => wordRol (wHdr w) (wOpR w)
  | 0x0A => wordMul (wHdr w) (wOpR w)
  | 0x0B => wordMulhu (wHdr w) (wOpR w)
  | 0x0C => wordMulhs (wHdr w) (wOpR w)
  | 0x0D => wordMin (wHdr w) (wOpR w)
  | 0x0E => wordMax (wHdr w) (wOpR w)
  | 0x0F => wordMinu (wHdr w) (wOpR w)
  | 0x10 => wordMaxu (wHdr w) (wOpR w)
  | 0x11 => wordClz (wHdr w) (wOpR w)
  | 0x12 => wordCtz (wHdr w) (wOpR w)
  | 0x13 => wordPopc (wHdr w) (wOpR w)
  | 0x14 => wordSel (wHdr w) (wOpR w)
  | _ => reservedWord

/-- The words of major opcode 0x02. -/
def major02 (w : Word) : TileWord :=
  match wMin w with
  | 0x00 => wordAddi (wHdr w) (wOpI w)
  | 0x02 => wordAndi (wHdr w) (wOpI w)
  | 0x03 => wordOri (wHdr w) (wOpI w)
  | 0x04 => wordXori (wHdr w) (wOpI w)
  | 0x06 => wordShli (wHdr w) (wOpI w)
  | 0x07 => wordShri (wHdr w) (wOpI w)
  | 0x08 => wordSari (wHdr w) (wOpI w)
  | 0x0A => wordMuli (wHdr w) (wOpI w)
  | _ => reservedWord

/-- The words of major opcode 0x03. -/
def major03 (w : Word) : TileWord :=
  match wMin w with
  | 0x00 => wordCeq (wHdr w) (wOpR w)
  | 0x01 => wordCne (wHdr w) (wOpR w)
  | 0x02 => wordClt (wHdr w) (wOpR w)
  | 0x03 => wordCge (wHdr w) (wOpR w)
  | 0x04 => wordCltu (wHdr w) (wOpR w)
  | 0x05 => wordCgeu (wHdr w) (wOpR w)
  | 0x08 => wordPand (wHdr w) (wOpR w)
  | 0x09 => wordPor (wHdr w) (wOpR w)
  | 0x0A => wordPxor (wHdr w) (wOpR w)
  | 0x0B => wordPandn (wHdr w) (wOpR w)
  | 0x0C => wordPmov (wHdr w) (wOpR w)
  | 0x0D => wordPget (wHdr w) (wOpR w)
  | _ => reservedWord

/-- The words of major opcode 0x04. -/
def major04 (w : Word) : TileWord :=
  match wMin w with
  | 0x00 => wordCeqImm (wHdr w) (wOpI w)
  | 0x01 => wordCneImm (wHdr w) (wOpI w)
  | 0x02 => wordCltImm (wHdr w) (wOpI w)
  | 0x03 => wordCgeImm (wHdr w) (wOpI w)
  | 0x04 => wordCltuImm (wHdr w) (wOpI w)
  | 0x05 => wordCgeuImm (wHdr w) (wOpI w)
  | _ => reservedWord

/-- The words of major opcode 0x05. -/
def major05 (w : Word) : TileWord :=
  match wMin w with
  | 0x00 => wordLd (wHdr w) (wOpM w)
  | 0x01 => wordLdu (wHdr w) (wOpM w)
  | _ => reservedWord

/-- The words of major opcode 0x06. -/
def major06 (w : Word) : TileWord :=
  match wMin w with
  | 0x00 => wordSt (wHdr w) (wOpM w)
  | _ => reservedWord

/-- The words of major opcode 0x07. -/
def major07 (w : Word) : TileWord :=
  match wMin w with
  | 0x00 => wordB (wHdr w) (wOpI w)
  | 0x01 => wordBl (wHdr w) (wOpI w)
  | 0x02 => wordJr (wHdr w) (wOpI w)
  | 0x03 => wordDbnz (wHdr w) (wOpI w)
  | _ => reservedWord

/-- The words of major opcode 0x08. -/
def major08 (w : Word) : TileWord :=
  match wMin w with
  | 0x00 => wordIflush (wHdr w) (wOpI w)
  | 0x01 => wordFence (wHdr w) (wOpI w)
  | 0x02 => wordTstamp (wHdr w) (wOpI w)
  | 0x03 => wordBeats (wHdr w) (wOpI w)
  | _ => reservedWord

/-- The words of major opcode 0x09. -/
def major09 (w : Word) : TileWord :=
  match wMin w with
  | 0x00 => wordSig (wHdr w) (wOpS w)
  | 0x01 => wordWait (wHdr w) (wOpS w)
  | 0x02 => wordBar (wHdr w) (wOpS w)
  | 0x03 => wordCtrd (wHdr w) (wOpS w)
  | _ => reservedWord

/-- The words of major opcode 0x0A. -/
def major0A (w : Word) : TileWord :=
  match wMin w with
  | 0x00 => wordSend (wHdr w) (wOpR w)
  | 0x01 => wordMstat (wHdr w) (wOpR w)
  | _ => reservedWord

/-- The words of major opcode 0x0B. -/
def major0B (w : Word) : TileWord :=
  match wMin w with
  | 0x00 => wordCopy (wHdr w) (wOpX w)
  | 0x01 => wordExch (wHdr w) (wOpX w)
  | 0x02 => wordExchLast (wHdr w) (wOpX w)
  | _ => reservedWord

/-- The words of major opcode 0x0C. -/
def major0C (w : Word) : TileWord :=
  match wMin w with
  | 0x00 => wordCsrr (wHdr w) (wOpI w)
  | 0x01 => wordCsrw (wHdr w) (wOpI w)
  | _ => reservedWord

/-- The words of major opcode 0x0D. -/
def major0D (w : Word) : TileWord :=
  match wMin w with
  | 0x00 => wordRkey (wHdr w) (wOpR w)
  | 0x01 => wordRctr (wHdr w) (wOpR w)
  | 0x02 => wordRdraw (wHdr w) (wOpR w)
  | 0x03 => wordRdrawv (wHdr w) (wOpR w)
  | _ => reservedWord

/-- A raw word of slot A (R78, R87). -/
def decA (w : Word) : TileWord :=
  match wMaj w with
  | 0x00 => nopWord w
  | 0x01 => major01 w
  | 0x02 => major02 w
  | 0x03 => major03 w
  | 0x04 => major04 w
  | 0x05 => major05 w
  | 0x06 => major06 w
  | 0x07 => major07 w
  | 0x08 => major08 w
  | 0x09 => major09 w
  | 0x0A => major0A w
  | 0x0B => major0B w
  | 0x0C => major0C w
  | 0x0D => major0D w
  | _ => reservedWord

/-- The words of major opcode 0x10. -/
def major10 (w : Word) : TileWord :=
  match wMin w with
  | 0x00 => wordVadd (wHdr w) (wOpR w)
  | 0x01 => wordVsub (wHdr w) (wOpR w)
  | 0x02 => wordVmul (wHdr w) (wOpR w)
  | 0x03 => wordVfma (wHdr w) (wOpR w)
  | 0x04 => wordVmin (wHdr w) (wOpR w)
  | 0x05 => wordVmax (wHdr w) (wOpR w)
  | 0x06 => wordVabs (wHdr w) (wOpR w)
  | 0x07 => wordVneg (wHdr w) (wOpR w)
  | 0x08 => wordVand (wHdr w) (wOpR w)
  | 0x09 => wordVor (wHdr w) (wOpR w)
  | 0x0A => wordVxor (wHdr w) (wOpR w)
  | 0x0B => wordVshl (wHdr w) (wOpR w)
  | 0x0C => wordVshr (wHdr w) (wOpR w)
  | 0x0D => wordVsar (wHdr w) (wOpR w)
  | 0x0E => wordVceq (wHdr w) (wOpR w)
  | 0x0F => wordVclt (wHdr w) (wOpR w)
  | 0x10 => wordVcle (wHdr w) (wOpR w)
  | 0x11 => wordVsel (wHdr w) (wOpR w)
  | 0x12 => wordVexp (wHdr w) (wOpR w)
  | 0x13 => wordVrcp (wHdr w) (wOpR w)
  | 0x14 => wordVrsq (wHdr w) (wOpR w)
  | 0x15 => wordVmov (wHdr w) (wOpR w)
  | 0x16 => wordVbcg (wHdr w) (wOpR w)
  | 0x17 => wordVextg (wHdr w) (wOpR w)
  | 0x18 => wordVperm (wHdr w) (wOpR w)
  | _ => reservedWord

/-- The words of major opcode 0x11. -/
def major11 (w : Word) : TileWord :=
  match wMin w with
  | 0x00 => wordVrsum (wHdr w) (wOpR w)
  | 0x01 => wordVrmax (wHdr w) (wOpR w)
  | 0x02 => wordVrmin (wHdr w) (wOpR w)
  | 0x03 => wordVscan (wHdr w) (wOpR w)
  | 0x04 => wordVscanmax (wHdr w) (wOpR w)
  | _ => reservedWord

/-- The words of major opcode 0x12. -/
def major12 (w : Word) : TileWord :=
  match wMin w with
  | 0x00 => wordVld (wHdr w) (wOpM w)
  | _ => reservedWord

/-- The words of major opcode 0x13. -/
def major13 (w : Word) : TileWord :=
  match wMin w with
  | 0x00 => wordVst (wHdr w) (wOpM w)
  | 0x01 => wordVstc (wHdr w) (wOpM w)
  | _ => reservedWord

/-- The words of major opcode 0x14. -/
def major14 (w : Word) : TileWord :=
  match wMin w with
  | 0x00 => wordVmerge (wHdr w) (wOpR w)
  | 0x01 => wordVisect (wHdr w) (wOpR w)
  | 0x02 => wordVdiff (wHdr w) (wOpR w)
  | 0x03 => wordVdedup (wHdr w) (wOpR w)
  | 0x04 => wordVsort (wHdr w) (wOpR w)
  | _ => reservedWord

/-- The words of major opcode 0x15. -/
def major15 (w : Word) : TileWord :=
  match wMin w with
  | 0x00 => wordVcvt (wHdr w) (wOpR w)
  | 0x01 => wordVmxsc (wHdr w) (wOpR w)
  | _ => reservedWord

/-- The words of major opcode 0x16. -/
def major16 (w : Word) : TileWord :=
  match wMin w with
  | 0x00 => wordWelf (wHdr w) (wOpR w)
  | 0x01 => wordWelfm (wHdr w) (wOpR w)
  | _ => reservedWord

/-- The words of major opcode 0x18. -/
def major18 (w : Word) : TileWord :=
  match wMin w with
  | 0x00 => wordSload (wHdr w) (wOpT w)
  | 0x01 => wordSswap (wHdr w) (wOpT w)
  | 0x02 => wordMmul (wHdr w) (wOpT w)
  | _ => reservedWord

/-- The words of major opcode 0x19. -/
def major19 (w : Word) : TileWord :=
  match wMin w with
  | 0x00 => wordAmov (wHdr w) (wOpT w)
  | 0x01 => wordAmovi (wHdr w) (wOpT w)
  | 0x02 => wordAclr (wHdr w) (wOpT w)
  | 0x03 => wordAdrain (wHdr w) (wOpT w)
  | 0x04 => wordAadd (wHdr w) (wOpT w)
  | _ => reservedWord

/-- A raw word of slot B (R78, R87). -/
def decB (w : Word) : TileWord :=
  match wMaj w with
  | 0x00 => nopWord w
  | 0x10 => major10 w
  | 0x11 => major11 w
  | 0x12 => major12 w
  | 0x13 => major13 w
  | 0x14 => major14 w
  | 0x15 => major15 w
  | 0x16 => major16 w
  | 0x18 => major18 w
  | 0x19 => major19 w
  | _ => reservedWord

end Sys2Proof.Machine
end

