-- ==== Sys2Proof/Machine/ScalarCmds.lean ====
section
/-!
DEFINITION. NOP and the words of slot A: the bundle that holds the word issues at its tile.
-/
namespace Sys2Proof.Machine

/-- NOP (R78): NOP in slot A: a word that is not all zero raises BAD_OP. -/
def cmdNop (t : TileId) (w : BitVec 64) (other : BitVec 64) (s : State) : Host.Outcome State Fault Refusal :=
  .next (issue t (nopWord w) (decB other) s)

/-- ADD (R110): scalar add of two g registers, wrapping. -/
def cmdAdd (t : TileId) (h : Hdr) (o : OpR) (other : BitVec 64) (s : State) : Host.Outcome State Fault Refusal :=
  .next (issue t (wordAdd h o) (decB other) s)

/-- SUB (R110): scalar subtract of two g registers, wrapping. -/
def cmdSub (t : TileId) (h : Hdr) (o : OpR) (other : BitVec 64) (s : State) : Host.Outcome State Fault Refusal :=
  .next (issue t (wordSub h o) (decB other) s)

/-- AND (R110): scalar bitwise AND. -/
def cmdAnd (t : TileId) (h : Hdr) (o : OpR) (other : BitVec 64) (s : State) : Host.Outcome State Fault Refusal :=
  .next (issue t (wordAnd h o) (decB other) s)

/-- OR (R110): scalar bitwise OR. -/
def cmdOr (t : TileId) (h : Hdr) (o : OpR) (other : BitVec 64) (s : State) : Host.Outcome State Fault Refusal :=
  .next (issue t (wordOr h o) (decB other) s)

/-- XOR (R110): scalar bitwise XOR. -/
def cmdXor (t : TileId) (h : Hdr) (o : OpR) (other : BitVec 64) (s : State) : Host.Outcome State Fault Refusal :=
  .next (issue t (wordXor h o) (decB other) s)

/-- ANDN (R110): scalar g[RA] AND NOT g[RB]. -/
def cmdAndn (t : TileId) (h : Hdr) (o : OpR) (other : BitVec 64) (s : State) : Host.Outcome State Fault Refusal :=
  .next (issue t (wordAndn h o) (decB other) s)

/-- SHL (R110): scalar shift left by register, modulo the width. -/
def cmdShl (t : TileId) (h : Hdr) (o : OpR) (other : BitVec 64) (s : State) : Host.Outcome State Fault Refusal :=
  .next (issue t (wordShl h o) (decB other) s)

/-- SHR (R110): scalar logical shift right by register. -/
def cmdShr (t : TileId) (h : Hdr) (o : OpR) (other : BitVec 64) (s : State) : Host.Outcome State Fault Refusal :=
  .next (issue t (wordShr h o) (decB other) s)

/-- SAR (R110): scalar arithmetic shift right by register. -/
def cmdSar (t : TileId) (h : Hdr) (o : OpR) (other : BitVec 64) (s : State) : Host.Outcome State Fault Refusal :=
  .next (issue t (wordSar h o) (decB other) s)

/-- ROL (R110): scalar rotate left by register. -/
def cmdRol (t : TileId) (h : Hdr) (o : OpR) (other : BitVec 64) (s : State) : Host.Outcome State Fault Refusal :=
  .next (issue t (wordRol h o) (decB other) s)

/-- MUL (R110): low bits of the scalar product, wrapping. -/
def cmdMul (t : TileId) (h : Hdr) (o : OpR) (other : BitVec 64) (s : State) : Host.Outcome State Fault Refusal :=
  .next (issue t (wordMul h o) (decB other) s)

/-- MULHU (R110): high 64 bits of the unsigned 128-bit product. -/
def cmdMulhu (t : TileId) (h : Hdr) (o : OpR) (other : BitVec 64) (s : State) : Host.Outcome State Fault Refusal :=
  .next (issue t (wordMulhu h o) (decB other) s)

/-- MULHS (R110): high 64 bits of the signed 128-bit product. -/
def cmdMulhs (t : TileId) (h : Hdr) (o : OpR) (other : BitVec 64) (s : State) : Host.Outcome State Fault Refusal :=
  .next (issue t (wordMulhs h o) (decB other) s)

/-- MIN (R110): signed scalar minimum. -/
def cmdMin (t : TileId) (h : Hdr) (o : OpR) (other : BitVec 64) (s : State) : Host.Outcome State Fault Refusal :=
  .next (issue t (wordMin h o) (decB other) s)

/-- MAX (R110): signed scalar maximum. -/
def cmdMax (t : TileId) (h : Hdr) (o : OpR) (other : BitVec 64) (s : State) : Host.Outcome State Fault Refusal :=
  .next (issue t (wordMax h o) (decB other) s)

/-- MINU (R110): unsigned scalar minimum. -/
def cmdMinu (t : TileId) (h : Hdr) (o : OpR) (other : BitVec 64) (s : State) : Host.Outcome State Fault Refusal :=
  .next (issue t (wordMinu h o) (decB other) s)

/-- MAXU (R110): unsigned scalar maximum. -/
def cmdMaxu (t : TileId) (h : Hdr) (o : OpR) (other : BitVec 64) (s : State) : Host.Outcome State Fault Refusal :=
  .next (issue t (wordMaxu h o) (decB other) s)

/-- CLZ (R110): count of leading zeros of g[RA]. -/
def cmdClz (t : TileId) (h : Hdr) (o : OpR) (other : BitVec 64) (s : State) : Host.Outcome State Fault Refusal :=
  .next (issue t (wordClz h o) (decB other) s)

/-- CTZ (R110): count of trailing zeros of g[RA]. -/
def cmdCtz (t : TileId) (h : Hdr) (o : OpR) (other : BitVec 64) (s : State) : Host.Outcome State Fault Refusal :=
  .next (issue t (wordCtz h o) (decB other) s)

/-- POPC (R110): count of set bits of g[RA]. -/
def cmdPopc (t : TileId) (h : Hdr) (o : OpR) (other : BitVec 64) (s : State) : Host.Outcome State Fault Refusal :=
  .next (issue t (wordPopc h o) (decB other) s)

/-- SEL (R110): selects g[RA] or g[RB] by a predicate. -/
def cmdSel (t : TileId) (h : Hdr) (o : OpR) (other : BitVec 64) (s : State) : Host.Outcome State Fault Refusal :=
  .next (issue t (wordSel h o) (decB other) s)

/-- ADDI (R110): scalar add of an immediate formed by SH. -/
def cmdAddi (t : TileId) (h : Hdr) (o : OpI) (other : BitVec 64) (s : State) : Host.Outcome State Fault Refusal :=
  .next (issue t (wordAddi h o) (decB other) s)

/-- ANDI (R110): scalar AND with an immediate. -/
def cmdAndi (t : TileId) (h : Hdr) (o : OpI) (other : BitVec 64) (s : State) : Host.Outcome State Fault Refusal :=
  .next (issue t (wordAndi h o) (decB other) s)

/-- ORI (R110): scalar OR with an immediate. -/
def cmdOri (t : TileId) (h : Hdr) (o : OpI) (other : BitVec 64) (s : State) : Host.Outcome State Fault Refusal :=
  .next (issue t (wordOri h o) (decB other) s)

/-- XORI (R110): scalar XOR with an immediate. -/
def cmdXori (t : TileId) (h : Hdr) (o : OpI) (other : BitVec 64) (s : State) : Host.Outcome State Fault Refusal :=
  .next (issue t (wordXori h o) (decB other) s)

/-- SHLI (R110): scalar shift left by an immediate. -/
def cmdShli (t : TileId) (h : Hdr) (o : OpI) (other : BitVec 64) (s : State) : Host.Outcome State Fault Refusal :=
  .next (issue t (wordShli h o) (decB other) s)

/-- SHRI (R110): scalar logical shift right by an immediate. -/
def cmdShri (t : TileId) (h : Hdr) (o : OpI) (other : BitVec 64) (s : State) : Host.Outcome State Fault Refusal :=
  .next (issue t (wordShri h o) (decB other) s)

/-- SARI (R110): scalar arithmetic shift right by an immediate. -/
def cmdSari (t : TileId) (h : Hdr) (o : OpI) (other : BitVec 64) (s : State) : Host.Outcome State Fault Refusal :=
  .next (issue t (wordSari h o) (decB other) s)

/-- MULI (R110): scalar multiply by an immediate. -/
def cmdMuli (t : TileId) (h : Hdr) (o : OpI) (other : BitVec 64) (s : State) : Host.Outcome State Fault Refusal :=
  .next (issue t (wordMuli h o) (decB other) s)

/-- CEQ (R111): sets a predicate when two registers are equal. -/
def cmdCeq (t : TileId) (h : Hdr) (o : OpR) (other : BitVec 64) (s : State) : Host.Outcome State Fault Refusal :=
  .next (issue t (wordCeq h o) (decB other) s)

/-- CNE (R111): sets a predicate when two registers differ. -/
def cmdCne (t : TileId) (h : Hdr) (o : OpR) (other : BitVec 64) (s : State) : Host.Outcome State Fault Refusal :=
  .next (issue t (wordCne h o) (decB other) s)

/-- CLT (R111): sets a predicate on signed less-than. -/
def cmdClt (t : TileId) (h : Hdr) (o : OpR) (other : BitVec 64) (s : State) : Host.Outcome State Fault Refusal :=
  .next (issue t (wordClt h o) (decB other) s)

/-- CGE (R111): sets a predicate on signed greater-or-equal. -/
def cmdCge (t : TileId) (h : Hdr) (o : OpR) (other : BitVec 64) (s : State) : Host.Outcome State Fault Refusal :=
  .next (issue t (wordCge h o) (decB other) s)

/-- CLTU (R111): sets a predicate on unsigned less-than. -/
def cmdCltu (t : TileId) (h : Hdr) (o : OpR) (other : BitVec 64) (s : State) : Host.Outcome State Fault Refusal :=
  .next (issue t (wordCltu h o) (decB other) s)

/-- CGEU (R111): sets a predicate on unsigned greater-or-equal. -/
def cmdCgeu (t : TileId) (h : Hdr) (o : OpR) (other : BitVec 64) (s : State) : Host.Outcome State Fault Refusal :=
  .next (issue t (wordCgeu h o) (decB other) s)

/-- CEQ_IMM (R111): compares g[RA] equal to a 64-bit immediate into a predicate. -/
def cmdCeqImm (t : TileId) (h : Hdr) (o : OpI) (other : BitVec 64) (s : State) : Host.Outcome State Fault Refusal :=
  .next (issue t (wordCeqImm h o) (decB other) s)

/-- CNE_IMM (R111): compares g[RA] not equal to an immediate. -/
def cmdCneImm (t : TileId) (h : Hdr) (o : OpI) (other : BitVec 64) (s : State) : Host.Outcome State Fault Refusal :=
  .next (issue t (wordCneImm h o) (decB other) s)

/-- CLT_IMM (R111): signed less-than against an immediate. -/
def cmdCltImm (t : TileId) (h : Hdr) (o : OpI) (other : BitVec 64) (s : State) : Host.Outcome State Fault Refusal :=
  .next (issue t (wordCltImm h o) (decB other) s)

/-- CGE_IMM (R111): signed greater-or-equal against an immediate. -/
def cmdCgeImm (t : TileId) (h : Hdr) (o : OpI) (other : BitVec 64) (s : State) : Host.Outcome State Fault Refusal :=
  .next (issue t (wordCgeImm h o) (decB other) s)

/-- CLTU_IMM (R111): unsigned less-than against an immediate. -/
def cmdCltuImm (t : TileId) (h : Hdr) (o : OpI) (other : BitVec 64) (s : State) : Host.Outcome State Fault Refusal :=
  .next (issue t (wordCltuImm h o) (decB other) s)

/-- CGEU_IMM (R111): unsigned greater-or-equal against an immediate. -/
def cmdCgeuImm (t : TileId) (h : Hdr) (o : OpI) (other : BitVec 64) (s : State) : Host.Outcome State Fault Refusal :=
  .next (issue t (wordCgeuImm h o) (decB other) s)

/-- PAND (R112): predicate AND. -/
def cmdPand (t : TileId) (h : Hdr) (o : OpR) (other : BitVec 64) (s : State) : Host.Outcome State Fault Refusal :=
  .next (issue t (wordPand h o) (decB other) s)

/-- POR (R112): predicate OR. -/
def cmdPor (t : TileId) (h : Hdr) (o : OpR) (other : BitVec 64) (s : State) : Host.Outcome State Fault Refusal :=
  .next (issue t (wordPor h o) (decB other) s)

/-- PXOR (R112): predicate XOR. -/
def cmdPxor (t : TileId) (h : Hdr) (o : OpR) (other : BitVec 64) (s : State) : Host.Outcome State Fault Refusal :=
  .next (issue t (wordPxor h o) (decB other) s)

/-- PANDN (R112): predicate p[RA] AND NOT p[RB]. -/
def cmdPandn (t : TileId) (h : Hdr) (o : OpR) (other : BitVec 64) (s : State) : Host.Outcome State Fault Refusal :=
  .next (issue t (wordPandn h o) (decB other) s)

/-- PMOV (R112): sets a predicate from bit 0 of a g register. -/
def cmdPmov (t : TileId) (h : Hdr) (o : OpR) (other : BitVec 64) (s : State) : Host.Outcome State Fault Refusal :=
  .next (issue t (wordPmov h o) (decB other) s)

/-- PGET (R112): writes 0 or 1 from a predicate into a g register. -/
def cmdPget (t : TileId) (h : Hdr) (o : OpR) (other : BitVec 64) (s : State) : Host.Outcome State Fault Refusal :=
  .next (issue t (wordPget h o) (decB other) s)

/-- LD (R113): loads a scalar element and sign-extends it. -/
def cmdLd (t : TileId) (h : Hdr) (o : OpM) (other : BitVec 64) (s : State) : Host.Outcome State Fault Refusal :=
  .next (issue t (wordLd h o) (decB other) s)

/-- LDU (R113): loads a scalar element and zero-extends it. -/
def cmdLdu (t : TileId) (h : Hdr) (o : OpM) (other : BitVec 64) (s : State) : Host.Outcome State Fault Refusal :=
  .next (issue t (wordLdu h o) (decB other) s)

/-- ST (R113): stores the low bits of a g register to a shelf. -/
def cmdSt (t : TileId) (h : Hdr) (o : OpM) (other : BitVec 64) (s : State) : Host.Outcome State Fault Refusal :=
  .next (issue t (wordSt h o) (decB other) s)

/-- B (R88): branches to PC plus 16 times the immediate. -/
def cmdB (t : TileId) (h : Hdr) (o : OpI) (other : BitVec 64) (s : State) : Host.Outcome State Fault Refusal :=
  .next (issue t (wordB h o) (decB other) s)

/-- BL (R88): branches and writes the return bundle address. -/
def cmdBl (t : TileId) (h : Hdr) (o : OpI) (other : BitVec 64) (s : State) : Host.Outcome State Fault Refusal :=
  .next (issue t (wordBl h o) (decB other) s)

/-- JR (R88): branches to the address in g[RA]. -/
def cmdJr (t : TileId) (h : Hdr) (o : OpI) (other : BitVec 64) (s : State) : Host.Outcome State Fault Refusal :=
  .next (issue t (wordJr h o) (decB other) s)

/-- DBNZ (R88): decrements g[RA] and branches when the result is not zero. -/
def cmdDbnz (t : TileId) (h : Hdr) (o : OpI) (other : BitVec 64) (s : State) : Host.Outcome State Fault Refusal :=
  .next (issue t (wordDbnz h o) (decB other) s)

/-- IFLUSH (R106): empties every instruction-buffer line after older shelf writes complete. -/
def cmdIflush (t : TileId) (h : Hdr) (o : OpI) (other : BitVec 64) (s : State) : Host.Outcome State Fault Refusal :=
  .next (issue t (wordIflush h o) (decB other) s)

/-- FENCE (R100): holds until older shelf writes complete and older sends have results. -/
def cmdFence (t : TileId) (h : Hdr) (o : OpI) (other : BitVec 64) (s : State) : Host.Outcome State Fault Refusal :=
  .next (issue t (wordFence h o) (decB other) s)

/-- TSTAMP (R114): reads the module nanosecond time stamp into a g register. -/
def cmdTstamp (t : TileId) (h : Hdr) (o : OpI) (other : BitVec 64) (s : State) : Host.Outcome State Fault Refusal :=
  .next (issue t (wordTstamp h o) (decB other) s)

/-- BEATS (R113): reads TILE_BEATS into a g register. -/
def cmdBeats (t : TileId) (h : Hdr) (o : OpI) (other : BitVec 64) (s : State) : Host.Outcome State Fault Refusal :=
  .next (issue t (wordBeats h o) (decB other) s)

/-- SIG (R117): adds an increment to a translated sync counter after older effects complete. -/
def cmdSig (t : TileId) (h : Hdr) (o : OpS) (other : BitVec 64) (s : State) : Host.Outcome State Fault Refusal :=
  .next (issue t (wordSig h o) (decB other) s)

/-- WAIT (R269): holds the bundle until a translated counter is at or past its target. -/
def cmdWait (t : TileId) (h : Hdr) (o : OpS) (other : BitVec 64) (s : State) : Host.Outcome State Fault Refusal :=
  .next (issue t (wordWait h o) (decB other) s)

/-- BAR (R274): arrives at a barrier object with a stated count and holds for its epoch. -/
def cmdBar (t : TileId) (h : Hdr) (o : OpS) (other : BitVec 64) (s : State) : Host.Outcome State Fault Refusal :=
  .next (issue t (wordBar h o) (decB other) s)

/-- CTRD (R273): reads a counter's VALUE from its holding node into a g register. -/
def cmdCtrd (t : TileId) (h : Hdr) (o : OpS) (other : BitVec 64) (s : State) : Host.Outcome State Fault Refusal :=
  .next (issue t (wordCtrd h o) (decB other) s)

/-- SEND (R118): sends up to four words to a ring of a footprint tile without waiting for the outcome. -/
def cmdSend (t : TileId) (h : Hdr) (o : OpR) (other : BitVec 64) (s : State) : Host.Outcome State Fault Refusal :=
  .next (issue t (wordSend h o) (decB other) s)

/-- MSTAT (R121): writes a message status or ring report selected by FN to a g register. -/
def cmdMstat (t : TileId) (h : Hdr) (o : OpR) (other : BitVec 64) (s : State) : Host.Outcome State Fault Refusal :=
  .next (issue t (wordMstat h o) (decB other) s)

/-- COPY (R123): reads a copy descriptor, checks it and places it in the copy queue. -/
def cmdCopy (t : TileId) (h : Hdr) (o : OpX) (other : BitVec 64) (s : State) : Host.Outcome State Fault Refusal :=
  .next (issue t (wordCopy h o) (decB other) s)

/-- EXCH (R101): arrives at the compute barrier and starts the tile's exchange phase. -/
def cmdExch (t : TileId) (h : Hdr) (o : OpX) (other : BitVec 64) (s : State) : Host.Outcome State Fault Refusal :=
  .next (issue t (wordExch h o) (decB other) s)

/-- EXCH_LAST (R101): starts the last exchange phase, after which no bundle of the task issues. -/
def cmdExchLast (t : TileId) (h : Hdr) (o : OpX) (other : BitVec 64) (s : State) : Host.Outcome State Fault Refusal :=
  .next (issue t (wordExchLast h o) (decB other) s)

/-- CSRR (R115): reads a CSR of the own or another footprint tile's window. -/
def cmdCsrr (t : TileId) (h : Hdr) (o : OpI) (other : BitVec 64) (s : State) : Host.Outcome State Fault Refusal :=
  .next (issue t (wordCsrr h o) (decB other) s)

/-- CSRW (R115): writes a CSR of the own or another footprint tile's window. -/
def cmdCsrw (t : TileId) (h : Hdr) (o : OpI) (other : BitVec 64) (s : State) : Host.Outcome State Fault Refusal :=
  .next (issue t (wordCsrw h o) (decB other) s)

/-- RKEY (R381): sets a tile generator's key from seed and stream, or selects Wax mode. -/
def cmdRkey (t : TileId) (h : Hdr) (o : OpR) (other : BitVec 64) (s : State) : Host.Outcome State Fault Refusal :=
  .next (issue t (wordRkey h o) (decB other) s)

/-- RCTR (R124): sets a tile generator's 128-bit counter. -/
def cmdRctr (t : TileId) (h : Hdr) (o : OpR) (other : BitVec 64) (s : State) : Host.Outcome State Fault Refusal :=
  .next (issue t (wordRctr h o) (decB other) s)

/-- RDRAW (R125): takes one 128-bit generator output into a g register pair. -/
def cmdRdraw (t : TileId) (h : Hdr) (o : OpR) (other : BitVec 64) (s : State) : Host.Outcome State Fault Refusal :=
  .next (issue t (wordRdraw h o) (decB other) s)

/-- RDRAWV (R389): takes one or eight generator outputs into a vector register. -/
def cmdRdrawv (t : TileId) (h : Hdr) (o : OpR) (other : BitVec 64) (s : State) : Host.Outcome State Fault Refusal :=
  .next (issue t (wordRdrawv h o) (decB other) s)

end Sys2Proof.Machine
end

