-- ==== Sys2Proof/Machine/SideboardCmds.lean ====
section
/-!
DEFINITION. The Sideboard, the loader, contexts and partitions.
-/
namespace Sys2Proof.Machine

/-- NBL_LOAD (R314): the loader checks, binds and prepares an NBL at graph submission. -/
def cmdNblLoad (p : BitVec 5) (slot : Nat) (file : List Byte) (addr : BitVec 64) (regions : List (BitVec 16 × BitVec 64))
    (syms : List (BitVec 12)) (s : State) : Host.Outcome State Fault Refusal :=
  .next (nblLoad p.toNat slot file addr.toNat regions syms s)

/-- SB_SUBQ_TAIL (R439): A tail write tells the Sideboard that submission entries are valid. -/
def cmdSbSubqTail (p : BitVec 5) (i : BitVec 20) (s : State) : Host.Outcome State Fault Refusal :=
  .next (s.whenUp (sbSubqTail p.toNat i))

/-- GRAPH_ADMISSION (R440): the Sideboard admits the head graph when records are free, or refuses it. -/
def cmdGraphAdmission (p : BitVec 5) (d : BitVec 512) (tasks : List (BitVec 512)) (edges : List (BitVec 16)) (unread : BitVec 2)
    (ok : Bool) (s : State) : Host.Outcome State Fault Refusal :=
  .next (graphAdmission p.toNat d tasks edges unread ok s)

/-- PLACEMENT_PASS (R444): the Sideboard tries to place ready tasks at admissible positions. -/
def cmdPlacementPass (ok : Bool) (s : State) : Host.Outcome State Fault Refusal :=
  .next (placementPass ok s)

/-- TASK_DISPATCH (R315): the loader loads a placed task's footprint and enters COMPUTE. -/
def cmdTaskDispatch (k : Nat) (s : State) : Host.Outcome State Fault Refusal :=
  .next (taskDispatch k s)

/-- CONTEXT_RESTORE (R458): A RESTORE task is checked, copied in and re-relocated. -/
def cmdContextRestore (k : Nat) (ok : Bool) (s : State) : Host.Outcome State Fault Refusal :=
  .next (contextRestore k ok s)

/-- TASK_END (R24): the task checks residue, signals, records completion and releases its footprint. -/
def cmdTaskEnd (k : Nat) (ok : Bool) (s : State) : Host.Outcome State Fault Refusal :=
  .next (taskEnd k ok s)

/-- COMPLETION_RECORD_WRITE (R451): A held completion record is written when the queue has room. -/
def cmdCompletionRecordWrite (p : BitVec 5) (ok : Bool) (s : State) : Host.Outcome State Fault Refusal :=
  .next (completionRecordWrite p.toNat ok s)

/-- CONTEXT_SAVE (R453): the task's context is saved at a save point. -/
def cmdContextSave (k : Nat) (s : State) : Host.Outcome State Fault Refusal :=
  .next (contextSave k s)

/-- REBIND_HANDOVER (R435): after quiesce, resources are erased and handed to the new owner. -/
def cmdRebindHandover (kind : BitVec 2) (s : State) : Host.Outcome State Fault Refusal :=
  .next (rebindHandover kind s)

/-- REBIND_WAIT (R434): A re-bind request that waits for the old owner's work to end. -/
def cmdRebindWait (kind : BitVec 2) (dst : BitVec 6) (s : State) : Host.Outcome State Fault Refusal :=
  .next (s.whenUp (rebindWait kind dst))

/-- REBIND_PREEMPT (R434): A re-bind request that saves and requeues preemptible tasks. -/
def cmdRebindPreempt (kind : BitVec 2) (dst : BitVec 6) (s : State) : Host.Outcome State Fault Refusal :=
  .next (s.whenUp (rebindPreempt kind dst))

/-- REBIND_KILL (R434): A re-bind request that stops the old owner's work with REVOKED. -/
def cmdRebindKill (kind : BitVec 2) (dst : BitVec 6) (s : State) : Host.Outcome State Fault Refusal :=
  .next (s.whenUp (rebindKill kind dst))

/-- PART_SYNC_WRITE (R431): sets a partition's upper sync range when idle and non-overlapping. -/
def cmdPartSyncWrite (p : BitVec 5) (v : BitVec 32) (s : State) : Host.Outcome State Fault Refusal :=
  .next (s.whenUp (partSyncWrite p.toNat v))

/-- PART_RECMAX_WRITE (R440): sets the partition's task-record limit, deferring admissions if below use. -/
def cmdPartRecmaxWrite (p : BitVec 5) (v : BitVec 32) (s : State) : Host.Outcome State Fault Refusal :=
  .next (s.whenUp (partRecmaxWrite p.toNat v))

/-- SB_ENABLE (R505): setting ENABLE checks queue configuration and starts service. -/
def cmdSbEnable (p : BitVec 5) (s : State) : Host.Outcome State Fault Refusal :=
  .next (s.whenUp (sbEnable p.toNat))

/-- SB_DISABLE (R505): clearing ENABLE stops admission. -/
def cmdSbDisable (p : BitVec 5) (s : State) : Host.Outcome State Fault Refusal :=
  .next (s.whenUp (sbDisable p.toNat))

/-- SB_CPLQ_HEAD (R506): A head write returns completion-queue entries to the Sideboard. -/
def cmdSbCplqHead (p : BitVec 5) (i : BitVec 20) (s : State) : Host.Outcome State Fault Refusal :=
  .next (s.whenUp (sbCplqHead p.toNat i))

end Sys2Proof.Machine
end

