-- ==== Sys2Proof/Machine/TileEvents.lean ====
section
/-!
DEFINITION. Events inside a tile that no word issues: the fill of an instruction-buffer line, the scrubber, and the
sentinel's comparison.
-/
namespace Sys2Proof.Machine

/-- IBUF_MISS_FILL: a fetch that misses fills the whole line from Shelf N as it stands (R102, R103, R106). -/
def execIbufMissFill (tid : TileId) (s : State) : State :=
  let x := s.tile tid
  if x.canIssue && x.pc.toNat < 0x100000 then s.setTile tid (x.fill (x.pc.toNat / 256)) else s

/-- The states in which the scrubber reads one word per beat (R221). -/
def scrubIdle (st : BitVec 4) : Bool := st = 3 || st = 5 || st = 0 || st = 6 || st = 7

/-- Whether the scrubber may read now: in an idle state, or in Continuous mode in any state but PILOT, and never while the
module is in Banked or Snuffed (R221–R223). -/
def scrubRuns (tid : TileId) (x : Tile) (s : State) : Bool :=
  x.st ≠ 8 && (scrubIdle x.st || s.scrubs tid) && !s.dim.banked && !s.pins.snuffed

/-- SCRUB_READ: the scrubber reads the word at PTR, whose row is corrected and poisoned as every read does (R216, R217), reports the
newly uncorrectable words (R224) and moves on; after the last word a pass is complete. `met` is what the read of a sound word meets: 1 a correctable
error, 2 an uncorrectable one. DESIGN CHOICE, safe: assumption 29. The record names partition 0xFF where no task holds the tile,
also where a partition owns its block. DESIGN CHOICE, unsafe: assumption 63. -/
def execScrubRead (tid : TileId) (met : BitVec 2) (s : State) : State :=
  let x0 := s.tile tid
  let x := if (met = 1 || met = 2) && x0.mark x0.scrubPtr.toNat = 0 then
      { x0 with bad := sput 0 x0.scrubPtr.toNat met.toNat x0.bad } else x0
  if !scrubRuns tid x s then s
  else
    let w := x.scrubPtr.toNat
    let y := x.touch [(8 * w, 8)]
    let s1 := s.setTile tid
      { y with
        scrubPtr := x.scrubPtr + 1
        scrubPass := if w = 524287 then x.scrubPass + 1 else x.scrubPass }
    ((rowMates [w]).filter (fun v => x.mark v = 2)).foldl (fun s' v =>
      s'.report 2 1 tid.toNat (if x.assigned then (s.runOf tid).part else 0xFF) (if x.assigned then x.task else 0)
        (if x.assigned then x.sstep.toNat else 0) (8 * v) 0) s1

/-- The rows that the partner forms from a sampled item: a row item through one multiply step with the stationary operand that the
item brings or that the sentinel register holds, a word item by the word on the operands that the item brings (R513, R514). -/
def SentItem.recompute (it : SentItem) (reg : Operand) : List Row :=
  if it.isRow then [packRow 32 (productRow it.semi.toNat it.fmt.toNat it.moving it.scale.toNat (it.stat.getD reg))]
  else
    let w := decB it.word
    let x : Tile := { vs := it.vs }
    w.vd.map ((w.run 0 x (State.reset.setTile 0 x)).tile 0).v

/-- What the partner's arithmetic answers for an item: what the item asks for, with the bits of `flip` inverted; no mask is sound
arithmetic. DESIGN CHOICE, safe: assumption 56. -/
def SentItem.answer (it : SentItem) (reg : Operand) (flip : List Row) : List Row :=
  (it.recompute reg).zipIdx.map (fun c => c.1 ^^^ flip.getD c.2 0)

/-- SENTINEL_COMPARE: the partner has recomputed the oldest sampled item of tile T and compares its result with T's bit for bit
(R514). `flip` holds the bits that a defect of either tile inverts. -/
def execSentinelCompare (tid : TileId) (flip : List Row) (s : State) : State :=
  let x := s.tile tid
  match x.sent with
  | [] => s
  | it :: rest =>
    let d := (s.runOf tid).sentD
    let u := partnerOf tid x.sstep.toNat (if d = 0 then 1 else d)
    let reg := (s.tile u).sentReg
    let s0 := (s.setTile tid { x with sent := rest }).modTile u (fun y => { y with sentReg := it.stat.getD reg })
    let s1 : State := { s0 with integ := { s.integ with sentChecks := s.integ.sentChecks + 1 } }
    if it.result = it.answer reg flip then s1
    else
      ({ s1 with integ := { s1.integ with
          sentMismatch := satInc s1.integ.sentMismatch, sentLast := BitVec.ofNat 32 (2 ^ 31 + u.toNat * 2 ^ 16 + tid.toNat) } } : State).raise
        tid sentinelFAULT false it.pc.toNat u.toNat

end Sys2Proof.Machine
end

