-- ==== Sys2Proof/Machine/SyncCmds.lean ====
section
/-!
DEFINITION. Sync counters, messages and their registers.
-/
namespace Sys2Proof.Machine

/-- SYNC_INCREMENT (R268): an increment reaches a sync object at its holding node and is applied. -/
def cmdSyncIncrement (n : Nat) (s : State) : Host.Outcome State Fault Refusal :=
  .next (execSyncIncrement n s)

/-- WAIT_RELEASE (R269): A held WAIT is released when its counter reaches its target. -/
def cmdWaitRelease (t : TileId) (s : State) : Host.Outcome State Fault Refusal :=
  .next (execWaitRelease t s)

/-- WATCHDOG_EXPIRY (R280): A waiting tile's beat count reaches the limit and raises BAR_TIMEOUT or WAIT_TIMEOUT. -/
def cmdWatchdogExpiry (t : TileId) (s : State) : Host.Outcome State Fault Refusal :=
  .next (execWatchdogExpiry t s)

/-- MESSAGE_ARRIVAL (R291): A message reaching a ring is placed, wrapped with a PAD, or NAKed. -/
def cmdMessageArrival (n : Nat) (s : State) : Host.Outcome State Fault Refusal :=
  .next (execMessageArrival n s)

/-- SEND_RESULT (R120): A send's accepted or NAK result returns to the sender. -/
def cmdSendResult (t : TileId) (n : Nat) (s : State) : Host.Outcome State Fault Refusal :=
  .next (execSendResult t n s)

/-- MSG_STUCK (R296): A NAK run reaches 2^20 and raises a MSG_STUCK event. -/
def cmdMsgStuck (t : TileId) (s : State) : Host.Outcome State Fault Refusal :=
  .next (execMsgStuck t s)

/-- SYNC_SIG_WRITE (R268): A host write adds INC to the selected counter. -/
def cmdSyncSigWrite (who : Who) (v : BitVec 16) (s : State) : Host.Outcome State Fault Refusal :=
  .next (syncSigWrite who v s)

/-- SYNC_VALUE_READ (R273): A host read of a selected counter, counting SYNC_ERR when unmapped. -/
def cmdSyncValueRead (who : Who) (bar : Bool) (s : State) : Host.Outcome State Fault Refusal :=
  .next (syncValueRead who bar s)

/-- SYNC_XLATE_WRITE (R286): writes a translation entry, ignored and counted if outside the share. -/
def cmdSyncXlateWrite (who : Who) (n : BitVec 12) (v : BitVec 32) (s : State) : Host.Outcome State Fault Refusal :=
  .next (syncXlateWrite who n.toNat v s)

/-- RING_OPEN (R68): setting OPEN checks and opens a message ring. -/
def cmdRingOpen (who : Who) (t : TileId) (n : BitVec 3) (size : BitVec 11) (base : BitVec 14) (s : State) : Host.Outcome State Fault Refusal :=
  .next (ringOpen who t n size base s)

/-- RING_CLOSE (R69): clearing OPEN closes a message ring. -/
def cmdRingClose (who : Who) (t : TileId) (n : BitVec 3) (s : State) : Host.Outcome State Fault Refusal :=
  .next (ringClose who t n s)

/-- HEAD_WRITE (R293): A write of HEAD returns ring space between decisions. -/
def cmdHeadWrite (who : Who) (t : TileId) (n : BitVec 3) (h : BitVec 13) (s : State) : Host.Outcome State Fault Refusal :=
  .next (headWrite who t n h s)

/-- BREAK_HOLD (R65): TILE_CTL.BREAK = 1 holds the tile at its next compute barrier. -/
def cmdBreakHold (t : TileId) (s : State) : Host.Outcome State Fault Refusal :=
  .next (tileCtlWrite t 1 s)

/-- BREAK_RELEASE (R65): TILE_CTL.BREAK = 0 releases a HELD tile. -/
def cmdBreakRelease (t : TileId) (s : State) : Host.Outcome State Fault Refusal :=
  .next (tileCtlWrite t 0 s)

end Sys2Proof.Machine
end

