-- ==== Sys2Proof/Machine/TileCmds.lean ====
section
/-!
DEFINITION. The events inside a tile, its router and the barriers of a superstep.
-/
namespace Sys2Proof.Machine

/-- MXA_QUEUE_START (R185): an MXA or accumulator word starts in the command queue and has its tag checked. -/
def cmdMxaQueueStart (t : TileId) (s : State) : Host.Outcome State Fault Refusal :=
  .next (execMxaQueueStart t s)

/-- SSWAP_TAKE_EFFECT (R168): the shadow becomes stationary once older SLOADs complete and older rows have begun. -/
def cmdSswapTakeEffect (t : TileId) (s : State) : Host.Outcome State Fault Refusal :=
  .next (execSswapTakeEffect t s)

/-- FEEDER_REFILL (R170): A refill read lands a moving row in the feeders. -/
def cmdFeederRefill (t : TileId) (s : State) : Host.Outcome State Fault Refusal :=
  .next (execFeederRefill t s)

/-- MULTIPLY_STEP (R151): A moving row begins its multiply step when its feeder data is present. -/
def cmdMultiplyStep (t : TileId) (s : State) : Host.Outcome State Fault Refusal :=
  .next (execMultiplyStep t s)

/-- DRAIN_ADD (R173): the add stage combines a result row from the drain FIFO into its accumulator row. -/
def cmdDrainAdd (t : TileId) (s : State) : Host.Outcome State Fault Refusal :=
  .next (execDrainAdd t s)

/-- IBUF_MISS_FILL (R103): A fetch miss fills a 256-byte instruction-buffer line. -/
def cmdIbufMissFill (t : TileId) (s : State) : Host.Outcome State Fault Refusal :=
  .next (execIbufMissFill t s)

/-- SCRUB_READ (R221): the scrubber reads the next word in an idle beat or after 64 beats. -/
def cmdScrubRead (t : TileId) (met : BitVec 2) (s : State) : Host.Outcome State Fault Refusal :=
  .next (execScrubRead t met s)

/-- RUN_RECORD_FETCH (R573): A router fetches and checks a run record before its flits move. -/
def cmdRunRecordFetch (t : TileId) (q : Fin 11) (s : State) : Host.Outcome State Fault Refusal :=
  .next (execRunRecordFetch t q.val s)

/-- FLIT_ARRIVAL (R245): A flit arriving at a router input is ordinal-checked and routed. -/
def cmdFlitArrival (t : TileId) (q : Fin 5) (s : State) : Host.Outcome State Fault Refusal :=
  .next (execFlitArrival t q.val s)

/-- SLOT_SEND (R243): an output table supplies its next slot as a move once its source flit is ready. -/
def cmdSlotSend (t : TileId) (o : Fin 6) (s : State) : Host.Outcome State Fault Refusal :=
  .next (execSlotSend t o.val s)

/-- IN_NETWORK_ADD (R251): an add slot combines a travelling partial with a joining contribution. -/
def cmdInNetworkAdd (t : TileId) (o : Fin 6) (s : State) : Host.Outcome State Fault Refusal :=
  .next (execInNetworkAdd t o.val s)

/-- FLIT_LANDING (R249): A TILE output checks a flit against the landing zones and writes it. -/
def cmdFlitLanding (t : TileId) (s : State) : Host.Outcome State Fault Refusal :=
  .next (execFlitLanding t s)

/-- EXCHANGE_PHASE_END (R247): A tile's router completes every record and landing and the tile arrives at the exchange barrier. -/
def cmdExchangePhaseEnd (t : TileId) (s : State) : Host.Outcome State Fault Refusal :=
  .next (execExchangePhaseEnd t s)

/-- COMPUTE_BARRIER_RELEASE (R279): the footprint's compute barrier releases once every tile has arrived. -/
def cmdComputeBarrierRelease (k : Nat) (s : State) : Host.Outcome State Fault Refusal :=
  .next (execComputeBarrierRelease k s)

/-- EXCHANGE_BARRIER_RELEASE (R279): the footprint's exchange barrier releases and the next compute phase starts. -/
def cmdExchangeBarrierRelease (k : Nat) (s : State) : Host.Outcome State Fault Refusal :=
  .next (execExchangeBarrierRelease k s)

/-- SENTINEL_COMPARE (R514): the partner recomputes a sampled item and compares it bit for bit. -/
def cmdSentinelCompare (t : TileId) (rows : List Row) (s : State) : Host.Outcome State Fault Refusal :=
  .next (execSentinelCompare t rows s)

end Sys2Proof.Machine
end

