-- ==== Sys2Proof/Machine/VectorCmds.lean ====
section
/-!
DEFINITION. The words of slot B.
-/
namespace Sys2Proof.Machine

/-- VADD (R575): element-wise vector add. -/
def cmdVadd (t : TileId) (h : Hdr) (o : OpR) (other : BitVec 64) (s : State) : Host.Outcome State Fault Refusal :=
  .next (issue t (decA other) (wordVadd h o) s)

/-- VSUB (R575): element-wise vector subtract. -/
def cmdVsub (t : TileId) (h : Hdr) (o : OpR) (other : BitVec 64) (s : State) : Host.Outcome State Fault Refusal :=
  .next (issue t (decA other) (wordVsub h o) s)

/-- VMUL (R575): element-wise vector multiply. -/
def cmdVmul (t : TileId) (h : Hdr) (o : OpR) (other : BitVec 64) (s : State) : Host.Outcome State Fault Refusal :=
  .next (issue t (decA other) (wordVmul h o) s)

/-- VFMA (R575): element-wise fused multiply-add rounded once. -/
def cmdVfma (t : TileId) (h : Hdr) (o : OpR) (other : BitVec 64) (s : State) : Host.Outcome State Fault Refusal :=
  .next (issue t (decA other) (wordVfma h o) s)

/-- VMIN (R575): element-wise minimumNumber. -/
def cmdVmin (t : TileId) (h : Hdr) (o : OpR) (other : BitVec 64) (s : State) : Host.Outcome State Fault Refusal :=
  .next (issue t (decA other) (wordVmin h o) s)

/-- VMAX (R575): element-wise maximumNumber. -/
def cmdVmax (t : TileId) (h : Hdr) (o : OpR) (other : BitVec 64) (s : State) : Host.Outcome State Fault Refusal :=
  .next (issue t (decA other) (wordVmax h o) s)

/-- VABS (R575): element-wise absolute value. -/
def cmdVabs (t : TileId) (h : Hdr) (o : OpR) (other : BitVec 64) (s : State) : Host.Outcome State Fault Refusal :=
  .next (issue t (decA other) (wordVabs h o) s)

/-- VNEG (R575): element-wise negation. -/
def cmdVneg (t : TileId) (h : Hdr) (o : OpR) (other : BitVec 64) (s : State) : Host.Outcome State Fault Refusal :=
  .next (issue t (decA other) (wordVneg h o) s)

/-- VAND (R575): element-wise bitwise AND. -/
def cmdVand (t : TileId) (h : Hdr) (o : OpR) (other : BitVec 64) (s : State) : Host.Outcome State Fault Refusal :=
  .next (issue t (decA other) (wordVand h o) s)

/-- VOR (R575): element-wise bitwise OR. -/
def cmdVor (t : TileId) (h : Hdr) (o : OpR) (other : BitVec 64) (s : State) : Host.Outcome State Fault Refusal :=
  .next (issue t (decA other) (wordVor h o) s)

/-- VXOR (R575): element-wise bitwise XOR. -/
def cmdVxor (t : TileId) (h : Hdr) (o : OpR) (other : BitVec 64) (s : State) : Host.Outcome State Fault Refusal :=
  .next (issue t (decA other) (wordVxor h o) s)

/-- VSHL (R575): element-wise shift left. -/
def cmdVshl (t : TileId) (h : Hdr) (o : OpR) (other : BitVec 64) (s : State) : Host.Outcome State Fault Refusal :=
  .next (issue t (decA other) (wordVshl h o) s)

/-- VSHR (R575): element-wise logical shift right. -/
def cmdVshr (t : TileId) (h : Hdr) (o : OpR) (other : BitVec 64) (s : State) : Host.Outcome State Fault Refusal :=
  .next (issue t (decA other) (wordVshr h o) s)

/-- VSAR (R575): element-wise arithmetic shift right. -/
def cmdVsar (t : TileId) (h : Hdr) (o : OpR) (other : BitVec 64) (s : State) : Host.Outcome State Fault Refusal :=
  .next (issue t (decA other) (wordVsar h o) s)

/-- VCEQ (R575): element-wise equality compare to all ones or zero. -/
def cmdVceq (t : TileId) (h : Hdr) (o : OpR) (other : BitVec 64) (s : State) : Host.Outcome State Fault Refusal :=
  .next (issue t (decA other) (wordVceq h o) s)

/-- VCLT (R575): element-wise less-than compare. -/
def cmdVclt (t : TileId) (h : Hdr) (o : OpR) (other : BitVec 64) (s : State) : Host.Outcome State Fault Refusal :=
  .next (issue t (decA other) (wordVclt h o) s)

/-- VCLE (R575): element-wise less-or-equal compare. -/
def cmdVcle (t : TileId) (h : Hdr) (o : OpR) (other : BitVec 64) (s : State) : Host.Outcome State Fault Refusal :=
  .next (issue t (decA other) (wordVcle h o) s)

/-- VSEL (R575): element-wise select by bit 0 of a third register. -/
def cmdVsel (t : TileId) (h : Hdr) (o : OpR) (other : BitVec 64) (s : State) : Host.Outcome State Fault Refusal :=
  .next (issue t (decA other) (wordVsel h o) s)

/-- VEXP (R127): correctly rounded e to the element. -/
def cmdVexp (t : TileId) (h : Hdr) (o : OpR) (other : BitVec 64) (s : State) : Host.Outcome State Fault Refusal :=
  .next (issue t (decA other) (wordVexp h o) s)

/-- VRCP (R127): correctly rounded reciprocal. -/
def cmdVrcp (t : TileId) (h : Hdr) (o : OpR) (other : BitVec 64) (s : State) : Host.Outcome State Fault Refusal :=
  .next (issue t (decA other) (wordVrcp h o) s)

/-- VRSQ (R127): correctly rounded reciprocal square root. -/
def cmdVrsq (t : TileId) (h : Hdr) (o : OpR) (other : BitVec 64) (s : State) : Host.Outcome State Fault Refusal :=
  .next (issue t (decA other) (wordVrsq h o) s)

/-- VMOV (R575): element-wise vector move. -/
def cmdVmov (t : TileId) (h : Hdr) (o : OpR) (other : BitVec 64) (s : State) : Host.Outcome State Fault Refusal :=
  .next (issue t (decA other) (wordVmov h o) s)

/-- VBCG (R575): broadcasts a g register to every lane. -/
def cmdVbcg (t : TileId) (h : Hdr) (o : OpR) (other : BitVec 64) (s : State) : Host.Outcome State Fault Refusal :=
  .next (issue t (decA other) (wordVbcg h o) s)

/-- VEXTG (R575): extracts one 32-bit lane to a g register. -/
def cmdVextg (t : TileId) (h : Hdr) (o : OpR) (other : BitVec 64) (s : State) : Host.Outcome State Fault Refusal :=
  .next (issue t (decA other) (wordVextg h o) s)

/-- VPERM (R575): permutes elements by an index vector. -/
def cmdVperm (t : TileId) (h : Hdr) (o : OpR) (other : BitVec 64) (s : State) : Host.Outcome State Fault Refusal :=
  .next (issue t (decA other) (wordVperm h o) s)

/-- VRSUM (R129): sums all elements in a fixed pairwise tree. -/
def cmdVrsum (t : TileId) (h : Hdr) (o : OpR) (other : BitVec 64) (s : State) : Host.Outcome State Fault Refusal :=
  .next (issue t (decA other) (wordVrsum h o) s)

/-- VRMAX (R130): writes the largest element to element 0. -/
def cmdVrmax (t : TileId) (h : Hdr) (o : OpR) (other : BitVec 64) (s : State) : Host.Outcome State Fault Refusal :=
  .next (issue t (decA other) (wordVrmax h o) s)

/-- VRMIN (R130): writes the smallest element to element 0. -/
def cmdVrmin (t : TileId) (h : Hdr) (o : OpR) (other : BitVec 64) (s : State) : Host.Outcome State Fault Refusal :=
  .next (issue t (decA other) (wordVrmin h o) s)

/-- VSCAN (R131): segmented inclusive prefix sum in ascending order. -/
def cmdVscan (t : TileId) (h : Hdr) (o : OpR) (other : BitVec 64) (s : State) : Host.Outcome State Fault Refusal :=
  .next (issue t (decA other) (wordVscan h o) s)

/-- VSCANMAX (R131): segmented running maximum. -/
def cmdVscanmax (t : TileId) (h : Hdr) (o : OpR) (other : BitVec 64) (s : State) : Host.Outcome State Fault Refusal :=
  .next (issue t (decA other) (wordVscanmax h o) s)

/-- VLD (R135): loads active elements by unit, constant, indexed or broadcast addressing. -/
def cmdVld (t : TileId) (h : Hdr) (o : OpM) (other : BitVec 64) (s : State) : Host.Outcome State Fault Refusal :=
  .next (issue t (decA other) (wordVld h o) s)

/-- VST (R136): stores active elements after checking every address. -/
def cmdVst (t : TileId) (h : Hdr) (o : OpM) (other : BitVec 64) (s : State) : Host.Outcome State Fault Refusal :=
  .next (issue t (decA other) (wordVst h o) s)

/-- VSTC (R138): stores active elements contiguously. -/
def cmdVstc (t : TileId) (h : Hdr) (o : OpM) (other : BitVec 64) (s : State) : Host.Outcome State Fault Refusal :=
  .next (issue t (decA other) (wordVstc h o) s)

/-- VMERGE (R132): merges two sorted key lists into a register pair. -/
def cmdVmerge (t : TileId) (h : Hdr) (o : OpR) (other : BitVec 64) (s : State) : Host.Outcome State Fault Refusal :=
  .next (issue t (decA other) (wordVmerge h o) s)

/-- VISECT (R132): keeps keys of the first list present in the second. -/
def cmdVisect (t : TileId) (h : Hdr) (o : OpR) (other : BitVec 64) (s : State) : Host.Outcome State Fault Refusal :=
  .next (issue t (decA other) (wordVisect h o) s)

/-- VDIFF (R132): keeps keys of the first list absent from the second. -/
def cmdVdiff (t : TileId) (h : Hdr) (o : OpR) (other : BitVec 64) (s : State) : Host.Outcome State Fault Refusal :=
  .next (issue t (decA other) (wordVdiff h o) s)

/-- VDEDUP (R132): reduces runs of equal keys to one. -/
def cmdVdedup (t : TileId) (h : Hdr) (o : OpR) (other : BitVec 64) (s : State) : Host.Outcome State Fault Refusal :=
  .next (issue t (decA other) (wordVdedup h o) s)

/-- VSORT (R132): stable ascending sort, optionally permuting a second register. -/
def cmdVsort (t : TileId) (h : Hdr) (o : OpR) (other : BitVec 64) (s : State) : Host.Outcome State Fault Refusal :=
  .next (issue t (decA other) (wordVsort h o) s)

/-- VCVT (R139): converts elements between formats with rounding by RM. -/
def cmdVcvt (t : TileId) (h : Hdr) (o : OpR) (other : BitVec 64) (s : State) : Host.Outcome State Fault Refusal :=
  .next (issue t (decA other) (wordVcvt h o) s)

/-- VMXSC (R144): computes the E8M0 shared scale of 32 FP32 elements. -/
def cmdVmxsc (t : TileId) (h : Hdr) (o : OpR) (other : BitVec 64) (s : State) : Host.Outcome State Fault Refusal :=
  .next (issue t (decA other) (wordVmxsc h o) s)

/-- WELF (R145): one Welford update step per active lane. -/
def cmdWelf (t : TileId) (h : Hdr) (o : OpR) (other : BitVec 64) (s : State) : Host.Outcome State Fault Refusal :=
  .next (issue t (decA other) (wordWelf h o) s)

/-- WELFM (R146): merges Welford states lane by lane or across lanes. -/
def cmdWelfm (t : TileId) (h : Hdr) (o : OpR) (other : BitVec 64) (s : State) : Host.Outcome State Fault Refusal :=
  .next (issue t (decA other) (wordWelfm h o) s)

/-- SLOAD (R166): loads 32 stationary rows, and MX scales, into the shadow register. -/
def cmdSload (t : TileId) (h : Hdr) (o : OpT) (other : BitVec 64) (s : State) : Host.Outcome State Fault Refusal :=
  .next (issue t (decA other) (wordSload h o) s)

/-- SSWAP (R168): requests that the shadow register become the stationary operand. -/
def cmdSswap (t : TileId) (h : Hdr) (o : OpT) (other : BitVec 64) (s : State) : Host.Outcome State Fault Refusal :=
  .next (issue t (decA other) (wordSswap h o) s)

/-- MMUL (R150): streams moving rows through the array into an accumulator under a semiring. -/
def cmdMmul (t : TileId) (h : Hdr) (o : OpT) (other : BitVec 64) (s : State) : Host.Outcome State Fault Refusal :=
  .next (issue t (decA other) (wordMmul h o) s)

/-- AMOV (R190): moves one accumulator row half to a vector register. -/
def cmdAmov (t : TileId) (h : Hdr) (o : OpT) (other : BitVec 64) (s : State) : Host.Outcome State Fault Refusal :=
  .next (issue t (decA other) (wordAmov h o) s)

/-- AMOVI (R190): moves a vector register into one accumulator row half, setting a clear tag. -/
def cmdAmovi (t : TileId) (h : Hdr) (o : OpT) (other : BitVec 64) (s : State) : Host.Outcome State Fault Refusal :=
  .next (issue t (decA other) (wordAmovi h o) s)

/-- ACLR (R175): zeroes an accumulator and clears its tag. -/
def cmdAclr (t : TileId) (h : Hdr) (o : OpT) (other : BitVec 64) (s : State) : Host.Outcome State Fault Refusal :=
  .next (issue t (decA other) (wordAclr h o) s)

/-- ADRAIN (R194): converts accumulator rows to a format, applies a fused operation and writes them to the shelves. -/
def cmdAdrain (t : TileId) (h : Hdr) (o : OpT) (other : BitVec 64) (s : State) : Host.Outcome State Fault Refusal :=
  .next (issue t (decA other) (wordAdrain h o) s)

/-- AADD (R193): adds rows of a second accumulator into the first under their common tag. -/
def cmdAadd (t : TileId) (h : Hdr) (o : OpT) (other : BitVec 64) (s : State) : Host.Outcome State Fault Refusal :=
  .next (issue t (decA other) (wordAadd h o) s)

end Sys2Proof.Machine
end

