-- ==== Sys2Proof/Machine/Dispatch.lean ====
section
/-!
DEFINITION. The dispatch: one arm per command, each one direct call of its meaning.
-/
namespace Sys2Proof.Machine

def exec (i : Instr) (s : State) : Host.Outcome State Fault Refusal :=
  match i with
  | .nop t w other => Sys2Proof.Machine.cmdNop t w other s
  | .add t h o other => Sys2Proof.Machine.cmdAdd t h o other s
  | .sub t h o other => Sys2Proof.Machine.cmdSub t h o other s
  | .and t h o other => Sys2Proof.Machine.cmdAnd t h o other s
  | .or t h o other => Sys2Proof.Machine.cmdOr t h o other s
  | .xor t h o other => Sys2Proof.Machine.cmdXor t h o other s
  | .andn t h o other => Sys2Proof.Machine.cmdAndn t h o other s
  | .shl t h o other => Sys2Proof.Machine.cmdShl t h o other s
  | .shr t h o other => Sys2Proof.Machine.cmdShr t h o other s
  | .sar t h o other => Sys2Proof.Machine.cmdSar t h o other s
  | .rol t h o other => Sys2Proof.Machine.cmdRol t h o other s
  | .mul t h o other => Sys2Proof.Machine.cmdMul t h o other s
  | .mulhu t h o other => Sys2Proof.Machine.cmdMulhu t h o other s
  | .mulhs t h o other => Sys2Proof.Machine.cmdMulhs t h o other s
  | .min t h o other => Sys2Proof.Machine.cmdMin t h o other s
  | .max t h o other => Sys2Proof.Machine.cmdMax t h o other s
  | .minu t h o other => Sys2Proof.Machine.cmdMinu t h o other s
  | .maxu t h o other => Sys2Proof.Machine.cmdMaxu t h o other s
  | .clz t h o other => Sys2Proof.Machine.cmdClz t h o other s
  | .ctz t h o other => Sys2Proof.Machine.cmdCtz t h o other s
  | .popc t h o other => Sys2Proof.Machine.cmdPopc t h o other s
  | .sel t h o other => Sys2Proof.Machine.cmdSel t h o other s
  | .addi t h o other => Sys2Proof.Machine.cmdAddi t h o other s
  | .andi t h o other => Sys2Proof.Machine.cmdAndi t h o other s
  | .ori t h o other => Sys2Proof.Machine.cmdOri t h o other s
  | .xori t h o other => Sys2Proof.Machine.cmdXori t h o other s
  | .shli t h o other => Sys2Proof.Machine.cmdShli t h o other s
  | .shri t h o other => Sys2Proof.Machine.cmdShri t h o other s
  | .sari t h o other => Sys2Proof.Machine.cmdSari t h o other s
  | .muli t h o other => Sys2Proof.Machine.cmdMuli t h o other s
  | .ceq t h o other => Sys2Proof.Machine.cmdCeq t h o other s
  | .cne t h o other => Sys2Proof.Machine.cmdCne t h o other s
  | .clt t h o other => Sys2Proof.Machine.cmdClt t h o other s
  | .cge t h o other => Sys2Proof.Machine.cmdCge t h o other s
  | .cltu t h o other => Sys2Proof.Machine.cmdCltu t h o other s
  | .cgeu t h o other => Sys2Proof.Machine.cmdCgeu t h o other s
  | .ceqImm t h o other => Sys2Proof.Machine.cmdCeqImm t h o other s
  | .cneImm t h o other => Sys2Proof.Machine.cmdCneImm t h o other s
  | .cltImm t h o other => Sys2Proof.Machine.cmdCltImm t h o other s
  | .cgeImm t h o other => Sys2Proof.Machine.cmdCgeImm t h o other s
  | .cltuImm t h o other => Sys2Proof.Machine.cmdCltuImm t h o other s
  | .cgeuImm t h o other => Sys2Proof.Machine.cmdCgeuImm t h o other s
  | .pand t h o other => Sys2Proof.Machine.cmdPand t h o other s
  | .por t h o other => Sys2Proof.Machine.cmdPor t h o other s
  | .pxor t h o other => Sys2Proof.Machine.cmdPxor t h o other s
  | .pandn t h o other => Sys2Proof.Machine.cmdPandn t h o other s
  | .pmov t h o other => Sys2Proof.Machine.cmdPmov t h o other s
  | .pget t h o other => Sys2Proof.Machine.cmdPget t h o other s
  | .ld t h o other => Sys2Proof.Machine.cmdLd t h o other s
  | .ldu t h o other => Sys2Proof.Machine.cmdLdu t h o other s
  | .st t h o other => Sys2Proof.Machine.cmdSt t h o other s
  | .b t h o other => Sys2Proof.Machine.cmdB t h o other s
  | .bl t h o other => Sys2Proof.Machine.cmdBl t h o other s
  | .jr t h o other => Sys2Proof.Machine.cmdJr t h o other s
  | .dbnz t h o other => Sys2Proof.Machine.cmdDbnz t h o other s
  | .iflush t h o other => Sys2Proof.Machine.cmdIflush t h o other s
  | .fence t h o other => Sys2Proof.Machine.cmdFence t h o other s
  | .tstamp t h o other => Sys2Proof.Machine.cmdTstamp t h o other s
  | .beats t h o other => Sys2Proof.Machine.cmdBeats t h o other s
  | .sig t h o other => Sys2Proof.Machine.cmdSig t h o other s
  | .wait t h o other => Sys2Proof.Machine.cmdWait t h o other s
  | .bar t h o other => Sys2Proof.Machine.cmdBar t h o other s
  | .ctrd t h o other => Sys2Proof.Machine.cmdCtrd t h o other s
  | .send t h o other => Sys2Proof.Machine.cmdSend t h o other s
  | .mstat t h o other => Sys2Proof.Machine.cmdMstat t h o other s
  | .copy t h o other => Sys2Proof.Machine.cmdCopy t h o other s
  | .exch t h o other => Sys2Proof.Machine.cmdExch t h o other s
  | .exchLast t h o other => Sys2Proof.Machine.cmdExchLast t h o other s
  | .csrr t h o other => Sys2Proof.Machine.cmdCsrr t h o other s
  | .csrw t h o other => Sys2Proof.Machine.cmdCsrw t h o other s
  | .rkey t h o other => Sys2Proof.Machine.cmdRkey t h o other s
  | .rctr t h o other => Sys2Proof.Machine.cmdRctr t h o other s
  | .rdraw t h o other => Sys2Proof.Machine.cmdRdraw t h o other s
  | .rdrawv t h o other => Sys2Proof.Machine.cmdRdrawv t h o other s
  | .vadd t h o other => Sys2Proof.Machine.cmdVadd t h o other s
  | .vsub t h o other => Sys2Proof.Machine.cmdVsub t h o other s
  | .vmul t h o other => Sys2Proof.Machine.cmdVmul t h o other s
  | .vfma t h o other => Sys2Proof.Machine.cmdVfma t h o other s
  | .vmin t h o other => Sys2Proof.Machine.cmdVmin t h o other s
  | .vmax t h o other => Sys2Proof.Machine.cmdVmax t h o other s
  | .vabs t h o other => Sys2Proof.Machine.cmdVabs t h o other s
  | .vneg t h o other => Sys2Proof.Machine.cmdVneg t h o other s
  | .vand t h o other => Sys2Proof.Machine.cmdVand t h o other s
  | .vor t h o other => Sys2Proof.Machine.cmdVor t h o other s
  | .vxor t h o other => Sys2Proof.Machine.cmdVxor t h o other s
  | .vshl t h o other => Sys2Proof.Machine.cmdVshl t h o other s
  | .vshr t h o other => Sys2Proof.Machine.cmdVshr t h o other s
  | .vsar t h o other => Sys2Proof.Machine.cmdVsar t h o other s
  | .vceq t h o other => Sys2Proof.Machine.cmdVceq t h o other s
  | .vclt t h o other => Sys2Proof.Machine.cmdVclt t h o other s
  | .vcle t h o other => Sys2Proof.Machine.cmdVcle t h o other s
  | .vsel t h o other => Sys2Proof.Machine.cmdVsel t h o other s
  | .vexp t h o other => Sys2Proof.Machine.cmdVexp t h o other s
  | .vrcp t h o other => Sys2Proof.Machine.cmdVrcp t h o other s
  | .vrsq t h o other => Sys2Proof.Machine.cmdVrsq t h o other s
  | .vmov t h o other => Sys2Proof.Machine.cmdVmov t h o other s
  | .vbcg t h o other => Sys2Proof.Machine.cmdVbcg t h o other s
  | .vextg t h o other => Sys2Proof.Machine.cmdVextg t h o other s
  | .vperm t h o other => Sys2Proof.Machine.cmdVperm t h o other s
  | .vrsum t h o other => Sys2Proof.Machine.cmdVrsum t h o other s
  | .vrmax t h o other => Sys2Proof.Machine.cmdVrmax t h o other s
  | .vrmin t h o other => Sys2Proof.Machine.cmdVrmin t h o other s
  | .vscan t h o other => Sys2Proof.Machine.cmdVscan t h o other s
  | .vscanmax t h o other => Sys2Proof.Machine.cmdVscanmax t h o other s
  | .vld t h o other => Sys2Proof.Machine.cmdVld t h o other s
  | .vst t h o other => Sys2Proof.Machine.cmdVst t h o other s
  | .vstc t h o other => Sys2Proof.Machine.cmdVstc t h o other s
  | .vmerge t h o other => Sys2Proof.Machine.cmdVmerge t h o other s
  | .visect t h o other => Sys2Proof.Machine.cmdVisect t h o other s
  | .vdiff t h o other => Sys2Proof.Machine.cmdVdiff t h o other s
  | .vdedup t h o other => Sys2Proof.Machine.cmdVdedup t h o other s
  | .vsort t h o other => Sys2Proof.Machine.cmdVsort t h o other s
  | .vcvt t h o other => Sys2Proof.Machine.cmdVcvt t h o other s
  | .vmxsc t h o other => Sys2Proof.Machine.cmdVmxsc t h o other s
  | .welf t h o other => Sys2Proof.Machine.cmdWelf t h o other s
  | .welfm t h o other => Sys2Proof.Machine.cmdWelfm t h o other s
  | .sload t h o other => Sys2Proof.Machine.cmdSload t h o other s
  | .sswap t h o other => Sys2Proof.Machine.cmdSswap t h o other s
  | .mmul t h o other => Sys2Proof.Machine.cmdMmul t h o other s
  | .amov t h o other => Sys2Proof.Machine.cmdAmov t h o other s
  | .amovi t h o other => Sys2Proof.Machine.cmdAmovi t h o other s
  | .aclr t h o other => Sys2Proof.Machine.cmdAclr t h o other s
  | .adrain t h o other => Sys2Proof.Machine.cmdAdrain t h o other s
  | .aadd t h o other => Sys2Proof.Machine.cmdAadd t h o other s
  | .mxaQueueStart t => Sys2Proof.Machine.cmdMxaQueueStart t s
  | .sswapTakeEffect t => Sys2Proof.Machine.cmdSswapTakeEffect t s
  | .feederRefill t => Sys2Proof.Machine.cmdFeederRefill t s
  | .multiplyStep t => Sys2Proof.Machine.cmdMultiplyStep t s
  | .drainAdd t => Sys2Proof.Machine.cmdDrainAdd t s
  | .ibufMissFill t => Sys2Proof.Machine.cmdIbufMissFill t s
  | .scrubRead t met => Sys2Proof.Machine.cmdScrubRead t met s
  | .runRecordFetch t q => Sys2Proof.Machine.cmdRunRecordFetch t q s
  | .flitArrival t q => Sys2Proof.Machine.cmdFlitArrival t q s
  | .slotSend t o => Sys2Proof.Machine.cmdSlotSend t o s
  | .inNetworkAdd t o => Sys2Proof.Machine.cmdInNetworkAdd t o s
  | .flitLanding t => Sys2Proof.Machine.cmdFlitLanding t s
  | .exchangePhaseEnd t => Sys2Proof.Machine.cmdExchangePhaseEnd t s
  | .computeBarrierRelease k => Sys2Proof.Machine.cmdComputeBarrierRelease k s
  | .exchangeBarrierRelease k => Sys2Proof.Machine.cmdExchangeBarrierRelease k s
  | .syncIncrement n => Sys2Proof.Machine.cmdSyncIncrement n s
  | .waitRelease t => Sys2Proof.Machine.cmdWaitRelease t s
  | .watchdogExpiry t => Sys2Proof.Machine.cmdWatchdogExpiry t s
  | .messageArrival n => Sys2Proof.Machine.cmdMessageArrival n s
  | .sendResult t n => Sys2Proof.Machine.cmdSendResult t n s
  | .msgStuck t => Sys2Proof.Machine.cmdMsgStuck t s
  | .copyComplete t n => Sys2Proof.Machine.cmdCopyComplete t n s
  | .armAccept t => Sys2Proof.Machine.cmdArmAccept t s
  | .armInFlit t => Sys2Proof.Machine.cmdArmInFlit t s
  | .armOutFlit t => Sys2Proof.Machine.cmdArmOutFlit t s
  | .narrowElement t n => Sys2Proof.Machine.cmdNarrowElement t n s
  | .narrowReply t n => Sys2Proof.Machine.cmdNarrowReply t n s
  | .refreshBoundary k => Sys2Proof.Machine.cmdRefreshBoundary k s
  | .refreshWindow k => Sys2Proof.Machine.cmdRefreshWindow k s
  | .rekey k => Sys2Proof.Machine.cmdRekey k s
  | .hostMemRead a cache met => Sys2Proof.Machine.cmdHostMemRead a cache met s
  | .hostMemWrite a data mask keep => Sys2Proof.Machine.cmdHostMemWrite a data mask keep s
  | .atsInvalidation fn page => Sys2Proof.Machine.cmdAtsInvalidation fn page s
  | .hostStreamFlit t out data how => Sys2Proof.Machine.cmdHostStreamFlit t out data how s
  | .ueDoorbell k => Sys2Proof.Machine.cmdUeDoorbell k s
  | .ueJobStart k => Sys2Proof.Machine.cmdUeJobStart k s
  | .ueGroup k => Sys2Proof.Machine.cmdUeGroup k s
  | .ueJobEnd k => Sys2Proof.Machine.cmdUeJobEnd k s
  | .ueNop k => Sys2Proof.Machine.cmdUeNop k s
  | .ueBody k => Sys2Proof.Machine.cmdUeBody k s
  | .ueEnd k => Sys2Proof.Machine.cmdUeEnd k s
  | .lds k => Sys2Proof.Machine.cmdLds k s
  | .sts k => Sys2Proof.Machine.cmdSts k s
  | .ueMov k => Sys2Proof.Machine.cmdUeMov k s
  | .ueAdd k => Sys2Proof.Machine.cmdUeAdd k s
  | .ueSub k => Sys2Proof.Machine.cmdUeSub k s
  | .ueMul k => Sys2Proof.Machine.cmdUeMul k s
  | .ueFma k => Sys2Proof.Machine.cmdUeFma k s
  | .ueDiv k => Sys2Proof.Machine.cmdUeDiv k s
  | .ueSqrt k => Sys2Proof.Machine.cmdUeSqrt k s
  | .ueMin k => Sys2Proof.Machine.cmdUeMin k s
  | .ueMax k => Sys2Proof.Machine.cmdUeMax k s
  | .ueAbs k => Sys2Proof.Machine.cmdUeAbs k s
  | .ueNeg k => Sys2Proof.Machine.cmdUeNeg k s
  | .ueSel k => Sys2Proof.Machine.cmdUeSel k s
  | .cmp k => Sys2Proof.Machine.cmdCmp k s
  | .accsq k => Sys2Proof.Machine.cmdAccsq k s
  | .xclr k => Sys2Proof.Machine.cmdXclr k s
  | .red k => Sys2Proof.Machine.cmdRed k s
  | .redResult k => Sys2Proof.Machine.cmdRedResult k s
  | .sop k => Sys2Proof.Machine.cmdSop k s
  | .sentinelCompare t rows => Sys2Proof.Machine.cmdSentinelCompare t rows s
  | .nblLoad p slot file addr regions syms => Sys2Proof.Machine.cmdNblLoad p slot file addr regions syms s
  | .sbSubqTail p n => Sys2Proof.Machine.cmdSbSubqTail p n s
  | .graphAdmission p d tasks edges unread ok => Sys2Proof.Machine.cmdGraphAdmission p d tasks edges unread ok s
  | .placementPass ok => Sys2Proof.Machine.cmdPlacementPass ok s
  | .taskDispatch k => Sys2Proof.Machine.cmdTaskDispatch k s
  | .contextRestore k ok => Sys2Proof.Machine.cmdContextRestore k ok s
  | .taskEnd k ok => Sys2Proof.Machine.cmdTaskEnd k ok s
  | .completionRecordWrite p ok => Sys2Proof.Machine.cmdCompletionRecordWrite p ok s
  | .contextSave k => Sys2Proof.Machine.cmdContextSave k s
  | .rebindHandover kind => Sys2Proof.Machine.cmdRebindHandover kind s
  | .rebindWait kind dst => Sys2Proof.Machine.cmdRebindWait kind dst s
  | .rebindPreempt kind dst => Sys2Proof.Machine.cmdRebindPreempt kind dst s
  | .rebindKill kind dst => Sys2Proof.Machine.cmdRebindKill kind dst s
  | .partSyncWrite p v => Sys2Proof.Machine.cmdPartSyncWrite p v s
  | .partRecmaxWrite p v => Sys2Proof.Machine.cmdPartRecmaxWrite p v s
  | .hbmImapCommit p => Sys2Proof.Machine.cmdHbmImapCommit p s
  | .hbmStgWinWrite k v => Sys2Proof.Machine.cmdHbmStgWinWrite k v s
  | .clrWsq k => Sys2Proof.Machine.cmdClrWsq k s
  | .clrX k => Sys2Proof.Machine.cmdClrX k s
  | .snap k => Sys2Proof.Machine.cmdSnap k s
  | .ueAbort k => Sys2Proof.Machine.cmdUeAbort k s
  | .ueResume k => Sys2Proof.Machine.cmdUeResume k s
  | .ueProgDataWrite k v => Sys2Proof.Machine.cmdUeProgDataWrite k v s
  | .syncSigWrite who v => Sys2Proof.Machine.cmdSyncSigWrite who v s
  | .syncValueRead who bar => Sys2Proof.Machine.cmdSyncValueRead who bar s
  | .syncXlateWrite who n v => Sys2Proof.Machine.cmdSyncXlateWrite who n v s
  | .ringOpen who t n size base => Sys2Proof.Machine.cmdRingOpen who t n size base s
  | .ringClose who t n => Sys2Proof.Machine.cmdRingClose who t n s
  | .headWrite who t n h => Sys2Proof.Machine.cmdHeadWrite who t n h s
  | .breakHold t => Sys2Proof.Machine.cmdBreakHold t s
  | .breakRelease t => Sys2Proof.Machine.cmdBreakRelease t s
  | .sbEnable p => Sys2Proof.Machine.cmdSbEnable p s
  | .sbDisable p => Sys2Proof.Machine.cmdSbDisable p s
  | .sbCplqHead p n => Sys2Proof.Machine.cmdSbCplqHead p n s
  | .elRdWrite v => Sys2Proof.Machine.cmdElRdWrite v s
  | .frPop who => Sys2Proof.Machine.cmdFrPop who s
  | .clearOnRead r => Sys2Proof.Machine.cmdClearOnRead r s
  | .pairHiWrite who off v => Sys2Proof.Machine.cmdPairHiWrite who off v s
  | .setAlias who off m => Sys2Proof.Machine.cmdSetAlias who off m s
  | .clearAlias who off m => Sys2Proof.Machine.cmdClearAlias who off m s
  | .toggleAlias who off m => Sys2Proof.Machine.cmdToggleAlias who off m s
  | .flagBitWrite who w b on => Sys2Proof.Machine.cmdFlagBitWrite who w b on s
  | .registerWrite w => Sys2Proof.Machine.cmdRegisterWrite w s
  | .warmRestartRequest => Sys2Proof.Machine.cmdWarmRestartRequest s
  | .lmcRestart => Sys2Proof.Machine.cmdLmcRestart s
  | .partitionReset p => Sys2Proof.Machine.cmdPartitionReset p s
  | .functionLevelReset p => Sys2Proof.Machine.cmdFunctionLevelReset p s
  | .tileReset t => Sys2Proof.Machine.cmdTileReset t s
  | .winOpen n => Sys2Proof.Machine.cmdWinOpen n s
  | .winClose n => Sys2Proof.Machine.cmdWinClose n s
  | .winCloseComplete n => Sys2Proof.Machine.cmdWinCloseComplete n s
  | .hostWindowWrite k o bytes => Sys2Proof.Machine.cmdHostWindowWrite k o bytes s
  | .faultRecord => Sys2Proof.Machine.cmdFaultRecord s
  | .imageChunk => Sys2Proof.Machine.cmdImageChunk s
  | .imageVerify => Sys2Proof.Machine.cmdImageVerify s
  | .imageActivate => Sys2Proof.Machine.cmdImageActivate s
  | .wakeBudgetWrite v => Sys2Proof.Machine.cmdWakeBudgetWrite v s
  | .controlPeriod o => Sys2Proof.Machine.cmdControlPeriod o s
  | .powerStateEntry u n => Sys2Proof.Machine.cmdPowerStateEntry u n s
  | .wakeEvent dies blocks => Sys2Proof.Machine.cmdWakeEvent dies blocks s
  | .snuffedEntry => Sys2Proof.Machine.cmdSnuffedEntry s
  | .seamRatioWindow hold => Sys2Proof.Machine.cmdSeamRatioWindow hold s
  | .powerGood mv => Sys2Proof.Machine.cmdPowerGood mv s
  | .coldStart o => Sys2Proof.Machine.cmdColdStart o s
  | .warmStart o => Sys2Proof.Machine.cmdWarmStart o s
  | .startTimeout => Sys2Proof.Machine.cmdStartTimeout s
  | .recovery o => Sys2Proof.Machine.cmdRecovery o s
  | .lmcWatchdog => Sys2Proof.Machine.cmdLmcWatchdog s
  | .perstAssert => Sys2Proof.Machine.cmdPerstAssert s
  | .perstDeassert => Sys2Proof.Machine.cmdPerstDeassert s
  | .pwrWarnAssert => Sys2Proof.Machine.cmdPwrWarnAssert s
  | .pwrWarnDeassert => Sys2Proof.Machine.cmdPwrWarnDeassert s
  | .vinUndervoltage mv => Sys2Proof.Machine.cmdVinUndervoltage mv s
  | .prsntBreak => Sys2Proof.Machine.cmdPrsntBreak s
  | .refclkLoss => Sys2Proof.Machine.cmdRefclkLoss s
  | .refclkResume => Sys2Proof.Machine.cmdRefclkResume s
  | .mctpControl code => Sys2Proof.Machine.cmdMctpControl code s
  | .pldmSensorRead x => Sys2Proof.Machine.cmdPldmSensorRead x s
  | .mctpWakeRequest => Sys2Proof.Machine.cmdMctpWakeRequest s
  | .smbusArp a => Sys2Proof.Machine.cmdSmbusArp a s
  | .cxlLinkTrain o => Sys2Proof.Machine.cmdCxlLinkTrain o s
  | .cxlLinkDown => Sys2Proof.Machine.cmdCxlLinkDown s
  | .ideKm cm skid n => Sys2Proof.Machine.cmdIdeKm cm skid n s
  | .ideIntegrityFailure cm n => Sys2Proof.Machine.cmdIdeIntegrityFailure cm n s
  | .doeDiscovery n => Sys2Proof.Machine.cmdDoeDiscovery n s
  | .getCertificate slot off len => Sys2Proof.Machine.cmdGetCertificate slot off len s
  | .getMeasurements n => Sys2Proof.Machine.cmdGetMeasurements n s
  | .cdatTableAccess n => Sys2Proof.Machine.cmdCdatTableAccess n s
  | .identifyMemoryDevice => Sys2Proof.Machine.cmdIdentifyMemoryDevice s
  | .getEventRecords => Sys2Proof.Machine.cmdGetEventRecords s
  | .clearEventRecords n => Sys2Proof.Machine.cmdClearEventRecords n s
  | .getEventInterruptPolicy => Sys2Proof.Machine.cmdGetEventInterruptPolicy s
  | .setEventInterruptPolicy v => Sys2Proof.Machine.cmdSetEventInterruptPolicy v s
  | .getSupportedLogs => Sys2Proof.Machine.cmdGetSupportedLogs s
  | .getLog off len => Sys2Proof.Machine.cmdGetLog off len s
  | .getPoisonList => Sys2Proof.Machine.cmdGetPoisonList s
  | .sanitize => Sys2Proof.Machine.cmdSanitize s
  | .secureErase => Sys2Proof.Machine.cmdSecureErase s
  | .getFwInfo => Sys2Proof.Machine.cmdGetFwInfo s
  | .transferFw off bytes final => Sys2Proof.Machine.cmdTransferFw off bytes final s
  | .activateFw => Sys2Proof.Machine.cmdActivateFw s
  | .unsupportedCommand op => Sys2Proof.Machine.cmdUnsupportedCommand op s
  | .frameSend p => Sys2Proof.Machine.cmdFrameSend p s
  | .idleFrame p f => Sys2Proof.Machine.cmdIdleFrame p f s
  | .dataFrame p f => Sys2Proof.Machine.cmdDataFrame p f s
  | .reduceFrame p f => Sys2Proof.Machine.cmdReduceFrame p f s
  | .syncFrame p f => Sys2Proof.Machine.cmdSyncFrame p f s
  | .markFrame p f => Sys2Proof.Machine.cmdMarkFrame p f s
  | .coastFrame p f => Sys2Proof.Machine.cmdCoastFrame p f s
  | .lossFrame p f => Sys2Proof.Machine.cmdLossFrame p f s
  | .wwriteFrame p f => Sys2Proof.Machine.cmdWwriteFrame p f s
  | .wnakFrame p f => Sys2Proof.Machine.cmdWnakFrame p f s
  | .reservedFrame p f => Sys2Proof.Machine.cmdReservedFrame p f s
  | .markerTimeout p => Sys2Proof.Machine.cmdMarkerTimeout p s
  | .collectiveStepStart p n => Sys2Proof.Machine.cmdCollectiveStepStart p n s
  | .collectiveStepDone p n => Sys2Proof.Machine.cmdCollectiveStepDone p n s
  | .lamplineAttachFlit p n out => Sys2Proof.Machine.cmdLamplineAttachFlit p n out s
  | .graceExpiry p n => Sys2Proof.Machine.cmdGraceExpiry p n s
  | .laneDegrade p ok => Sys2Proof.Machine.cmdLaneDegrade p ok s
  | .linkLossDetect p warned => Sys2Proof.Machine.cmdLinkLossDetect p warned s
  | .lpCoast who p => Sys2Proof.Machine.cmdLpCoast who p s
  | .lpResume who p => Sys2Proof.Machine.cmdLpResume who p s
  | .retrain who p => Sys2Proof.Machine.cmdRetrain who p s
  | .spliceClear p => Sys2Proof.Machine.cmdSpliceClear p s
  | .collDescriptorWrite p n j v => Sys2Proof.Machine.cmdCollDescriptorWrite p n j v s
  | .collTeardown p n => Sys2Proof.Machine.cmdCollTeardown p n s
  | .uncorrectableFrame p => Sys2Proof.Machine.cmdUncorrectableFrame p s
  | .lamplineLinkUp p ok => Sys2Proof.Machine.cmdLamplineLinkUp p ok s
  | .vinOvervoltage mv => Sys2Proof.Machine.cmdVinOvervoltage mv s
  | .hbmHot k temp => Sys2Proof.Machine.cmdHbmHot k temp s
  | .cxlDramEventRecord k => Sys2Proof.Machine.cmdCxlDramEventRecord k s

end Sys2Proof.Machine
end

