-- ==== Sys2Proof/Machine/Aes.lean ====
section
/-!
DEFINITION. The AES-256-XTS engine of a base die (Table 11-1, R349, R350): what a stack's DRAM holds under the key in force.
`Stack.cells` lists the bytes that the engine returns by decryption, so that a read needs no key.
-/
namespace Sys2Proof.Machine

/-- Multiplication by x in the field of AES. -/
def aesX (b : Byte) : Byte := (b <<< 1) ^^^ (if b.getLsbD 7 then 0x1B else 0)

/-- Multiplication in the field of AES, over the low `n` bits of `b`. -/
def aesMul (a b : Byte) : Nat → Byte
  | 0 => 0
  | n + 1 => (if b.getLsbD 0 then a else 0) ^^^ aesMul (aesX a) (b >>> 1) n

/-- `a` to the power 2 ^ n − 2, which is its inverse for n = 8 (0 for 0). -/
def aesInv (a : Byte) : Nat → Byte
  | 0 => 1
  | 1 => 1
  | n + 1 => let r := aesMul a (aesInv a n) 8; aesMul r r 8

/-- The S-box. -/
def aesSbox (a : Byte) : Byte :=
  let i := aesInv a 8
  i ^^^ i.rotateLeft 1 ^^^ i.rotateLeft 2 ^^^ i.rotateLeft 3 ^^^ i.rotateLeft 4 ^^^ 0x63

/-- XOR of byte strings. -/
def xorBytes (a b : List Byte) : List Byte := List.zipWith (· ^^^ ·) a b

/-- The key schedule of AES-256: `n` further 4-byte words after the `i` words of `w`, newest first. -/
def aesExpand (i : Nat) (rcon : Byte) (w : List (List Byte)) : Nat → List (List Byte)
  | 0 => w
  | n + 1 =>
    let p := w.headD []
    let t :=
      if i % 8 = 0 then xorBytes ((p.drop 1 ++ p.take 1).map aesSbox) [rcon, 0, 0, 0]
      else if i % 8 = 4 then p.map aesSbox
      else p
    aesExpand (i + 1) (if i % 8 = 0 then aesX rcon else rcon) (xorBytes ((w.drop 7).headD []) t :: w) n

/-- The 15 round keys of a 32-byte key. -/
def aesKeys (key : List Byte) : List (List Byte) :=
  let w := (aesExpand 8 1 ((List.range 8).map (fun i => (key.drop (4 * i)).take 4)).reverse 52).reverse
  (List.range 15).map (fun r => ((w.drop (4 * r)).take 4).flatten)

/-- ShiftRows on 16 bytes, column by column. -/
def aesShift (s : List Byte) : List Byte := (List.range 16).map (fun i => s.getD (i % 4 + 4 * ((i / 4 + i % 4) % 4)) 0)

/-- MixColumns. -/
def aesMix (s : List Byte) : List Byte :=
  (List.range 16).map (fun i =>
    let c (j : Nat) : Byte := s.getD (i / 4 * 4 + (i + j) % 4) 0
    aesX (c 0) ^^^ (aesX (c 1) ^^^ c 1) ^^^ c 2 ^^^ c 3)

/-- The rounds under the round keys that are left; the last round mixes no columns. -/
def aesRounds (s : List Byte) : List (List Byte) → List Byte
  | [] => s
  | [k] => xorBytes (aesShift (s.map aesSbox)) k
  | k :: r => aesRounds (xorBytes (aesMix (aesShift (s.map aesSbox))) k) r

/-- AES-256 of one 16-byte block. -/
def aes256 (key pt : List Byte) : List Byte :=
  match aesKeys key with
  | [] => pt
  | k :: r => aesRounds (xorBytes pt k) r

/-- The tweak of block `j` of a data unit: the encrypted data-unit number times α to the power `j` (IEEE 1619). -/
def xtsTweak (t : Nat) : Nat → Nat
  | 0 => t
  | j + 1 => let v := 2 * xtsTweak t j; if 2 ^ 128 ≤ v then (v % 2 ^ 128) ^^^ 0x87 else v

/-- AES-256-XTS of block `j` of a data unit under a pair of keys. -/
def xtsBlock (k1 k2 : List Byte) (unit j : Nat) (pt : List Byte) : List Byte :=
  let t := leBytes 16 (xtsTweak (leNat (aes256 k2 (leBytes 16 unit))) j)
  xorBytes (aes256 k1 (xorBytes pt t)) t

/-- The data-unit number of a stack-local address (R349). -/
def dataUnit (k a : Nat) : Nat := 2 ^ 32 * k + a / 4096

/-- The pair of keys in force in a stack's engine (R350). -/
def Stack.keys (k : Nat) (x : Stack) : List Byte × List Byte :=
  let b := leBytes 64 (Config.stackKey k x.rekeys).toNat
  (b.take 32, b.drop 32)

/-- The 16 bytes that the DRAM of a stack holds for the cipher block at local address `16 * n` (R349). -/
def Stack.cipherBlock (k : Nat) (x : Stack) (n : Nat) : List Byte :=
  xtsBlock (x.keys k).1 (x.keys k).2 (dataUnit k (16 * n)) (n % 256) (x.bytes k (16 * n) 16)

/-- The 16 bytes that the metadata columns hold for the seal entry of 4 KiB unit `u`: the CRC, SV and G, encrypted with the unit as the
block behind its 256 (R349, R509). DESIGN CHOICE, unsafe: assumption 31. -/
def Stack.cipherSeal (k : Nat) (x : Stack) (u : Nat) : List Byte :=
  let e := sget {} u x.seals
  xtsBlock (x.keys k).1 (x.keys k).2 (dataUnit k (4096 * u)) 256 (leBytes 16 (e.crc.toNat + b2n e.sv * 2 ^ 32 + b2n e.g * 2 ^ 33))

end Sys2Proof.Machine
end

