-- ==== Sys2Proof/Safety.lean ====
section
/-!
DEFINITION. The words in which claims about the block are made: a run that never stops, what one command leaves alone, when
a tile can issue a bundle, and when a word rests.
-/
namespace Sys2Proof.Safety
open Sys2Proof.Machine

/-- A run is safe when no command of it stops: every number of steps ends in a state. -/
def SafeRun (s : State) : Prop := ∀ k, ∃ n, Host.Core.run
  { State := State, Fault := Fault, Refusal := Refusal, step := step, reset := State.reset } k s = .next n

/-- `n` is `s` but for the tile `t`. -/
structure OnlyTile (t : TileId) (s n : State) : Prop where
  rest : { n with tiles := s.tiles } = s
  others : ∀ u, u ≠ t → n.tile u = s.tile u

/-- `n` is `s` but for the stack `k`. -/
structure OnlyStack (k : Nat) (s n : State) : Prop where
  rest : { n with hbm := s.hbm } = s
  others : ∀ j, j ≠ k → n.stack j = s.stack j

/-- The command changes the tile `t` to `y` and nothing else. -/
def MakesTile (i : Instr) (t : TileId) (s : State) (y : Tile) : Prop :=
  ∃ n, exec i s = .next n ∧ OnlyTile t s n ∧ n.tile t = y

/-- The command changes the tile `t` to `y`, but for the sentinel's sample of the executed word (R512, R513), and nothing
else. -/
def MakesTileB (i : Instr) (t : TileId) (s : State) (y : Tile) : Prop :=
  ∃ n, exec i s = .next n ∧ OnlyTile t s n ∧
    n.tile t = { y with wordNum := (n.tile t).wordNum, sent := (n.tile t).sent }

/-- The command changes the stack `k` to `y` and nothing else. -/
def MakesStack (i : Instr) (k : Nat) (s : State) (y : Stack) : Prop :=
  ∃ n, exec i s = .next n ∧ OnlyStack k s n ∧ n.stack k = y

/-- The tile with the line of the next bundle in its instruction buffer (R103). -/
def fetched (s : State) (t : TileId) : Tile := (s.tile t).fill ((s.tile t).pc.toNat / 256)

/-- The tile is in COMPUTE and holds in nothing, its PC lies in Shelf N, and the bundle's line brought no bad word
(R45, R73, R103). -/
abbrev CanIssue (s : State) (t : TileId) : Prop :=
  (s.tile t).canIssue = true ∧ (s.tile t).pc.toNat < 0x100000 ∧ (fetched s t).fetchBad = none

/-- The raw word `other` of slot B pairs with a word that writes the g registers `gs` and the v registers `vs` (R92), and it does
not execute: it is NOP, or its predicate is false (R76, R78). -/
abbrev RestsB (gs vs : List (BitVec 5)) (other : Word) (x : Tile) : Prop :=
  (decB other).bad = false ∧ (∀ r ∈ gs, r ≠ 0 → r ∉ (decB other).gd) ∧ (∀ r ∈ vs, r ∉ (decB other).vd) ∧
    (other = 0 ∨ hdrRuns (decB other).hdr x = false)

/-- The raw word `other` of slot A pairs with a word that writes the g registers `gs` and the v registers `vs`, and it does not
execute; EXCH and EXCH_LAST pair with NOP alone. -/
abbrev RestsA (gs vs : List (BitVec 5)) (other : Word) (x : Tile) : Prop :=
  (decA other).bad = false ∧ (decA other).exch = false ∧ (∀ r ∈ gs, r ≠ 0 → r ∉ (decA other).gd) ∧
    (∀ r ∈ vs, r ∉ (decA other).vd) ∧ (other = 0 ∨ hdrRuns (decA other).hdr x = false)

/-- The tile after a bundle that does not branch: the next bundle is the one 16 bytes on (R71). -/
def pastBundle (y : Tile) : Tile := { y with pc := y.pc + 16, hold := none }

/-- The tile after a bundle that branches. -/
def branchesTo (y : Tile) (target : Word) : Tile := { y with pc := target.truncate 32, hold := none }

/-- No AMOV in the queue still writes one of these v registers (R95). -/
abbrev VReady (x : Tile) (regs : List (BitVec 5)) : Prop := ∀ e ∈ x.queue, e.op = .amov → e.o.rb ∉ regs

/-- Element `j` of width `w` of a vector register (R44). -/
def elt (w : Nat) (r : Row) (j : Nat) : Nat := (r.toNat >>> (w * j)) % 2 ^ w

/-- The 32-bit result of a slot-A word with FMT 0x0, sign-extended (Table 3-4). -/
def sx (v : BitVec 32) : Word := v.signExtend 64

/-- The host holds no line of HBM modified, so that no access takes a write-back from it first (R475). -/
abbrev NoneModified (s : State) : Prop := ∀ k < 12, ∀ e ∈ (s.stack k).snooped, e.2 = false

/-- No narrow element waits for its unit, so that no access to a unit serves one first (R333). -/
abbrev NoneWaiting (s : State) : Prop := ∀ k < 12, (s.stack k).narrowQ = []

/-- No stack is being re-keyed, so that no access holds (R351). -/
abbrev NoRekey (s : State) : Prop := ∀ k < 12, (s.stack k).rekeying = false

/-- An access to HBM meets nothing but the bytes: no line that the host holds modified, and no element that waits for its unit. -/
abbrev Undisturbed (s : State) : Prop := NoneModified s ∧ NoneWaiting s

/-- The bytes of stack `k` from local address `l` on become `b`, and no other byte of HBM changes. -/
structure WritesBytes (s n : State) (k l : Nat) (b : List Byte) : Prop where
  written : ∀ i v, b[i]? = some v → (n.stack k).byte k (l + i) = v
  others : ∀ j a, (j ≠ k ∨ a < l ∨ l + b.length ≤ a) → (n.stack j).byte j a = (s.stack j).byte j a

/-- `n` is `s` but for the port `p`. -/
structure OnlyPort (p : Nat) (s n : State) : Prop where
  rest : { n with ports := s.ports } = s
  others : ∀ q, q ≠ p → n.port q = s.port q

/-- The link of port `p` is up and the frame is the next in order (R398). -/
abbrev Takes (s : State) (p : Nat) (f : Frame) : Prop := (s.port p).link = 2 ∧ f.seq = (s.port p).seqIn + 1

/-- The module after port `p` has taken a frame: SEQ advances, no replay is asked for, and the link fields apply (R398, R399,
R407). -/
def taken (s : State) (p : Nat) (f : Frame) : State :=
  s.setPort p ({ s.port p with seqIn := f.seq, askReplay := false }.takeLink f)

/-- What a ring side has to send next: a control frame; without HOLD a frame that a splice sends again, else a transit frame, else one
of its own; nothing else. A coasted
ring passes SYNC frames alone, and once a coast-down is asked for no collective frame of its own starts (R407, R417). -/
def Picks (x : Port) (holding : Bool) (h : Option Frame) (z : Port) : Prop :=
  let passes (f : Frame) : Prop := x.coasted = false ∨ f.type = 3
  let starts (f : Frame) : Prop := passes f ∧ (x.coastAsk = false ∨ f.type ≠ 1 ∧ f.type ≠ 2)
  (∀ g r, x.ctlQ = g :: r → h = some g ∧ z = { x with ctlQ := r }) ∧
  (x.ctlQ = [] → holding = true → h = none ∧ z = x) ∧
  (x.ctlQ = [] → holding = false →
    (∀ l g r, x.redo = l ++ g :: r → (∀ k ∈ l, ¬ passes k) → passes g → h = some g ∧ z = { x with redo := l ++ r }) ∧
    ((∀ k ∈ x.redo, ¬ passes k) →
      (∀ l g r, x.transit = l ++ g :: r → (∀ k ∈ l, ¬ passes k) → passes g → h = some g ∧ z = { x with transit := l ++ r }) ∧
      ((∀ k ∈ x.transit, ¬ passes k) →
        (∀ l g r, x.ownQ = l ++ g :: r → (∀ k ∈ l, ¬ starts k) → starts g → h = some g ∧ z = { x with ownQ := l ++ r }) ∧
        ((∀ k ∈ x.ownQ, ¬ starts k) → h = none ∧ z = x))))

/-- The state after some commands, one after another. -/
def runAll : List Instr → State → Host.Outcome State Fault Refusal
  | [], s => .next s
  | i :: r, s => match exec i s with
    | .next n => runAll r n
    | .fault f => .fault f
    | .refused f => .refused f

/-- The commands of a queue, one after another, each on the state that holds the rest of the queue. -/
def runQueued : List Instr → State → Host.Outcome State Fault Refusal
  | [], s => .next s
  | i :: r, s => match exec i { s with pending := r } with
    | .next n => runQueued r n
    | .fault f => .fault f
    | .refused f => .refused f

end Sys2Proof.Safety
end

