-- ==== Sys2Proof/Certificates/Slice0/Obligations.lean ====
section
/-!
DEFINITION. The statements about the block.
-/
open Sys2Proof Sys2Proof.Machine Sys2Proof.Safety

/-! ### Words of slot A -/

/-- g0 reads as zero and p0 as true; what is written to them is discarded (R43).

CSRR reads a CSR of the tile's own window or of another tile of its footprint, with the clear that the read makes; CSRW
writes one, and a write to a read-only CSR or to TILE_CTL changes nothing (R63, R65, R89, R115); a ring that opens against R68 raises
TILE_ADDR; HEAD moves over records that have been read, and one moved otherwise leaves the ring's contents undefined, and only those (R293;
assumption 68). A read of BANK_CONFLICT_DATA of another tile uses that tile's own selection (assumption 58, the model's choice). -/
def Obligations.HardWiredAndCsrs : Prop :=
  (∀ (x : Tile) (v : Word) (b : Bool), x.g 0 = 0 ∧ x.setG 0 v = x ∧ x.p 0 = true ∧ x.setP 0 b = x) ∧
  (∀ (t : TileId) (h : Hdr) (o : OpI) (other : Word) (s : State),
     CanIssue s t → RestsB [o.rd] [] other (fetched s t) → hdrRuns h (fetched s t) = true →
     o.sh = 0 → o.res = 0 → bits o.imm.toNat 30 6 = 0 →
     let x := fetched s t
     let s0 := s.setTile t x
     let c := o.imm.toNat % 64
     let v : BitVec 32 := (x.g o.rd).truncate 32
     (o.imm.getLsbD 31 = false → o.ra = 0 →
       MakesTile (.csrr t h o other) t s
         (pastBundle ((csrClear .tile c x).setG o.rd ((csrValue .tile t c s0).zeroExtend 64))) ∧
       ((c < 24 ∨ 40 ≤ c) → c ≠ 62 → MakesTile (.csrw t h o other) t s (pastBundle x)) ∧
       (c = 62 → MakesTile (.csrw t h o other) t s (pastBundle { x with selTile := v.truncate 6 })) ∧
       (24 ≤ c → c < 32 → ringOpenFails x (c % 8) v = false →
         MakesTile (.csrw t h o other) t s (pastBundle (ringCfgWrite x (c % 8) v))) ∧
       (32 ≤ c → c < 40 →
         let r := x.ring (c % 8)
         let hd : BitVec 13 := v.truncate 13
         (r.words ≤ hd.toNat → MakesTile (.csrw t h o other) t s (pastBundle x)) ∧
         (hd.toNat < r.words → r.passes hd.toNat = true →
           ∃ l w, MakesTile (.csrw t h o other) t s
             (pastBundle (x.setRing (c % 8) { r with head := hd, starts := l, unread := w }))) ∧
         (hd.toNat < r.words → r.passes hd.toNat = false →
           ∃ n, exec (.csrw t h o other) s = .next n ∧ OnlyTile t { s with undef := s.undef + 1 } n ∧
             n.tile t = { pastBundle (x.setRing (c % 8) { r with head := hd, starts := [], unread := [] }) with
               shelf := (n.tile t).shelf, bad := (n.tile t).bad } ∧
             ∀ b, (b < 64 * r.base64.toNat ∨ 64 * (r.base64.toNat + r.size64.toNat) ≤ b) →
               readByte (n.tile t).shelf b = readByte x.shelf b)) ∧
       (24 ≤ c → c < 32 → ringOpenFails x (c % 8) v = true →
         exec (.csrw t h o other) s = .next (s0.raiseOlder t tileADDR false x.pc.toNat (64 * (v.toNat % 2 ^ 14))))) ∧
     (∀ u, o.imm.getLsbD 31 = true → (x.g o.ra).toNat < (s.run x.task).size →
       u = (s.run x.task).tileAt (x.g o.ra).toNat → u ≠ t → (∀ m ∈ s.msgs, m.src = t → m.dst ≠ u) →
       (∀ p ∈ x.sends, (s.run x.task).tileAt p.dest.toNat ≠ u) →
       let y := s.tile u
       (∃ n, exec (.csrr t h o other) s = .next n ∧
         n.tile u = csrClear .tile c y ∧
         n.tile t = pastBundle (x.setG o.rd ((csrValue .tile u c s0).zeroExtend 64)) ∧
         { n with tiles := s.tiles } = s ∧ ∀ z, z ≠ t → z ≠ u → n.tile z = s.tile z) ∧
       ((c < 32 ∨ 40 ≤ c) → (24 ≤ c → c < 32 → ringOpenFails y (c % 8) v = false) →
         ∃ n, exec (.csrw t h o other) s = .next n ∧ n.tile t = pastBundle x ∧
           n.tile u = (if c = 62 then { y with selTile := v.truncate 6 } else if 24 ≤ c ∧ c < 32 then ringCfgWrite y (c % 8) v else y) ∧
           { n with tiles := s.tiles } = s ∧ ∀ z, z ≠ t → z ≠ u → n.tile z = s.tile z)) ∧
     (o.imm.getLsbD 31 = true → (s.run x.task).size ≤ (x.g o.ra).toNat →
       ∀ i ∈ [Instr.csrr t h o other, Instr.csrw t h o other],
         exec i s = .next (s0.raiseOlder t tileADDR false x.pc.toNat ((x.g o.ra).toNat % 2 ^ 32))))

/-- The two-source scalar words at 64 bits (Table 4-2): the destination takes the result, the PC moves on, and nothing else of
the module changes.

The same words at 32 bits (FMT 0x0): they compute on the low 32 bits and sign-extend the result. MULHU and MULHS need FMT
0xF and raise BAD_OP, once the older matrix words have completed (R94). -/
def Obligations.ScalarAlu : Prop :=
  (∀ (t : TileId) (h : Hdr) (o : OpR) (other : Word) (s : State),
     CanIssue s t → RestsB [o.rd] [] other (fetched s t) → hdrRuns h (fetched s t) = true →
     o.fmt = 0xF → o.rm = 0 → o.vm = 0 → o.rc = 0 → o.fn = 0 →
     let x := fetched s t
     let a := x.g o.ra
     let b := x.g o.rb
     let makes (i : Instr) (v : Word) : Prop := MakesTile i t s (pastBundle (x.setG o.rd v))
     makes (.add t h o other) (a + b) ∧ makes (.sub t h o other) (a - b) ∧ makes (.and t h o other) (a &&& b) ∧
     makes (.or t h o other) (a ||| b) ∧ makes (.xor t h o other) (a ^^^ b) ∧ makes (.andn t h o other) (a &&& ~~~b) ∧
     makes (.shl t h o other) (a <<< (b.toNat % 64)) ∧ makes (.shr t h o other) (a >>> (b.toNat % 64)) ∧
     makes (.sar t h o other) (a.sshiftRight (b.toNat % 64)) ∧ makes (.rol t h o other) (a.rotateLeft (b.toNat % 64)) ∧
     makes (.mul t h o other) (a * b) ∧
     makes (.mulhu t h o other) (BitVec.ofNat 64 (a.toNat * b.toNat / 2 ^ 64)) ∧
     makes (.mulhs t h o other) (BitVec.ofInt 64 (a.toInt * b.toInt / 2 ^ 64)) ∧
     makes (.min t h o other) (if a.toInt < b.toInt then a else b) ∧
     makes (.max t h o other) (if a.toInt < b.toInt then b else a) ∧
     makes (.minu t h o other) (if a.toNat < b.toNat then a else b) ∧
     makes (.maxu t h o other) (if a.toNat < b.toNat then b else a)) ∧
  (∀ (t : TileId) (h : Hdr) (o : OpR) (other : Word) (s : State),
     CanIssue s t → RestsB [o.rd] [] other (fetched s t) → hdrRuns h (fetched s t) = true →
     o.fmt = 0 → o.rm = 0 → o.vm = 0 → o.rc = 0 → o.fn = 0 →
     let x := fetched s t
     let a : BitVec 32 := (x.g o.ra).truncate 32
     let b : BitVec 32 := (x.g o.rb).truncate 32
     let makes (i : Instr) (v : BitVec 32) : Prop := MakesTile i t s (pastBundle (x.setG o.rd (sx v)))
     makes (.add t h o other) (a + b) ∧ makes (.sub t h o other) (a - b) ∧ makes (.and t h o other) (a &&& b) ∧
     makes (.or t h o other) (a ||| b) ∧ makes (.xor t h o other) (a ^^^ b) ∧ makes (.andn t h o other) (a &&& ~~~b) ∧
     makes (.shl t h o other) (a <<< (b.toNat % 32)) ∧ makes (.shr t h o other) (a >>> (b.toNat % 32)) ∧
     makes (.sar t h o other) (a.sshiftRight (b.toNat % 32)) ∧ makes (.rol t h o other) (a.rotateLeft (b.toNat % 32)) ∧
     makes (.mul t h o other) (a * b) ∧
     makes (.min t h o other) (if a.toInt < b.toInt then a else b) ∧
     makes (.max t h o other) (if a.toInt < b.toInt then b else a) ∧
     makes (.minu t h o other) (if a.toNat < b.toNat then a else b) ∧
     makes (.maxu t h o other) (if a.toNat < b.toNat then b else a) ∧
     (∀ i ∈ [Instr.mulhu t h o other, Instr.mulhs t h o other],
       exec i s = .next ((s.setTile t x).raiseOlder t badOP false x.pc.toNat 0)))

/-- CLZ, CTZ, POPC and SEL at both widths (Table 4-2): the counts are those of the value's bits, and SEL chooses by the
predicate that FN[2:0] names.

The immediate words (Table 4-2): they compute on 64-bit values with the immediate that SH forms (Table 3-5). -/
def Obligations.ScalarCountsAndImmediates : Prop :=
  (∀ (t : TileId) (h : Hdr) (o : OpR) (other : Word) (s : State) (w : Nat),
     CanIssue s t → RestsB [o.rd] [] other (fetched s t) → hdrRuns h (fetched s t) = true →
     (o.fmt = 0xF ∧ w = 64 ∨ o.fmt = 0 ∧ w = 32) → o.rm = 0 → o.vm = 0 → o.rc = 0 →
     let x := fetched s t
     let a := (x.g o.ra).toNat % 2 ^ w
     let counts (i : Instr) (p : Nat → Prop) : Prop :=
       ∃ n : Nat, p n ∧ MakesTile i t s (pastBundle (x.setG o.rd (BitVec.ofNat 64 n)))
     (o.rb = 0 → o.fn = 0 →
       counts (.clz t h o other) (fun n => if a = 0 then n = w else n < w ∧ 2 ^ (w - 1 - n) ≤ a ∧ a < 2 ^ (w - n)) ∧
       counts (.ctz t h o other) (fun n => if a = 0 then n = w else a % 2 ^ n = 0 ∧ a / 2 ^ n % 2 = 1) ∧
       counts (.popc t h o other) (fun n => n = (List.range w).countP (fun i => a.testBit i))) ∧
     (o.fn.toNat < 8 →
       MakesTile (.sel t h o other) t s (pastBundle (x.setG o.rd
         (let v := if x.p (o.fn.truncate 3) then x.g o.ra else x.g o.rb
          if w = 64 then v else sx (v.truncate 32)))))) ∧
  (∀ (t : TileId) (h : Hdr) (o : OpI) (other : Word) (s : State),
     CanIssue s t → RestsB [o.rd] [] other (fetched s t) → hdrRuns h (fetched s t) = true →
     o.sh ≠ 3 → o.res = 0 →
     let x := fetched s t
     let a := x.g o.ra
     let b : Word := if o.sh = 0 then o.imm.signExtend 64 else if o.sh = 1 then o.imm ++ 0#32 else o.imm.zeroExtend 64
     let makes (i : Instr) (v : Word) : Prop := MakesTile i t s (pastBundle (x.setG o.rd v))
     makes (.addi t h o other) (a + b) ∧ makes (.andi t h o other) (a &&& b) ∧ makes (.ori t h o other) (a ||| b) ∧
     makes (.xori t h o other) (a ^^^ b) ∧ makes (.shli t h o other) (a <<< (b.toNat % 64)) ∧
     makes (.shri t h o other) (a >>> (b.toNat % 64)) ∧ makes (.sari t h o other) (a.sshiftRight (b.toNat % 64)) ∧
     makes (.muli t h o other) (a * b))

/-- The compare words (R111): the predicate takes the relation, signed for CLT and CGE and unsigned for CLTU and CGEU, at the
width of FMT; the immediate forms always compare 64 bits.

The predicate words (R112). -/
def Obligations.Predicates : Prop :=
  ((∀ (t : TileId) (h : Hdr) (o : OpR) (other : Word) (s : State),
     CanIssue s t → RestsB [] [] other (fetched s t) → hdrRuns h (fetched s t) = true →
     (o.fmt = 0xF ∨ o.fmt = 0) → o.rm = 0 → o.vm = 0 → o.rc = 0 → o.fn = 0 → o.rd.toNat < 8 →
     let x := fetched s t
     let a : Word := if o.fmt = 0xF then x.g o.ra else sx ((x.g o.ra).truncate 32)
     let b : Word := if o.fmt = 0xF then x.g o.rb else sx ((x.g o.rb).truncate 32)
     let makes (i : Instr) (v : Prop) [Decidable v] : Prop :=
       MakesTile i t s (pastBundle (x.setP (o.rd.truncate 3) (decide v)))
     makes (.ceq t h o other) (a = b) ∧ makes (.cne t h o other) (a ≠ b) ∧
     makes (.clt t h o other) (a.toInt < b.toInt) ∧ makes (.cge t h o other) (b.toInt ≤ a.toInt) ∧
     makes (.cltu t h o other) (a.toNat < b.toNat) ∧ makes (.cgeu t h o other) (b.toNat ≤ a.toNat)) ∧
   (∀ (t : TileId) (h : Hdr) (o : OpI) (other : Word) (s : State),
     CanIssue s t → RestsB [] [] other (fetched s t) → hdrRuns h (fetched s t) = true →
     o.sh ≠ 3 → o.res = 0 → o.rd.toNat < 8 →
     let x := fetched s t
     let a := x.g o.ra
     let b := immOf o
     let makes (i : Instr) (v : Prop) [Decidable v] : Prop :=
       MakesTile i t s (pastBundle (x.setP (o.rd.truncate 3) (decide v)))
     makes (.ceqImm t h o other) (a = b) ∧ makes (.cneImm t h o other) (a ≠ b) ∧
     makes (.cltImm t h o other) (a.toInt < b.toInt) ∧ makes (.cgeImm t h o other) (b.toInt ≤ a.toInt) ∧
     makes (.cltuImm t h o other) (a.toNat < b.toNat) ∧ makes (.cgeuImm t h o other) (b.toNat ≤ a.toNat))) ∧
  (∀ (t : TileId) (h : Hdr) (o : OpR) (other : Word) (s : State),
     CanIssue s t → hdrRuns h (fetched s t) = true → o.rc = 0 → o.fmt = 0 → o.rm = 0 → o.vm = 0 → o.fn = 0 →
     let x := fetched s t
     let a := x.p (o.ra.truncate 3)
     let b := x.p (o.rb.truncate 3)
     let sets (i : Instr) (v : Bool) : Prop := MakesTile i t s (pastBundle (x.setP (o.rd.truncate 3) v))
     (RestsB [] [] other x → o.rd.toNat < 8 → o.ra.toNat < 8 → o.rb.toNat < 8 →
       sets (.pand t h o other) (a && b) ∧ sets (.por t h o other) (a || b) ∧ sets (.pxor t h o other) (a ^^ b) ∧
       sets (.pandn t h o other) (a && !b)) ∧
     (RestsB [] [] other x → o.rd.toNat < 8 → o.rb = 0 → sets (.pmov t h o other) ((x.g o.ra).getLsbD 0)) ∧
     (RestsB [o.rd] [] other x → o.ra.toNat < 8 → o.rb = 0 →
       MakesTile (.pget t h o other) t s (pastBundle (x.setG o.rd (if a then 1 else 0)))))

/-- LD, LDU and ST (R113, R84): an aligned access inside the shelves that meets no uncorrectable word and no queued matrix word
loads or stores the element, little-endian; a word of a ring that a load reads counts as read (R293). A load leaves every byte of the shelves alone; a store changes the bytes of its
element and no other, and clears the ECC marks of the words it writes and no other.

LD, LDU and ST at an address beyond the shelves or off its element's alignment raise TILE_ADDR at that address and change
no register (R84, R93), once the older matrix words have completed (R94). -/
def Obligations.ScalarMemory : Prop :=
  (∀ (t : TileId) (h : Hdr) (o : OpM) (other : Word) (s : State) (sz : Nat),
     CanIssue s t → RestsB [o.rt] [] other (fetched s t) → hdrRuns h (fetched s t) = true →
     (o.fmt = 5 ∧ sz = 1 ∨ o.fmt = 2 ∧ sz = 2 ∨ o.fmt = 0 ∧ sz = 4 ∨ o.fmt = 0xF ∧ sz = 8) →
     o.mode = 0 → o.stride = 0 → o.vm = 0 →
     let x := fetched s t
     let a := (x.g o.rb + o.off.signExtend 64).toNat
     let bytes := (List.range sz).map (a + ·)
     a < 0x400000 → a % sz = 0 →
     (queueClash x.queue [(a, sz)] [] = false → x.firstBad [(a, sz)] = none →
       MakesTile (.ld t h o other) t s
         (pastBundle (((x.touch [(a, sz)]).noteReads [(a, sz)]).setG o.rt (BitVec.ofInt 64 (toSigned (8 * sz) (readLE x.shelf a sz))))) ∧
       MakesTile (.ldu t h o other) t s
         (pastBundle (((x.touch [(a, sz)]).noteReads [(a, sz)]).setG o.rt (BitVec.ofNat 64 (readLE x.shelf a sz))))) ∧
     (queueClash x.queue [] (bytes.map (·, 1)) = false → x.badMerge bytes = none →
       (∀ w ∈ wordsOf a sz, x.inRingFree w = false) →
       ∃ m b, MakesTile (.st t h o other) t s (pastBundle { x with shelf := m, bad := b }) ∧
         readLE m a sz = (x.g o.rt).toNat % 2 ^ (8 * sz) ∧
         (∀ c, c < a ∨ a + sz ≤ c → readByte m c = readByte x.shelf c) ∧
         ∀ w, sget 0 w b = if w = a / 8 then 0 else x.mark w)) ∧
  (∀ (t : TileId) (h : Hdr) (o : OpM) (other : Word) (s : State),
     CanIssue s t → RestsB [o.rt] [] other (fetched s t) → hdrRuns h (fetched s t) = true → (o.fmt = 5 ∨ o.fmt = 2 ∨ o.fmt = 0 ∨ o.fmt = 0xF) →
     o.mode = 0 → o.stride = 0 → o.vm = 0 →
     let x := fetched s t
     let a := (x.g o.rb + o.off.signExtend 64).toNat
     (0x400000 ≤ a ∨ a % memSize o.fmt ≠ 0) →
     ∀ i ∈ [Instr.ld t h o other, Instr.ldu t h o other, Instr.st t h o other],
       exec i s = .next ((s.setTile t x).raiseOlder t tileADDR false x.pc.toNat a))

/-- The branches (R88): B, BL and DBNZ go to PC + 16 × IMM and JR to g[RA] where the target is a bundle of Shelf N; BL links the
bundle after it; DBNZ decrements and branches unless the result is zero.

NOP, IFLUSH, FENCE, TSTAMP and BEATS (R78, Table 4-3): IFLUSH and FENCE hold while a drain that writes the shelves waits in the
command queue, and FENCE while a send is pending (R100, R106).

Bundles in which both words execute (R73–R75): they issue together or not at all, so that a FENCE that waits holds the whole bundle;
both read registers and predicates as they stood before the bundle; and a load of slot B sees what the store of slot A wrote. -/
def Obligations.BranchesAndControl : Prop :=
  (∀ (t : TileId) (h : Hdr) (o : OpI) (other : Word) (s : State),
     CanIssue s t → hdrRuns h (fetched s t) = true → o.sh = 0 → o.res = 0 →
     let x := fetched s t
     let rel : Word := x.pc.zeroExtend 64 + BitVec.ofInt 64 (16 * o.imm.toInt)
     let inN (a : Word) : Prop := a.toNat < 0x100000 ∧ a.toNat % 16 = 0
     (RestsB [] [] other x → o.rd = 0 → o.ra = 0 → inN rel → MakesTile (.b t h o other) t s (branchesTo x rel)) ∧
     (RestsB [o.rd] [] other x → o.ra = 0 → inN rel →
       MakesTile (.bl t h o other) t s (branchesTo (x.setG o.rd (x.pc.zeroExtend 64 + 16)) rel)) ∧
     (RestsB [] [] other x → o.rd = 0 → o.imm = 0 → inN (x.g o.ra) →
       MakesTile (.jr t h o other) t s (branchesTo x (x.g o.ra))) ∧
     (RestsB [o.ra] [] other x → o.rd = 0 →
       let y := x.setG o.ra (x.g o.ra - 1)
       (x.g o.ra = 1 → MakesTile (.dbnz t h o other) t s (pastBundle y)) ∧
       (x.g o.ra ≠ 1 → inN rel → MakesTile (.dbnz t h o other) t s (branchesTo y rel)))) ∧
  (∀ (t : TileId) (h : Hdr) (o : OpI) (other : Word) (s : State),
     CanIssue s t →
     let x := fetched s t
     (RestsB [] [] other x → MakesTile (.nop t 0 other) t s (pastBundle x)) ∧
     (hdrRuns h x = true → o.ra = 0 → o.sh = 0 → o.res = 0 → o.imm = 0 → RestsB [o.rd] [] other x →
       (o.rd = 0 → (∀ e ∈ x.queue, e.op ≠ .adrain) →
         MakesTile (.iflush t h o other) t s (pastBundle { x with ibuf := [] }) ∧
         (x.sends = [] → MakesTile (.fence t h o other) t s (pastBundle x))) ∧
       (o.rd = 0 → (∃ e ∈ x.queue, e.op = .adrain) →
         MakesTile (.iflush t h o other) t s x ∧ MakesTile (.fence t h o other) t s x) ∧
       (o.rd = 0 → x.sends ≠ [] → MakesTile (.fence t h o other) t s x) ∧
       MakesTile (.tstamp t h o other) t s (pastBundle (x.setG o.rd s.time)) ∧
       MakesTile (.beats t h o other) t s (pastBundle (x.setG o.rd (BitVec.ofNat 64 (s.beats t)))))) ∧
  ((∀ (t : TileId) (ha hb : Hdr) (oa ob : OpR) (other : Word) (s : State),
     CanIssue s t → hdrRuns ha (fetched s t) = true → hdrRuns hb (fetched s t) = true →
     oa.rm = 0 → oa.vm = 0 → oa.rc = 0 → oa.fn = 0 →
     ob.fmt = 0 → ob.rm = 0 → ob.vm = 0 → ob.rb = 0 → ob.rc = 0 → ob.fn = 0 → VReady (fetched s t) [ob.ra, ob.rb, ob.rc, ob.vm, ob.rd] →
     let x := fetched s t
     let makes (y : Tile) : Prop := ∃ r : Row, MakesTileB (.vbcg t hb ob other) t s (pastBundle (y.setV ob.rd r)) ∧
       ∀ j < 32, elt 32 r j = (x.g ob.ra).toNat % 2 ^ 32
     (decA other = wordAdd ha oa → oa.fmt = 0xF → makes (x.setG oa.rd (x.g oa.ra + x.g oa.rb))) ∧
     (decA other = wordCeq ha oa → oa.fmt = 0xF → oa.rd.toNat < 8 →
       makes (x.setP (oa.rd.truncate 3) (decide (x.g oa.ra = x.g oa.rb))))) ∧
   (∀ (t : TileId) (ha hb : Hdr) (oa : OpI) (ob : OpR) (other : Word) (s : State),
     CanIssue s t → hdrRuns ha (fetched s t) = true → decA other = wordFence ha oa → oa.rd = 0 → oa.ra = 0 → oa.sh = 0 → oa.res = 0 →
     oa.imm = 0 → (fetched s t).sends ≠ [] →
     ob.fmt = 0 → ob.rm = 0 → ob.vm = 0 → ob.rb = 0 → ob.rc = 0 → ob.fn = 0 →
     MakesTile (.vbcg t hb ob other) t s (fetched s t)) ∧
   ∀ (t : TileId) (ha hb : Hdr) (oa ob : OpM) (other : Word) (s : State),
     CanIssue s t → hdrRuns ha (fetched s t) = true → hdrRuns hb (fetched s t) = true → decB other = wordVld hb ob →
     oa.fmt = 0xF → oa.mode = 0 → oa.stride = 0 → oa.vm = 0 → ob.fmt = 0 → ob.mode = 0 → ob.stride = 0 → ob.vm = 0 →
     let x := fetched s t
     let a := (x.g oa.rb + oa.off.signExtend 64).toNat
     x.queue = [] → x.bad = [] → x.rings = [] → a < 0x400000 → a % 8 = 0 →
     (∀ j < 32, elemAddr ob x j < 0x400000 ∧ elemAddr ob x j % 4 = 0) →
     ∃ r m, MakesTileB (.st t ha oa other) t s (pastBundle { x.setV ob.rt r with shelf := m }) ∧
       readLE m a 8 = (x.g oa.rt).toNat ∧ (∀ c, c < a ∨ a + 8 ≤ c → readByte m c = readByte x.shelf c) ∧
       ∀ j < 32, elt 32 r j = readLE m (elemAddr ob x j) 4)

/-- SIG, WAIT and CTRD on a mapped virtual ID (R117, R268–R270, R273): SIG sends its increment behind what the tile did before
it; a WAIT at or past its target passes and any other is placed with its object and holds its tile; CTRD reads VALUE; WAIT and CTRD
stay behind the tile's increments to the same node (R32).

BAR (R274–R277): its arrival sets out for the object and its tile holds, and a count of 0 faults and makes no arrival. The
node takes an arrival of the count of the epoch in progress at a barrier that no sync collective binds: the last of an epoch advances
VALUE, clears CNT and ARRIVED and releases every arrival, and any other is counted; one with another count is not counted, and its
tile raises BAR_OVER. The bundle of a tile that has been released, by a BAR or by a WAIT, completes (R269, R274).

A sync word whose virtual ID has no mapping raises SYNC_XLATE with the ID in TILE_FAULT_ADDR (R285). -/
def Obligations.SyncWords : Prop :=
  (∀ (t : TileId) (h : Hdr) (o : OpS) (other : Word) (s : State) (k : Nat),
     CanIssue s t → RestsB [o.ra] [] other (fetched s t) → hdrRuns h (fetched s t) = true →
     o.res = 0 → (s.tile t).hold = none → tileObj s (fetched s t) o.sid = some k →
     let x := fetched s t
     let v := s.obj k
     let amount : BitVec 16 := if o.reg then (x.g o.ra).truncate 16 else o.count
     let target : BitVec 32 := if o.reg then (x.g o.ra).truncate 32 else o.count.zeroExtend 32
     ((if o.reg then o.count = 0 else o.ra = 0) →
       (∃ n, exec (.sig t h o other) s = .next n ∧ n.tile t = pastBundle x ∧
         OnlyTile t { s with incs := s.incs ++ [{ obj := k, amt := amount.zeroExtend 32
                                                  src := some ⟨t, x.msgTx, x.copyNum, x.mxaNum⟩ }] } n) ∧
       (incAhead s.incs t k = true → MakesTile (.wait t h o other) t s x) ∧
       (incAhead s.incs t k = false → (v.value - target).toNat < 2 ^ 31 → MakesTile (.wait t h o other) t s (pastBundle x)) ∧
       (incAhead s.incs t k = false → 2 ^ 31 ≤ (v.value - target).toNat →
         ∃ n, exec (.wait t h o other) s = .next n ∧
           n.tile t = { x with hold := some { vid := o.sid, obj := k, isWait := true, since := s.beats t } } ∧
           n.obj k = { v with waits := v.waits.filter (fun w => w.tile ≠ t) ++ [{ tile := t, target := target }] } ∧
           OnlyTile t { s with objs := n.objs } n ∧ ∀ j, j ≠ k → n.obj j = s.obj j)) ∧
     (o.reg = false → o.count = 0 → incAhead s.incs t k = false →
       MakesTile (.ctrd t h o other) t s (pastBundle (x.setG o.ra (v.value.zeroExtend 64))))) ∧
  ((∀ (t : TileId) (h : Hdr) (o : OpS) (other : Word) (s : State) (k : Nat),
     CanIssue s t → RestsB [] [] other (fetched s t) → hdrRuns h (fetched s t) = true →
     o.res = 0 → (if o.reg then o.count = 0 else o.ra = 0) → (s.tile t).hold = none →
     tileObj s (fetched s t) o.sid = some k →
     let x := fetched s t
     let c : BitVec 16 := if o.reg then (x.g o.ra).truncate 16 else o.count
     (c = 0 → exec (.bar t h o other) s =
       .next ((s.setTile t x).raiseOlder t barZERO false x.pc.toNat o.sid.toNat)) ∧
     (c ≠ 0 →
       ∃ n, exec (.bar t h o other) s = .next n ∧
         n.tile t = { x with hold := some { vid := o.sid, obj := k, isWait := false, since := s.beats t } } ∧
         n.obj k = { s.obj k with coming := (s.obj k).coming ++ [{ tile := some t, cnt := c, vid := o.sid }] } ∧
         OnlyTile t { s with objs := n.objs } n ∧ ∀ j, j ≠ k → n.obj j = s.obj j)) ∧
   (∀ (s : State) (k : Nat) (t : TileId) (c : BitVec 16) (vid : BitVec 12), (s.obj k).bound = false →
     let v := s.obj k
     let n := takeArrival k s { tile := some t, cnt := c, vid := vid }
     let at' (y : Tile) (f : SyncHold → SyncHold) : Tile :=
       { y with hold := y.hold.map (fun h => if h.obj = k && !h.isWait then f h else h) }
     (v.arrived ≠ 0 → v.cnt ≠ c →
       OnlyTile t s n ∧ n.tile t = at' (s.tile t) (fun h => { h with otherCnt := true })) ∧
     ((v.arrived ≠ 0 → v.cnt = c) → v.arrived + 1 ≠ c →
       n.obj k = { v with cnt := c, arrived := v.arrived + 1, bars := v.bars ++ [t] } ∧
       { n with objs := s.objs } = s ∧ ∀ j, j ≠ k → n.obj j = s.obj j) ∧
     ((v.arrived ≠ 0 → v.cnt = c) → v.arrived + 1 = c →
       n.obj k = { v.setValue (v.value + 1) with cnt := 0, arrived := 0, bars := [] } ∧
       (∀ j, j ≠ k → n.obj j = s.obj j) ∧ { n with tiles := s.tiles, objs := s.objs } = s ∧
       ∀ u, n.tile u =
         if u = t ∨ u ∈ v.bars then at' (s.tile u) (fun h => { h with released := true }) else s.tile u)) ∧
   (∀ (t : TileId) (h : Hdr) (o : OpS) (other : Word) (s : State) (g : SyncHold),
     CanIssue s t → RestsB [] [] other (fetched s t) → hdrRuns h (fetched s t) = true →
     o.res = 0 → (if o.reg then o.count = 0 else o.ra = 0) → (s.tile t).hold = some g → g.released = true →
     MakesTile (.bar t h o other) t s (pastBundle (fetched s t)) ∧
     ((∀ k, tileObj s (fetched s t) o.sid = some k → incAhead s.incs t k = false) →
       MakesTile (.wait t h o other) t s (pastBundle (fetched s t)))) ∧
   ∀ (s : State) (t : TileId) (h : SyncHold), (s.tile t).hold = some h →
     raiseOver s t =
       if h.otherCnt then s.raiseOlder t barOVER false (s.tile t).pc.toNat h.vid.toNat else s) ∧
  (∀ (t : TileId) (h : Hdr) (o : OpS) (other : Word) (s : State),
     CanIssue s t → RestsB [o.ra] [] other (fetched s t) → hdrRuns h (fetched s t) = true →
     o.res = 0 → (s.tile t).hold = none → tileObj s (fetched s t) o.sid = none →
     let x := fetched s t
     let faults (i : Instr) : Prop :=
       exec i s = .next ((s.setTile t x).raiseOlder t syncXLATE false x.pc.toNat o.sid.toNat)
     ((if o.reg then o.count = 0 else o.ra = 0) → faults (.sig t h o other) ∧ faults (.wait t h o other) ∧
       (sCount o x ≠ 0 → faults (.bar t h o other))) ∧
     (o.reg = false → o.count = 0 → faults (.ctrd t h o other)))

/-- SEND and MSTAT (R90, R118, R119, R121): a send of 1 to 4 words sets out for its ring and is pending; one of another length is NAKed
with BAD_LEN at once; one beyond the footprint raises TILE_ADDR; with 32 sends pending it holds until the result of the oldest returns; MSTAT reports Table 4-5, with zero
in the upper half of FN 0 (assumption 71).

RKEY, RCTR, RDRAW and RDRAWV (R124, R125, R381, R382): RKEY and RCTR set one generator and leave the other; a draw takes the
output at the counter and adds 1 to it. -/
def Obligations.MessageAndRandomWords : Prop :=
  (∀ (t : TileId) (h : Hdr) (o : OpR) (other : Word) (s : State),
     CanIssue s t → hdrRuns h (fetched s t) = true → o.rb = 0 → o.fmt = 0 → o.rm = 0 → o.vm = 0 →
     let x := fetched s t
     let r := s.run x.task
     let n := o.fn.toNat % 8
     let ring : BitVec 3 := o.fn.extractLsb' 3 3
     let sent : Tile := { x with
       msgTx := x.msgTx + 1, msgResult := 1, msgReason := 0, msgSeq := (x.msgTx + 1).truncate 16, sendWait := none,
       hist := x.hist <<< 1 }
     (RestsB [] [] other x → o.rd = 0 → o.fn.toNat < 64 → (n = 0 ∨ 4 < n ∨ o.rc.toNat + n ≤ 32) →
       (32 ≤ x.sends.length → x.sendWait = none →
         MakesTile (.send t h o other) t s { x with sendWait := x.sends.head?.map (·.seq) }) ∧
       (∀ p ∈ x.sends, x.sendWait = some p.seq → MakesTile (.send t h o other) t s x)) ∧
     (RestsB [] [] other x → o.rd = 0 → o.fn.toNat < 64 → x.sends.length < 32 →
       (∀ q, x.sendWait = some q → ∀ p ∈ x.sends, p.seq ≠ q) →
       (r.size ≤ (x.g o.ra).toNat → (n = 0 ∨ 4 < n ∨ o.rc.toNat + n ≤ 32) → exec (.send t h o other) s =
         .next ((s.setTile t x).raiseOlder t tileADDR false x.pc.toNat ((x.g o.ra).toNat % 2 ^ 32))) ∧
       ((x.g o.ra).toNat < r.size →
         ((n = 0 ∨ 4 < n) → MakesTile (.send t h o other) t s (pastBundle
           { sent with msgResult := 3, msgReason := 3, msgTxNak := satInc x.msgTxNak, hist := x.hist <<< 1 ||| 1 })) ∧
         (1 ≤ n → n ≤ 4 → o.rc.toNat + n ≤ 32 →
           ∃ m, exec (.send t h o other) s = .next m ∧
             m.tile t = pastBundle { sent with
               sends := x.sends ++ [{ seq := x.msgTx + 1, dest := (x.g o.ra).truncate 11, ring := ring }] } ∧
             OnlyTile t { s with msgs := s.msgs ++ [{ src := t, srcRel := x.rel, dst := r.tileAt (x.g o.ra).toNat, ring := ring
                                                      words := (List.range n).map (fun i => x.g (o.rc + BitVec.ofNat 5 i))
                                                      seq := x.msgTx + 1 }] } m))) ∧
     (RestsB [o.rd] [] other x → o.ra = 0 → o.rc = 0 →
       let reports (v : Word) : Prop := MakesTile (.mstat t h o other) t s (pastBundle (x.setG o.rd v))
       (o.fn = 0 → reports (BitVec.zeroExtend 64 (x.msgResult ++ x.msgReason ++ 0#12 ++ x.msgSeq))) ∧
       (o.fn = 1 → x.sends.length ≤ 32 →
         reports ((BitVec.ofNat 16 x.sends.length ++ (x.msgTx.truncate 16 : BitVec 16) ++ x.hist : BitVec 64))) ∧
       (8 ≤ o.fn.toNat → o.fn.toNat < 16 →
         let q := x.ring (o.fn.toNat % 8)
         reports (BitVec.zeroExtend 64 (BitVec.ofBool q.isOpen ++ 0#2 ++ q.tail ++ 0#3 ++ q.head))))) ∧
  (∀ (t : TileId) (h : Hdr) (o : OpR) (other : Word) (s : State),
     CanIssue s t → hdrRuns h (fetched s t) = true → o.rc = 0 → o.fmt = 0 → o.rm = 0 → o.vm = 0 →
     (s.tile t).vuNext = none →
     let x := fetched s t
     let a := x.g o.ra
     let b := x.g o.rb
     let out := BitVec.ofNat 128 (genOut x.vu.isWax x.vu.key x.vu.ctr)
     let drawn (y : Tile) : Tile :=
       pastBundle { y with vu := { x.vu with ctr := x.vu.ctr + 1 }, waxUsed := x.waxUsed || x.vu.isWax }
     (RestsB [] [] other x → o.rd = 0 →
       (o.fn = 0 → MakesTile (.rkey t h o other) t s
         (pastBundle { x with vu := { x.vu with key := deriveKey a.toNat b.toNat, isWax := false, keyed := true } })) ∧
       (o.fn = 1 → x.queue.all (fun e => e.started) = true → MakesTile (.rkey t h o other) t s
         (pastBundle { x with dr := { x.dr with key := deriveKey a.toNat b.toNat, isWax := false, keyed := true } })) ∧
       (o.fn = 2 → MakesTile (.rkey t h o other) t s
         (pastBundle { x with vu := { x.vu with key := b ++ a, isWax := true, keyed := true } })) ∧
       (o.fn = 3 → x.queue.all (fun e => e.started) = true → MakesTile (.rkey t h o other) t s
         (pastBundle { x with dr := { x.dr with key := b ++ a, isWax := true, keyed := true } })) ∧
       (o.fn = 0 → MakesTile (.rctr t h o other) t s (pastBundle { x with vu := { x.vu with ctr := b ++ a } })) ∧
       (o.fn = 1 → x.queue.all (fun e => e.started) = true →
         MakesTile (.rctr t h o other) t s (pastBundle { x with dr := { x.dr with ctr := b ++ a } }))) ∧
     (o.ra = 0 → o.rb = 0 →
       (RestsB [o.rd, o.rd + 1] [] other x → o.fn = 0 → o.rd.toNat % 2 = 0 → MakesTile (.rdraw t h o other) t s
         (drawn ((x.setG o.rd (out.truncate 64)).setG (o.rd + 1) (out.extractLsb' 64 64)))) ∧
       (RestsB [] [o.rd] other x → o.fn.toNat < 8 →
         VReady x [o.rd] →
         ∃ r : Row, MakesTile (.rdrawv t h o other) t s (drawn (x.setV o.rd r)) ∧
           ∀ j < 8, elt 128 r j = if j = o.fn.toNat then out.toNat else elt 128 (x.v o.rd) j)))

/-- COPY (R99, R123, R285): a descriptor that passes the checks of R329 joins the copy queue with the object that its SID maps
to, and an unmapped SID raises SYNC_XLATE.

EXCH and EXCH_LAST (R49, R65, R86, R101): beside a NOP, with the drain empty and a descriptor that passes its checks, they
start the tile's exchange, empty the feeders, put the staged BREAK in force, and the tile arrives at the compute barrier, or holds
where BREAK is in force; registers and shelves stay. -/
def Obligations.CopyAndExchangeWords : Prop :=
  (∀ (t : TileId) (h : Hdr) (o : OpX) (other : Word) (s : State),
     CanIssue s t → RestsB [] [] other (fetched s t) → hdrRuns h (fetched s t) = true → o.res = 0 →
     let x := fetched s t
     let s0 := s.setTile t x
     let a := 32 * o.desc.toNat
     x.copies.length < 16 → queueClash x.queue [(a, 32)] [] = false → x.firstBad [(a, 32)] = none →
     copyOk s0 t (s.run x.task) (readCopy o x s0 0) (readLE x.shelf a 8) (readLE x.shelf (a + 8) 8)
       (readLE x.shelf (a + 16) 8) (readLE x.shelf (a + 24) 8) = true →
     (∀ k, tileObj s x o.sid = some k →
       MakesTile (.copy t h o other) t s (pastBundle { (x.touch [(a, 32)]).noteReads [(a, 32)] with
         copies := x.copies ++ [readCopy o x s0 k], copyNum := x.copyNum + 1 })) ∧
     (tileObj s x o.sid = none →
       ∃ y, exec (.copy t h o other) s = .next (y.raiseOlder t syncXLATE false x.pc.toNat o.sid.toNat) ∧ OnlyTile t s y)) ∧
  (∀ (t : TileId) (o : OpX) (s : State) (last : Bool),
     CanIssue s t → o.ra = 0 → o.sid = 0 → o.res = 0 →
     let x := fetched s t
     x.queue = [] → x.fifo = [] → x.copies.any (fun d => isArm d.op) = false → x.bad = [] → exchCheck o x = [] →
     ∃ n, exec (if last then .exchLast t ⟨0, false⟩ o 0 else .exch t ⟨0, false⟩ o 0) s = .next n ∧
       (n.tile t).st = (if x.brk then 6 else 3) ∧ (n.tile t).exch = newExch x (readExch x (32 * o.desc.toNat)) last ∧
       (n.tile t).feeders = [] ∧ (n.tile t).brkAct = x.brk ∧ (n.tile t).pc = x.pc + 16 ∧
       (n.tile t).gs = x.gs ∧ (n.tile t).ps = x.ps ∧ (n.tile t).vs = x.vs ∧ (n.tile t).accs = x.accs ∧
       (n.tile t).shelf = x.shelf ∧ (n.tile t).modeHeld = none ∧ (n.tile t).wdogHeld = none ∧ ∀ u, u ≠ t → n.tile u = s.tile u)

/-! ### Words of slot B -/

/-- VADD, VSUB, VMUL, VMIN, VMAX, VABS, VNEG and the compares on integers (Table 4-6): each active element takes the wrapping
signed result, each inactive element keeps its value, and nothing but v[RD] and the PC changes.

The bitwise words and the shifts (Table 4-6): by vb[j], or with FN[15] = 1 by FN[4:0], modulo the element width. -/
def Obligations.VectorIntegers : Prop :=
  (∀ (t : TileId) (h : Hdr) (o : OpR) (other : Word) (s : State) (w : Nat),
     CanIssue s t → RestsA [] [o.rd] other (fetched s t) → hdrRuns h (fetched s t) = true →
     VReady (fetched s t) [o.ra, o.rb, o.rc, o.vm, o.rd] →
     (o.fmt = 0 ∧ w = 32 ∨ o.fmt = 2 ∧ w = 16 ∨ o.fmt = 5 ∧ w = 8) → o.rm = 0 → o.rc = 0 → o.fn = 0 →
     let x := fetched s t
     let a (j : Nat) : Int := toSigned w (elt w (x.v o.ra) j)
     let b (j : Nat) : Int := toSigned w (elt w (x.v o.rb) j)
     let makes (i : Instr) (f : Nat → Int) : Prop :=
       ∃ r : Row, MakesTileB i t s (pastBundle (x.setV o.rd r)) ∧
         ∀ j < 1024 / w, elt w r j = if active x o.vm w j then ofSigned w (f j) else elt w (x.v o.rd) j
     makes (.vadd t h o other) (fun j => a j + b j) ∧ makes (.vsub t h o other) (fun j => a j - b j) ∧
     makes (.vmul t h o other) (fun j => a j * b j) ∧ makes (.vmin t h o other) (fun j => min (a j) (b j)) ∧
     makes (.vmax t h o other) (fun j => max (a j) (b j)) ∧
     makes (.vceq t h o other) (fun j => if a j = b j then -1 else 0) ∧
     makes (.vclt t h o other) (fun j => if a j < b j then -1 else 0) ∧
     makes (.vcle t h o other) (fun j => if a j ≤ b j then -1 else 0) ∧
     (o.rb = 0 → makes (.vabs t h o other) (fun j => (a j).natAbs) ∧ makes (.vneg t h o other) (fun j => -(a j)))) ∧
  (∀ (t : TileId) (h : Hdr) (o : OpR) (other : Word) (s : State) (w : Nat),
     CanIssue s t → RestsA [] [o.rd] other (fetched s t) → hdrRuns h (fetched s t) = true →
     VReady (fetched s t) [o.ra, o.rb, o.rc, o.vm, o.rd] →
     (o.fmt = 0 ∧ w = 32 ∨ o.fmt = 2 ∧ w = 16 ∨ o.fmt = 5 ∧ w = 8) → o.rm = 0 → o.rc = 0 →
     let x := fetched s t
     let a (j : Nat) : Nat := elt w (x.v o.ra) j
     let b (j : Nat) : Nat := elt w (x.v o.rb) j
     let makes (i : Instr) (f : Nat → Nat) : Prop :=
       ∃ r : Row, MakesTileB i t s (pastBundle (x.setV o.rd r)) ∧
         ∀ j < 1024 / w, elt w r j = if active x o.vm w j then f j else elt w (x.v o.rd) j
     let shifts (c : Nat → Nat) : Prop :=
       makes (.vshl t h o other) (fun j => a j * 2 ^ c j % 2 ^ w) ∧ makes (.vshr t h o other) (fun j => a j / 2 ^ c j) ∧
       makes (.vsar t h o other) (fun j => ofSigned w (toSigned w (a j) / 2 ^ c j))
     (o.fn = 0 → makes (.vand t h o other) (fun j => a j &&& b j) ∧ makes (.vor t h o other) (fun j => a j ||| b j) ∧
       makes (.vxor t h o other) (fun j => a j ^^^ b j) ∧ shifts (fun j => b j % w)) ∧
     (o.rb = 0 → o.fn.getLsbD 15 = true → bits o.fn.toNat 14 5 = 0 → shifts (fun _ => o.fn.toNat % 32 % w)))

/-- The float words (R109, R127, R575): each active element is the exact result rounded once to the element's format, with RM for
VADD, VSUB, VMUL and VFMA and to nearest even for VEXP, VRCP and VRSQ; minimum and maximum follow IEEE minimumNumber and
maximumNumber; the compares take no NaN. -/
def Obligations.VectorFloats : Prop :=
  ∀ (t : TileId) (h : Hdr) (o : OpR) (other : Word) (s : State) (w : Nat) (fl : FloatFmt),
    CanIssue s t → RestsA [] [o.rd] other (fetched s t) → hdrRuns h (fetched s t) = true →
    VReady (fetched s t) [o.ra, o.rb, o.rc, o.vm, o.rd] →
    (o.fmt = 1 ∧ w = 32 ∧ fl = fp32 ∨ o.fmt = 3 ∧ w = 16 ∧ fl = bf16 ∨ o.fmt = 4 ∧ w = 16 ∧ fl = fp16) → o.fn = 0 →
    let x := fetched s t
    let a (j : Nat) : Fx := decodeF fl (elt w (x.v o.ra) j)
    let b (j : Nat) : Fx := decodeF fl (elt w (x.v o.rb) j)
    let c (j : Nat) : Fx := decodeF fl (elt w (x.v o.rc) j)
    let makes (i : Instr) (f : Nat → Nat) : Prop :=
      ∃ r : Row, MakesTileB i t s (pastBundle (x.setV o.rd r)) ∧
        ∀ j < 1024 / w, elt w r j = if active x o.vm w j then f j else elt w (x.v o.rd) j
    let round (v : Nat → Fx) (j : Nat) : Nat := roundF fl (if o.rm = 1 then .rtz else .rne) (v j)
    let nearest (v : Nat → Fx) (j : Nat) : Nat := roundF fl .rne (v j)
    ((o.rm = 0 ∨ o.rm = 1) → makes (.vfma t h o other) (round (fun j => ((a j).mul (b j)).add (c j))) ∧
      (o.rc = 0 → makes (.vadd t h o other) (round (fun j => (a j).add (b j))) ∧
        makes (.vsub t h o other) (round (fun j => (a j).add (b j).neg)) ∧
        makes (.vmul t h o other) (round (fun j => (a j).mul (b j))))) ∧
    (o.rm = 0 → o.rc = 0 →
      makes (.vmin t h o other) (nearest (fun j => (a j).minNum (b j))) ∧
      makes (.vmax t h o other) (nearest (fun j => (a j).maxNum (b j))) ∧
      makes (.vceq t h o other) (fun j => if (a j).eq (b j) then 2 ^ w - 1 else 0) ∧
      makes (.vclt t h o other) (fun j => if (a j).lt (b j) then 2 ^ w - 1 else 0) ∧
      makes (.vcle t h o other) (fun j => if (a j).lt (b j) || (a j).eq (b j) then 2 ^ w - 1 else 0) ∧
      (o.rb = 0 → makes (.vabs t h o other) (nearest (fun j => (a j).abs)) ∧
        makes (.vneg t h o other) (nearest (fun j => (a j).neg)) ∧
        makes (.vexp t h o other) (nearest (fun j => (a j).exp)) ∧
        makes (.vrcp t h o other) (nearest (fun j => (a j).recip)) ∧
        makes (.vrsq t h o other) (nearest (fun j => (a j).rsqrt))))

/-- The words that move elements (Table 4-6): VSEL, VMOV, VBCG, VPERM, and VEXTG into a g register.

The set and merge words on ascending lists (R132, Table 4-7): VMERGE keeps every present key of both lists in order, VISECT and
VDIFF those of the first list that are or are not in the second, VDEDUP one of each run; VSORT sorts any list and moves the second
with it. The rest of each output is sentinels. -/
def Obligations.VectorMovesAndSets : Prop :=
  (∀ (t : TileId) (h : Hdr) (o : OpR) (other : Word) (s : State) (w : Nat),
     CanIssue s t → hdrRuns h (fetched s t) = true → VReady (fetched s t) [o.ra, o.rb, o.rc, o.vm, o.rd] →
     o.fmt.toNat ≤ 5 → w = fmtBits o.fmt.toNat → o.rm = 0 →
     let x := fetched s t
     let n := 1024 / w
     let makes (i : Instr) (f : Nat → Nat) : Prop :=
       ∃ r : Row, MakesTileB i t s (pastBundle (x.setV o.rd r)) ∧
         ∀ j < n, elt w r j = if active x o.vm w j then f j else elt w (x.v o.rd) j
     (RestsA [] [o.rd] other x → o.fn = 0 →
       makes (.vsel t h o other) (fun j => if elt w (x.v o.rc) j % 2 = 1 then elt w (x.v o.ra) j else elt w (x.v o.rb) j) ∧
       (o.rc = 0 → makes (.vperm t h o other) (fun j => elt w (x.v o.ra) (elt w (x.v o.rb) j % n)) ∧
         (o.rb = 0 → makes (.vmov t h o other) (fun j => elt w (x.v o.ra) j) ∧
           makes (.vbcg t h o other) (fun _ => (x.g o.ra).toNat % 2 ^ w)))) ∧
     (RestsA [o.rd] [] other x → o.vm = 0 → o.rb = 0 → o.rc = 0 → o.fn.toNat < 32 →
       let lane : BitVec 32 := BitVec.ofNat 32 (elt 32 (x.v o.ra) o.fn.toNat)
       (o.fmt = 0 → MakesTileB (.vextg t h o other) t s (pastBundle (x.setG o.rd (lane.signExtend 64)))) ∧
       (o.fmt = 1 → MakesTileB (.vextg t h o other) t s (pastBundle (x.setG o.rd (lane.zeroExtend 64)))))) ∧
  (∀ (t : TileId) (h : Hdr) (o : OpR) (other : Word) (s : State) (w : Nat),
     CanIssue s t → RestsA [] [o.rd, o.rd + 1] other (fetched s t) → hdrRuns h (fetched s t) = true →
     VReady (fetched s t) [o.ra, o.rb, o.rd, o.rd + 1] →
     (o.fmt = 0 ∧ w = 32 ∨ o.fmt = 2 ∧ w = 16) → o.rm = 0 → o.vm = 0 → o.rc = 0 → o.fn = 0 →
     let x := fetched s t
     let n := 1024 / w
     let top := 2 ^ w - 1
     let list (r : Row) : List Nat := (List.range n).map (elt w r)
     let keys (r : Row) : List Nat := (list r).filter (· ≠ top)
     let a := x.v o.ra
     let b := x.v o.rb
     let rising (l : List Nat) : Prop := l.Pairwise (· ≤ ·)
     let holds (r : Row) (l : List Nat) : Prop := list r = l ++ List.replicate (n - l.length) top
     let makes (i : Instr) (p : Row → Prop) : Prop := ∃ r, p r ∧ MakesTileB i t s (pastBundle (x.setV o.rd r))
     (rising (list a) → rising (list b) →
       makes (.visect t h o other) (fun r => holds r ((keys a).filter (· ∈ keys b))) ∧
       makes (.vdiff t h o other) (fun r => holds r ((keys a).filter (· ∉ keys b))) ∧
       (o.rb = 0 → makes (.vdedup t h o other) (fun r => rising (list r) ∧ (keys r).Nodup ∧ (∀ k, k ∈ keys r ↔ k ∈ keys a))) ∧
       (o.rd.toNat % 2 = 0 → ∃ r q, MakesTileB (.vmerge t h o other) t s (pastBundle ((x.setV o.rd r).setV (o.rd + 1) q)) ∧
         rising (list r ++ list q) ∧ ((list r ++ list q).filter (· ≠ top)).Perm (keys a ++ keys b))) ∧
     (o.rb = 0 → makes (.vsort t h o other) (fun r => rising (list r) ∧ (list r).Perm (list a))) ∧
     (o.rb ≠ 0 → o.rd.toNat % 2 = 0 → ∃ r q, MakesTileB (.vsort t h o other) t s
         (pastBundle ((x.setV o.rd r).setV (o.rd + 1) q)) ∧
       rising (list r) ∧ ((list r).zip (list q)).Perm ((list a).zip (list b))))

/-- The reductions and the segmented prefix (R128–R131): VRSUM in the fixed pairwise tree, VRMAX and VRMIN to element 0, VSCAN and
VSCANMAX in ascending order from the start of each segment. Stated on integers.

VRSUM and VSCAN on floats (R129, R131): the sum is widened exactly to FP32 and rounded to FP32 at every addition of the pairwise
tree; the scan rounds in FMT after each addition. -/
def Obligations.VectorReductions : Prop :=
  (∀ (t : TileId) (h : Hdr) (o : OpR) (other : Word) (s : State) (w : Nat),
     CanIssue s t → RestsA [] [o.rd] other (fetched s t) → hdrRuns h (fetched s t) = true →
     VReady (fetched s t) [o.ra, o.rb, o.rc, o.vm, o.rd] →
     (o.fmt = 0 ∧ w = 32 ∨ o.fmt = 2 ∧ w = 16 ∨ o.fmt = 5 ∧ w = 8) → o.rm = 0 → o.vm = 0 → o.rb = 0 → o.fn = 0 →
     let x := fetched s t
     let n := 1024 / w
     let a (j : Nat) : Int := toSigned w (elt w (x.v o.ra) j)
     let makes (i : Instr) (p : Row → Prop) : Prop := ∃ r, p r ∧ MakesTileB i t s (pastBundle (x.setV o.rd r))
     let starts (j : Nat) : Prop := j = 0 ∨ (x.v o.rc).getLsbD (w * j) = true
     (o.rc = 0 →
       makes (.vrsum t h o other)
         (fun r => r.toNat = ofSigned 32 (((List.range n).map a).foldl (· + ·) 0)) ∧
       makes (.vrmax t h o other) (fun r => r.toNat = ofSigned w (((List.range n).map a).foldl max (a 0))) ∧
       makes (.vrmin t h o other) (fun r => r.toNat = ofSigned w (((List.range n).map a).foldl min (a 0)))) ∧
     makes (.vscan t h o other) (fun r => ∀ j < n,
       (starts j → elt w r j = ofSigned w (a j)) ∧
       (¬ starts j → elt w r j = ofSigned w (toSigned w (elt w r (j - 1)) + a j))) ∧
     makes (.vscanmax t h o other) (fun r => ∀ j < n,
       (starts j → elt w r j = ofSigned w (a j)) ∧
       (¬ starts j → elt w r j = ofSigned w (max (toSigned w (elt w r (j - 1))) (a j))))) ∧
  (∀ (t : TileId) (h : Hdr) (o : OpR) (other : Word) (s : State) (w : Nat) (fl : FloatFmt),
     CanIssue s t → RestsA [] [o.rd] other (fetched s t) → hdrRuns h (fetched s t) = true →
     VReady (fetched s t) [o.ra, o.rb, o.rc, o.vm, o.rd] →
     (o.fmt = 1 ∧ w = 32 ∧ fl = fp32 ∨ o.fmt = 3 ∧ w = 16 ∧ fl = bf16 ∨ o.fmt = 4 ∧ w = 16 ∧ fl = fp16) →
     (o.rm = 0 ∨ o.rm = 1) → o.vm = 0 → o.rb = 0 → o.fn = 0 →
     let x := fetched s t
     let a (j : Nat) : Fx := decodeF fl (elt w (x.v o.ra) j)
     let rnd : Rnd := if o.rm = 1 then .rtz else .rne
     let add32 (p q : Nat) : Nat := roundF fp32 rnd ((f32 p).add (f32 q))
     let makes (i : Instr) (p : Row → Prop) : Prop := ∃ r, p r ∧ MakesTileB i t s (pastBundle (x.setV o.rd r))
     (o.rc = 0 → makes (.vrsum t h o other) (fun r => ∃ level : Nat → Nat → Nat,
       (∀ j < 1024 / w, level 0 j = r32 (a j)) ∧
       (∀ k j, level (k + 1) j = add32 (level k (2 * j)) (level k (2 * j + 1))) ∧
       r.toNat = level (if w = 32 then 5 else 6) 0)) ∧
     makes (.vscan t h o other) (fun r => ∀ j < 1024 / w,
       let starts := j = 0 ∨ (x.v o.rc).getLsbD (w * j) = true
       (starts → elt w r j = roundF fl .rne (a j)) ∧
       (¬ starts → elt w r j = roundF fl rnd ((decodeF fl (elt w r (j - 1))).add (a j)))))

/-- VLD, VST and VSTC (R84, R135–R138): with every active address aligned and inside the shelves, a load writes the active elements
of v[RT] from their addresses, a store writes them in ascending order, so that the highest index supplies colliding bytes, and
VSTC writes the active elements to consecutive addresses. What a load reads of a ring counts as read (R293), and nothing else of the rings
changes; a load of MODE 0b011 takes no element address from a lane that is not active (assumption 60, the model's choice). -/
def Obligations.VectorMemory : Prop :=
  ∀ (t : TileId) (h : Hdr) (o : OpM) (other : Word) (s : State) (sz : Nat),
    CanIssue s t → RestsA [] [o.rt] other (fetched s t) → hdrRuns h (fetched s t) = true →
    o.fmt.toNat ≤ 7 → sz = memSize o.fmt → o.mode.toNat ≤ 3 →
    (if o.mode = 1 then True else if o.mode = 2 then o.stride.toNat < 32 else o.stride = 0) →
    (fetched s t).queue = [] → (fetched s t).bad = [] → (∀ w, (fetched s t).inRingFree w = false) →
    let x := fetched s t
    let act := (List.range (1024 / (8 * sz))).filter (active x o.vm (8 * sz))
    let bytes (j : Nat) : List Byte := leBytes sz (elt (8 * sz) (x.v o.rt) j)
    let stored (l : List (Nat × Nat)) : Memory := l.foldl (fun m c => writeBytes m c.2 (bytes c.1)) x.shelf
    ((∀ j ∈ act, elemAddr o x j < 0x400000 ∧ elemAddr o x j % sz = 0) →
      (∃ (r : Row) (rg : Sparse Ring), MakesTileB (.vld t h o other) t s (pastBundle { x.setV o.rt r with rings := rg }) ∧
        (∀ k, { sget {} k rg with unread := (sget {} k x.rings).unread } = sget {} k x.rings) ∧
        ∀ j < 1024 / (8 * sz), elt (8 * sz) r j =
          if j ∈ act then readLE x.shelf (elemAddr o x j) sz else elt (8 * sz) (x.v o.rt) j) ∧
      (o.mode ≠ 3 → MakesTileB (.vst t h o other) t s
        (pastBundle { x with shelf := stored (act.map (fun j => (j, elemAddr o x j))) }))) ∧
    (o.mode = 0 → (∀ i < act.length, elemAddr o x i < 0x400000 ∧ elemAddr o x i % sz = 0) →
      MakesTileB (.vstc t h o other) t s
        (pastBundle { x with shelf := stored (act.zipIdx.map (fun c => (c.1, elemAddr o x c.2))) })) ∧
    (∀ j ∈ act, (0x400000 ≤ elemAddr o x j ∨ elemAddr o x j % sz ≠ 0) →
      (∀ i ∈ act, i < j → elemAddr o x i < 0x400000 ∧ elemAddr o x i % sz = 0) →
      ∀ c ∈ (if o.mode = 3 then [Instr.vld t h o other] else [Instr.vld t h o other, Instr.vst t h o other]),
        exec c s = .next ((s.setTile t x).raiseOlder t tileADDR false x.pc.toNat (elemAddr o x j)))

/-- VCVT between formats of Table 3-2 (R139–R142): narrowing fills part q of the destination, widening reads part q of the source;
each element is rounded by RM with its random bits, and the generator advances by one output for each 32 source elements under
stochastic rounding, also where it widens a float, which needs no rounding (assumption 53). VMXSC writes the shared scale of R144.

WELF and WELFM (R145, R146): the Welford step of each active lane, and the merge of two states lane by lane or of the 32 lanes in
the tree of R129 to lane 0. -/
def Obligations.ConversionsAndWelford : Prop :=
  (∀ (t : TileId) (h : Hdr) (o : OpR) (other : Word) (s : State),
     CanIssue s t → RestsA [] [o.rd] other (fetched s t) → hdrRuns h (fetched s t) = true →
     VReady (fetched s t) [o.ra, o.rb, o.vm, o.rd] → o.rc = 0 →
     let x := fetched s t
     (∀ sw dw, o.rb = 0 → o.fmt.toNat ≤ 7 → o.fn.toNat % 16 ≤ 7 → o.fn.toNat < 64 → o.rm.toNat ≤ 3 →
       sw = fmtBits o.fmt.toNat → dw = fmtBits (o.fn.toNat % 16) →
       (o.fmt.toNat ∈ [0, 2, 5] → o.fn.toNat % 16 ∈ [0, 2, 5] → o.rm = 0) →
       let df := o.fn.toNat % 16
       let q := o.fn.toNat / 16
       let n := 1024 / max sw dw
       let draws := if 2 ≤ o.rm.toNat then n / 32 else 0
       let bits (j : Nat) : Nat := genOut x.vu.isWax x.vu.key (x.vu.ctr + BitVec.ofNat 128 (j / 32))
       let rnd (j : Nat) : Rnd := if o.rm = 0 then .rne else if o.rm = 1 then .rtz
         else if o.rm = 2 then .sto 4 (bits j / 2 ^ (4 * (j % 32)) % 16) else .sto 3 (bits j / 2 ^ (3 * (j % 32)) % 8)
       let drawn (r : Row) : Tile := { x.setV o.rd r with
         vu := { x.vu with ctr := x.vu.ctr + BitVec.ofNat 128 draws }, waxUsed := x.waxUsed || (x.vu.isWax && draws ≠ 0) }
       (dw < sw → q < sw / dw → ∃ r : Row, MakesTileB (.vcvt t h o other) t s (pastBundle (drawn r)) ∧
         ∀ j < 1024 / dw, elt dw r j = if n * q ≤ j ∧ j < n * q + n ∧ active x o.vm dw j then
           toElem df (rnd (j - n * q)) (elemFx o.fmt.toNat (elt sw (x.v o.ra) (j - n * q))) else elt dw (x.v o.rd) j) ∧
       (sw ≤ dw → (if sw = dw then q = 0 else q < dw / sw) →
         ∃ r : Row, MakesTileB (.vcvt t h o other) t s (pastBundle (drawn r)) ∧
         ∀ j < 1024 / dw, elt dw r j = if active x o.vm dw j then
           toElem df (rnd j) (elemFx o.fmt.toNat (elt sw (x.v o.ra) (n * q + j))) else elt dw (x.v o.rd) j)) ∧
     (o.fmt = 1 → o.rm = 0 → o.vm = 0 → o.rb = 0 → 8 ≤ o.fn.toNat → o.fn.toNat ≤ 12 →
       MakesTileB (.vmxsc t h o other) t s (pastBundle (x.setV o.rd
         (BitVec.ofNat 1024 (mxScale o.fn.toNat ((List.range 32).map (fun j => f32 (elt 32 (x.v o.ra) j))))))))) ∧
  (∀ (t : TileId) (h : Hdr) (o : OpR) (other : Word) (s : State),
     CanIssue s t → RestsA [] [o.rd, o.rd + 1, o.rd + 2] other (fetched s t) → hdrRuns h (fetched s t) = true →
     VReady (fetched s t) [o.ra, o.ra + 1, o.ra + 2, o.vm, o.rd, o.rd + 1, o.rd + 2] →
     o.fmt = 1 → o.rm = 0 → o.rb = 0 → o.rc = 0 → o.rd.toNat ≤ 29 →
     let x := fetched s t
     let lane (r : BitVec 5) (j : Nat) : Welf := ⟨elt 32 (x.v r) j, elt 32 (x.v (r + 1)) j, elt 32 (x.v (r + 2)) j⟩
     let makes (i : Instr) (f : Nat → Welf) : Prop := ∃ a b c : Row,
       MakesTileB i t s (pastBundle (((x.setV o.rd a).setV (o.rd + 1) b).setV (o.rd + 2) c)) ∧
       ∀ j < 32, (⟨elt 32 a j, elt 32 b j, elt 32 c j⟩ : Welf) = f j
     (o.fn = 0 → makes (.welf t h o other) (fun j =>
       let st := lane o.rd j
       let n1 := (st.n + 1) % 2 ^ 32
       let d := fsub32 (elt 32 (x.v o.ra) j) st.mean
       let mean := fadd32 st.mean (fdiv32 d (r32 (.ofInt (toSigned 32 n1))))
       if active x o.vm 32 j && st.n ≠ 0x7FFFFFFF then
         ⟨n1, mean, fadd32 st.m2 (fmul32 d (fsub32 (elt 32 (x.v o.ra) j) mean))⟩ else st)) ∧
     (o.fn = 0 → o.ra.toNat ≤ 29 → makes (.welfm t h o other) (fun j =>
       if active x o.vm 32 j then welfMerge (lane o.rd j) (lane o.ra j) else lane o.rd j)) ∧
     (o.fn = 1 → o.ra.toNat ≤ 29 → o.vm = 0 → ∃ level : Nat → Nat → Welf,
       (∀ j, level 0 j = lane o.ra j) ∧ (∀ k j, level (k + 1) j = welfMerge (level k (2 * j)) (level k (2 * j + 1))) ∧
       makes (.welfm t h o other) (fun j => if j = 0 then level 5 0 else ⟨0, 0, 0⟩)))

/-! ### The matrix array and the accumulators -/

/-- SLOAD, SSWAP, MMUL, AMOV, AMOVI, ACLR, ADRAIN and AADD (R98, R150, R166, R190, R193, R194): with fewer than four entries in the
command queue the word enters it with the operands read at issue; a full queue holds issue. Of a word whose check at its start will
fail, or that will meet an uncorrectable word, the word alone enters the queue: its bundle commits nothing and no later bundle
issues (R93, R94, R185): that, and what may issue behind it, is the model's reading (assumptions 15 and 47). -/
def Obligations.MatrixWords : Prop :=
  ∀ (t : TileId) (h : Hdr) (o : OpT) (other : Word) (s : State),
    CanIssue s t → hdrRuns h (fetched s t) = true → o.res = 0 →
    let x := fetched s t
    let entry (op : MxaOp) : MxaEntry :=
      { op := op, o := o, base := x.g o.rb, stride := x.g o.rc, vdata := x.v o.rb, pc := x.pc, num := x.mxaNum }
    let ue (op : MxaOp) : Option (Nat × Nat) := firstUe x x.queue (entry op)
    let fails (op : MxaOp) : Prop :=
      startFaults (x.afterQueue (s.runOf t).stoch) (s.runOf t).stoch x.queue (entry op) ≠ [] ∨ (ue op).isSome = true
    let enters (i : Instr) (op : MxaOp) : Prop :=
      (x.queue.length < 4 → ¬ fails op →
        MakesTileB i t s (pastBundle { x with queue := x.queue ++ [entry op], mxaNum := x.mxaNum + 1 })) ∧
      (x.queue.length < 4 → fails op → MakesTile i t s { x with queue := x.queue ++ [{ entry op with ue := ue op, doomed := true }] }) ∧
      (4 ≤ x.queue.length → exec i s = .next (s.setTile t x))
    let plain : Prop := o.rm = 0 ∧ o.fuse = 0 ∧ o.err = false
    let still : Prop := o.nrow = 0 ∧ o.clr = false ∧ o.rm = 0 ∧ o.fuse = 0 ∧ o.acc2 = 0
    (RestsA [] [] other x →
      (plain → o.acc = 0 → o.semi = 0 → o.nrow = 31 → o.clr = false → o.row = 0 → o.acc2 = 0 → o.fmt.toNat ∉ [0, 0xD, 0xF] →
        enters (.sload t h o other) .sload) ∧
      (plain → still → o.acc = 0 → o.rb = 0 → o.rc = 0 → o.fmt = 0 → o.semi = 0 → o.row = 0 →
        enters (.sswap t h o other) .sswap) ∧
      (plain → o.acc2 = 0 → o.row.toNat + o.nrow.toNat ≤ 31 →
        (o.semi = 0 ∧ 1 ≤ o.fmt.toNat ∧ o.fmt.toNat ≤ 0xC ∨ (o.semi = 1 ∨ o.semi = 2) ∧ 2 ≤ o.fmt.toNat ∧ o.fmt.toNat ≤ 4 ∨
          o.semi = 3 ∧ (o.fmt = 3 ∨ o.fmt = 4) ∨ o.semi = 4 ∧ o.fmt = 0xE) →
        enters (.mmul t h o other) .mmul) ∧
      (still → o.rc = 0 → o.semi.toNat ≤ 4 → VReady x [o.rb] → enters (.amovi t h o other) .amovi) ∧
      (plain → still → o.rb = 0 → o.rc = 0 → o.fmt = 0 → o.semi = 0 → o.row = 0 → enters (.aclr t h o other) .aclr) ∧
      (o.semi = 0 → o.err = false → o.rm.toNat ≤ 3 → o.fuse.toNat ≤ 3 → (o.fuse = 0 → o.acc2 = 0) →
        (o.fmt.toNat ∈ [0, 2, 5, 0xE] → o.rm = 0) → enters (.adrain t h o other) .adrain) ∧
      (plain → o.rb = 0 → o.rc = 0 → o.fmt = 0 → o.semi = 0 → o.clr = false → o.row.toNat + o.nrow.toNat ≤ 31 →
        enters (.aadd t h o other) .aadd)) ∧
    (RestsA [] [o.rb] other x → still → o.rc = 0 → o.fmt = 0 → o.semi = 0 → VReady x [o.rb] →
      enters (.amov t h o other) .amov)

/-- What a queue word does when it starts (R166, R185, R190, R191, R193): the oldest entry not yet started, whose accumulators no
older word or result row still names. SLOAD fills the shadow; AMOV and AMOVI move one row of a half; ACLR clears; the others only
start, an MMUL with CLR = 1 setting the tag and the kind and every row to the identity (R165), and a word that rounds at random
reserving one generator value for each row (R205).

The checks that a queue word makes at its start (R155, R160, R186, R190, R193): a misaligned row raises TILE_ADDR; an MMUL whose
format does not pair with the stationary operand, an MMUL with CLR = 0 onto another tag, an AMOV of a clear tag, and an AADD of
unlike tags raise ACC_FMT; nothing else changes. -/
def Obligations.MatrixStarts : Prop :=
  (∀ (t : TileId) (s : State) (older rest : List MxaEntry) (e : MxaEntry),
     let x := s.tile t
     let o := e.o
     let a := x.acc o.acc
     let i : Instr := .mxaQueueStart t
     let makes (y : Tile) : Prop := MakesTile i t s { y with queue := older ++ rest }
     x.working = true → x.queue = older ++ e :: rest → (∀ q ∈ older, q.started = true) → e.started = false →
     (∀ q ∈ older, q.o.acc ≠ o.acc ∧ q.o.acc2 ≠ o.acc ∧ q.op ≠ .sload ∧ q.op ≠ .sswap ∧ q.op ≠ .adrain) →
     (∀ d ∈ x.fifo, d.acc ≠ o.acc) →
     (e.op = .sload → x.bad = [] →
       (∀ r < 32, rowAddr e.base e.stride r % 8 = 0 ∧ rowAddr e.base e.stride r + rowBytes o.fmt.toNat ≤ 0x400000) →
       e.ue = none → (isMx o.fmt.toNat = true → rowAddr e.base e.stride 32 % 8 = 0 ∧ rowAddr e.base e.stride 32 + 32 ≤ 0x400000) →
       ∃ sh : Operand, makes { x with shadow := sh } ∧ sh.fmt = o.fmt ∧
         (∀ r < 32, sget 0 r sh.rows =
           BitVec.ofNat 1024 (readLE x.shelf (rowAddr e.base e.stride r) (rowBytes o.fmt.toNat))) ∧
         (isMx o.fmt.toNat = true → sh.scales = BitVec.ofNat 256 (readLE x.shelf (rowAddr e.base e.stride 32) 32))) ∧
     (e.op = .sswap → MakesTile i t s { x with queue := older ++ { e with started := true } :: rest }) ∧
     (e.op = .amov → a.tag ≠ 0 → (o.err = true → a.tag = 1) → makes (x.setV o.rb (a.row o.err o.row.toNat))) ∧
     (e.op = .amovi → a.tag = 1 → o.fmt = 1 → o.semi = 0 → a.kind = false →
       makes (x.setAcc o.acc (a.setRow o.err o.row.toNat e.vdata))) ∧
     (e.op = .amovi → a.tag = 0 → o.fmt = 0 → o.semi = 0 → o.err = false →
       makes (x.setAcc o.acc ({ a with tag := 3, kind := true }.setRow false o.row.toNat e.vdata))) ∧
     (e.op = .aclr → makes (x.setAcc o.acc {})) ∧
     (e.op = .mmul → x.stat.fmt = o.fmt → o.semi.toNat ≤ 4 →
       (∀ r ≤ o.nrow.toNat, rowAddr e.base e.stride r % 8 = 0 ∧
         rowAddr e.base e.stride r + rowBytes o.fmt.toNat + 1 ≤ 0x400000) →
       let int : Bool := o.fmt = 0 || o.fmt = 2 || o.fmt = 5
       let tag : BitVec 4 := if o.semi = 0 then (if int then 3 else if (s.runOf t).stoch then 2 else 1)
         else BitVec.ofNat 4 (o.semi.toNat + 3)
       let kind : Bool := if o.semi = 0 then int else if o.semi = 3 then false else if o.semi = 4 then true else o.fmt = 2
       let drawn (y : Tile) : Tile := if tag = 2 then
           { y with dr := { x.dr with ctr := x.dr.ctr + BitVec.ofNat 128 (o.nrow.toNat + 1) }
                    waxUsed := x.waxUsed || x.dr.isWax }
         else y
       let begun (y : Tile) : Tile :=
         { drawn y with queue := older ++ { e with started := true, tag := tag, kind := kind, gen := x.dr } :: rest }
       (o.clr = false → a.tag = tag → a.kind = kind → MakesTile i t s (begun x)) ∧
       (o.clr = true → ∃ b : Acc, MakesTile i t s (begun (x.setAcc o.acc b)) ∧ b.tag = tag ∧ b.kind = kind ∧
         ∀ r < 32, b.row true r = 0 ∧ ∀ c < 32, elt 32 (b.row false r) c =
           if tag = 4 then (if kind then 0x7FFFFFFF else 0x7F800000)
           else if tag = 5 then (if kind then 0x80000000 else 0xFF800000) else if tag = 6 then 0xFF800000 else 0)) ∧
     (e.op = .adrain → o.fuse = 0 → o.fmt ≠ 0xD → o.fmt ≠ 0xE → drainOk a.tag a.kind o.fmt.toNat 0 = true →
       o.row.toNat + o.nrow.toNat ≤ 31 →
       (∀ r ≤ o.nrow.toNat, rowAddr e.base e.stride r % 8 = 0 ∧
         rowAddr e.base e.stride r + drainBytes o.fmt.toNat ≤ 0x400000) →
       MakesTile i t s { x with
         dr := if o.rm = 2 ∨ o.rm = 3 then { x.dr with ctr := x.dr.ctr + BitVec.ofNat 128 (o.nrow.toNat + 1) } else x.dr
         waxUsed := x.waxUsed || ((o.rm = 2 ∨ o.rm = 3) && x.dr.isWax)
         queue := older ++ { e with started := true, tag := a.tag, kind := a.kind, fuseInit := false, gen := x.dr } :: rest }) ∧
     (e.op = .aadd → a.tag ≠ 0 → a.tag ≠ 2 → (x.acc o.acc2).tag = a.tag → (x.acc o.acc2).kind = a.kind →
       MakesTile i t s { x with
         queue := older ++ { e with started := true, tag := a.tag, kind := a.kind, gen := x.dr } :: rest })) ∧
  (∀ (t : TileId) (s : State) (rest : List MxaEntry) (e : MxaEntry),
     let x := s.tile t
     let o := e.o
     let a := x.acc o.acc
     let accFault : Prop := exec (.mxaQueueStart t) s = .next (s.raise t accFMT false e.pc.toNat 0)
     let rowsOk : Prop := ∀ r ≤ o.nrow.toNat, rowAddr e.base e.stride r % 8 = 0 ∧
       rowAddr e.base e.stride r + rowBytes o.fmt.toNat + 1 ≤ 0x400000
     x.working = true → x.queue = e :: rest → e.started = false → x.fifo = [] → e.fetched = 0 →
     (e.op = .mmul → rowsOk →
       ((o.fmt ≠ x.stat.fmt ∧ ¬(o.fmt.toNat ∈ [6, 7] ∧ x.stat.fmt.toNat ∈ [6, 7]) ∧
           ¬(isMx o.fmt.toNat = true ∧ isMx x.stat.fmt.toNat = true)) ∨ o.clr = false ∧ a.tag = 0) → accFault) ∧
     (e.op = .mmul → x.stat.fmt = o.fmt → o.clr = true → rowAddr e.base e.stride 0 % 8 ≠ 0 →
       exec (.mxaQueueStart t) s = .next (s.raise t tileADDR false e.pc.toNat (rowAddr e.base e.stride 0))) ∧
     (e.op = .amov → a.tag = 0 → accFault) ∧
     (e.op = .amov → o.err = true → a.tag ≠ 1 → accFault) ∧
     (e.op = .aadd → (a.tag = 0 ∨ a.tag ≠ (x.acc o.acc2).tag ∨ a.kind ≠ (x.acc o.acc2).kind) → accFault))

/-- SSWAP_TAKE_EFFECT (R168): with no older load, product or swap in the queue, the shadow becomes the stationary operand and keeps
its contents.

The feeders and the multiply step (R149, R151, R156–R159, R163, R164, R170, R178): refill reads the next moving row, with its MX
scale, at most 16 rows ahead; a step takes one row, or two in the two-row formats, and places each result row behind those in the
drain FIFO; a row that is due and missing, or a result row that a full FIFO cannot take, freezes the array and changes its counter
alone. The sentinel's sample is left open. -/
def Obligations.MatrixSteps : Prop :=
  (∀ (t : TileId) (s : State) (older rest : List MxaEntry) (e : MxaEntry),
     let x := s.tile t
     x.working = true → x.queue = older ++ e :: rest → e.op = .sswap → e.started = true →
     (∀ q ∈ older, ¬(q.op = .sswap ∧ q.started = true)) →
     ((∀ q ∈ older, q.op ≠ .sload ∧ q.op ≠ .mmul ∧ q.op ≠ .sswap) →
       MakesTile (.sswapTakeEffect t) t s { x with stat := x.shadow, queue := older ++ rest }) ∧
     ((∃ q ∈ older, q.op = .sload ∨ q.op = .mmul ∨ q.op = .sswap) → exec (.sswapTakeEffect t) s = .next s)) ∧
  (∀ (t : TileId) (s : State) (rest : List MxaEntry) (e : MxaEntry),
     let x := s.tile t
     let o := e.o
     let mf := o.fmt.toNat
     let sf := x.stat.fmt.toNat
     x.working = true → x.queue = e :: rest → e.op = .mmul → e.started = true →
     (x.feeders.length < 16 → e.fetched ≤ o.nrow.toNat → x.bad = [] → e.ue = none →
       let a := rowAddr e.base e.stride e.fetched
       MakesTile (.feederRefill t) t s { x with
         feeders := x.feeders ++ [{ data := BitVec.ofNat 1024 (readLE x.shelf a (rowBytes mf))
                                    scale := if isMx mf then readByte x.shelf (a + rowBytes mf) else 0, bad := none }]
         queue := { e with fetched := e.fetched + 1 } :: rest }) ∧
     (16 ≤ x.feeders.length → exec (.feederRefill t) s = .next s) ∧
     (∀ n, n = (if (0xA ≤ mf ∧ mf ≤ 0xC ∧ 0xA ≤ sf ∧ sf ≤ 0xC) ∧ e.begun + 1 ≤ o.nrow.toNat then 2 else 1) →
       e.begun ≤ o.nrow.toNat →
       (32 < x.fifo.length →
         MakesTile (.multiplyStep t) t s { x with freezeDrain := x.freezeDrain + 1 }) ∧
       (x.fifo.length ≤ 32 → x.feeders.length < n →
         MakesTile (.multiplyStep t) t s { x with freezeFeed := x.freezeFeed + 1 }) ∧
       (x.fifo.length ≤ 32 → n ≤ x.feeders.length → (∀ w ∈ x.feeders.take n, w.bad = none) →
         ∃ ds m, exec (.multiplyStep t) s = .next m ∧ OnlyTile t s m ∧ ds.length = n ∧
           m.tile t = { x with
             feeders := x.feeders.drop n
             fifo := x.fifo ++ ds
             queue := if e.begun + n = o.nrow.toNat + 1 then rest else { e with begun := e.begun + n } :: rest
             rowNum := (m.tile t).rowNum, sent := (m.tile t).sent } ∧
           ∀ i < n, ∀ w d, x.feeders[i]? = some w → ds[i]? = some d →
             d.acc = o.acc ∧ d.row = o.row.toNat + (e.begun + i) ∧ d.tag = e.tag ∧ d.kind = e.kind ∧
             (d.clr = true ↔ o.clr = true ∧ e.begun + i = 0) ∧
             ∀ c < 32,
               let p (r : Nat) : Fx := elemFx mf (elt (fmtBits mf) w.data r)
               let q (r : Nat) : Fx := elemFx sf (elt (fmtBits sf) (sget 0 r x.stat.rows) c)
               let v := elt 32 d.data c
               (o.semi = 0 → (mf = 2 ∨ mf = 5) → sf = mf →
                 v = ofSigned 32 ((List.range 32).foldl (fun z r => z + toSigned (fmtBits mf) (elt (fmtBits mf) w.data r) *
                   toSigned (fmtBits mf) (elt (fmtBits mf) (sget 0 r x.stat.rows) c)) 0)) ∧
               (o.semi = 0 → (mf = 1 ∨ mf = 3 ∨ mf = 4) → sf = mf → ∃ z : Nat → Nat, z 0 = r32 ((p 0).mul (q 0)) ∧
                 (∀ r < 31, z (r + 1) = r32 ((f32 (z r)).add ((p (r + 1)).mul (q (r + 1))))) ∧ v = z 31) ∧
               (o.semi = 0 → (mf = 6 ∨ mf = 7) → (sf = 6 ∨ sf = 7) → ∃ z : Nat → Fx, z 0 = (p 0).mul (q 0) ∧
                 (∀ r < 31, z (r + 1) = (z r).add ((p (r + 1)).mul (q (r + 1)))) ∧ v = r32 (z 31)) ∧
               (o.semi = 0 → isMx mf = true → isMx sf = true → w.scale ≠ 0xFF → elt 8 (x.stat.scales.zeroExtend 1024) c ≠ 0xFF →
                 ∃ z : Nat → Fx, z 0 = (p 0).mul (q 0) ∧
                 (∀ r < 31, z (r + 1) = (z r).add ((p (r + 1)).mul (q (r + 1)))) ∧
                 v = r32 ((z 31).scale ((w.scale.toNat : Int) - 127 + ((elt 8 (x.stat.scales.zeroExtend 1024) c : Int) - 127)))) ∧
               ((o.semi = 1 ∨ o.semi = 2 ∨ o.semi = 3) → (mf = 3 ∨ mf = 4) → sf = mf → ∃ z : Nat → Fx, z 0 = .nan ∧
                 (∀ r < 32, z (r + 1) =
                   let term := f32 (r32 (if o.semi = 3 then (p r).mul (q r) else (p r).add (q r)))
                   if o.semi = 1 then (z r).minNum term else (z r).maxNum term) ∧ v = r32 (z 32)) ∧
               (o.semi = 4 → mf = 0xE → v ≤ 1 ∧ (v = 1 ↔ ∃ r < 32, elt 8 w.data r &&& elt 8 (sget 0 r x.stat.rows) c ≠ 0)))))

/-- DRAIN_ADD of the head of the drain FIFO (R165, R173, R187–R189): the row is combined into its accumulator row element by element
under its tag, after every row was set to the identity where it is the first row of an MMUL with CLR = 1.

DRAIN_ADD of an ADRAIN or AADD row, served before the FIFO (R174, R193–R195, R197): an ADRAIN without a fused operation writes row i
of its accumulator, converted, at g[RB] + i × g[RC] and sets it to the identity where CLR is 1; an AADD combines a row.

DRAIN_ADD of an ADRAIN row with a fused operation, stochastic rounding, an MX or a BIT format (R197, R198, R200–R205): the online
softmax writes p and keeps m, l and α, the sum of squares and Welford add the row to their state, in the row of ACC2 with the row's
number; other elements of ACC2 stay. A BIT drain writes 1 for every value but zero (assumption 15), and a NaN under a maximum of −∞ stays
out of l (assumption 55).

DRAIN_ADD of a pair of rows drained to G16 without a fused operation (R199): their 64 values become one block at
g[RB] + j × g[RC], whose exponent lies just above the largest magnitude, and one higher where an element rounds to 32,768. -/
def Obligations.DrainAndAccumulatorRows : Prop :=
  (∀ (t : TileId) (s : State) (d : DrainRow) (rest : List DrainRow),
     let x := s.tile t
     x.working = true → x.fifo = d :: rest → (∀ e ∈ x.queue, e.op ≠ .adrain ∧ e.op ≠ .aadd) → d.row < 32 →
     ∃ a : Acc, MakesTile (.drainAdd t) t s { x.setAcc d.acc a with fifo := rest } ∧
       a.tag = (x.acc d.acc).tag ∧ a.kind = (x.acc d.acc).kind ∧
       let b := x.acc d.acc
       let ident : Nat := if d.tag = 4 then (if d.kind then 0x7FFFFFFF else 0x7F800000)
         else if d.tag = 5 then (if d.kind then 0x80000000 else 0xFF800000) else if d.tag = 6 then 0xFF800000 else 0
       let v0 (r c : Nat) : Nat := if d.clr then ident else elt 32 (b.row false r) c
       let e0 (r c : Nat) : Nat := if d.clr then 0 else elt 32 (b.row true r) c
       (∀ r < 32, r ≠ d.row → ∀ c < 32, elt 32 (a.row false r) c = v0 r c ∧ elt 32 (a.row true r) c = e0 r c) ∧
       ∀ c < 32,
         let p := v0 d.row c
         let q := elt 32 d.data c
         let v := elt 32 (a.row false d.row) c
         let tot := fadd32 p q
         let z := fsub32 tot p
         let err := fadd32 (fsub32 p (fsub32 tot z)) (fsub32 q z)
         (d.tag = 1 → v = tot ∧
           elt 32 (a.row true d.row) c = if bits tot 30 23 = 255 then 0 else fadd32 (e0 d.row c) err) ∧
         (d.tag = 2 → ∃ k u, u < 2 ^ k ∧ k = (if (s.run x.task).sr3 then 3 else 4) ∧
           v = roundF fp32 (.sto k u) ((f32 p).add (f32 q))) ∧
         (d.tag = 3 → v = (p + q) % 2 ^ 32) ∧
         (d.tag = 7 → v = p ||| q) ∧
         ((d.tag = 4 ∨ d.tag = 5 ∨ d.tag = 6) → d.kind = false →
           v = r32 (if d.tag = 4 then (f32 p).minNum (f32 q) else (f32 p).maxNum (f32 q))) ∧
         ((d.tag = 4 ∨ d.tag = 5) → d.kind = true →
           v = ofSigned 32 (if d.tag = 4 then min (toSigned 32 p) (toSigned 32 q) else max (toSigned 32 p) (toSigned 32 q)))) ∧
  (∀ (t : TileId) (s : State) (e : MxaEntry) (rest : List MxaEntry),
     let x := s.tile t
     let o := e.o
     let a := x.acc o.acc
     let r := o.row.toNat + e.done
     x.working = true → x.queue = e :: rest → e.started = true → e.done ≤ o.nrow.toNat → r < 32 →
     (∀ d ∈ x.fifo, d.acc ≠ o.acc ∧ d.acc ≠ o.acc2) →
     let left : List MxaEntry := if e.done = o.nrow.toNat then rest else { e with done := e.done + 1 } :: rest
     (e.op = .adrain → o.fuse = 0 → o.rm.toNat ≤ 1 → (o.fmt = 1 ∨ o.fmt = 3 ∨ o.fmt = 4 ∨ o.fmt = 0 ∨ o.fmt = 2 ∨ o.fmt = 5) →
       x.bad = [] → x.rings = [] → e.ue = none →
       let w := fmtBits o.fmt.toNat
       let addr := rowAddr e.base e.stride e.done
       ∃ m b, MakesTile (.drainAdd t) t s { x with shelf := m, accs := b, queue := left } ∧
         (∀ j < 32, readLE m (addr + j * (w / 8)) (w / 8) =
           let v : Fx := if e.tag = 1 then (f32 (elt 32 (a.row false r) j)).add (f32 (elt 32 (a.row true r) j))
             else if e.kind then .ofInt (toSigned 32 (elt 32 (a.row false r) j)) else f32 (elt 32 (a.row false r) j)
           toElem o.fmt.toNat (if o.rm = 1 then .rtz else .rne) v) ∧
         (∀ c, c < addr ∨ addr + 4 * w ≤ c → readByte m c = readByte x.shelf c) ∧
         (o.clr = false → b = x.accs) ∧
         (o.clr = true → ∃ y : Acc, b = sput {} o.acc.toNat y x.accs ∧ y.tag = a.tag ∧ y.kind = a.kind ∧ y.row true r = 0 ∧
           (∀ c < 32, elt 32 (y.row false r) c =
             if e.tag = 4 then (if e.kind then 0x7FFFFFFF else 0x7F800000)
             else if e.tag = 5 then (if e.kind then 0x80000000 else 0xFF800000) else if e.tag = 6 then 0xFF800000 else 0) ∧
           ∀ q, q ≠ r → ∀ h, y.row h q = a.row h q)) ∧
     (e.op = .aadd → ∃ y : Acc, MakesTile (.drainAdd t) t s { x.setAcc o.acc y with queue := left } ∧
       y.tag = a.tag ∧ y.kind = a.kind ∧ (∀ q, q ≠ r → ∀ h, y.row h q = a.row h q) ∧
       ∀ c < 32,
         let p := elt 32 (a.row false r) c
         let q := elt 32 ((x.acc o.acc2).row false r) c
         let v := elt 32 (y.row false r) c
         (e.tag = 3 → v = (p + q) % 2 ^ 32) ∧ (e.tag = 7 → v = p ||| q) ∧ (e.tag = 1 → v = fadd32 p q))) ∧
  (∀ (t : TileId) (s : State) (e : MxaEntry) (rest : List MxaEntry),
     let x := s.tile t
     let o := e.o
     let a := x.acc o.acc
     let b := x.acc o.acc2
     let r := o.row.toNat + e.done
     let f := o.fmt.toNat
     x.working = true → x.queue = e :: rest → e.started = true → e.op = .adrain → e.done ≤ o.nrow.toNat → r < 32 →
     (∀ d ∈ x.fifo, d.acc ≠ o.acc ∧ d.acc ≠ o.acc2) → x.bad = [] → x.rings = [] → e.ue = none → o.rm.toNat ≤ 3 →
     o.fuse.toNat ≤ 3 → (o.fuse ≠ 0 → o.acc2 ≠ o.acc) → f ≤ 0xE → f ≠ 0xD →
     let xv (j : Nat) : Fx := if e.tag = 1 then (f32 (elt 32 (a.row false r) j)).add (f32 (elt 32 (a.row true r) j))
       else if e.kind then .ofInt (toSigned 32 (elt 32 (a.row false r) j)) else f32 (elt 32 (a.row false r) j)
     let out := genOut e.gen.isWax e.gen.key (e.gen.ctr + BitVec.ofNat 128 e.done)
     let rnd (j : Nat) : Rnd := if o.rm = 0 then .rne else if o.rm = 1 then .rtz
       else if o.rm = 2 then .sto 4 (out / 2 ^ (4 * j) % 16) else .sto 3 (out / 2 ^ (3 * j) % 8)
     let y (j : Nat) : Nat := r32 (xv j)
     let g (i first : Nat) : Nat := if e.fuseInit then first else elt 32 (b.row false r) i
     let mn := r32 ((f32 (g 0 0xFF800000)).maxNum (f32 (r32 (((List.range 32).map (fun j => f32 (y j))).foldl Fx.maxNum .nan))))
     let none_ : Prop := mn = 0xFF800000
     let p (j : Nat) : Nat := if mn = 0xFF800000 then 0 else exp32 (fsub32 (y j) mn)
     let alpha : Nat := if mn = 0xFF800000 then 0x3F800000 else exp32 (fsub32 (g 0 0xFF800000) mn)
     let w (j : Nat) : Fx := if o.fuse = 1 then f32 (p j) else xv j
     let addr := rowAddr e.base e.stride e.done
     let width := fmtBits f
     let sc := mxScale f ((List.range 32).map (fun j => f32 (r32 (w j))))
     ∃ m accs, MakesTile (.drainAdd t) t s { x with shelf := m, accs := accs
                                                    queue := if e.done = o.nrow.toNat then rest else { e with done := e.done + 1 } :: rest } ∧
       let after (k : BitVec 3) : Acc := sget {} k.toNat accs
       let c := after o.acc2
       (∀ k, k ≠ o.acc → (o.fuse = 0 ∨ k ≠ o.acc2) → after k = x.acc k) ∧
       (o.clr = false → (o.fuse = 0 ∨ o.acc2 ≠ o.acc) → after o.acc = a) ∧
       (o.clr = true → (after o.acc).row true r = 0 ∧ (∀ q, q ≠ r → ∀ h, (after o.acc).row h q = a.row h q) ∧
         ∀ j < 32, elt 32 ((after o.acc).row false r) j = if e.tag = 4 then (if e.kind then 0x7FFFFFFF else 0x7F800000)
           else if e.tag = 5 then (if e.kind then 0x80000000 else 0xFF800000) else if e.tag = 6 then 0xFF800000 else 0) ∧
       (∀ d, d < addr ∨ addr + (4 * width + if isMx f then 1 else 0) ≤ d → readByte m d = readByte x.shelf d) ∧
       (f ≤ 7 → ∀ j < 32, readLE m (addr + j * (width / 8)) (width / 8) = toElem f (rnd j) (w j)) ∧
       (isMx f = true → readLE m (addr + 4 * width) 1 = sc ∧
         readLE m addr (4 * width) = packNat width ((List.range 32).map (fun j => toMx f sc (rnd j) (w j)))) ∧
       (f = 0xE → ∀ j < 32, (readLE m addr 4).testBit j = !(w j).isZero) ∧
       (o.fuse ≠ 0 → c.tag = b.tag ∧ c.kind = b.kind ∧ (∀ q, q ≠ r → ∀ h, c.row h q = b.row h q) ∧
         ∀ i < 32, 3 ≤ i → elt 32 (c.row false r) i = elt 32 (b.row false r) i) ∧
       (o.fuse = 1 → c.row true r = b.row true r ∧ elt 32 (c.row false r) 0 = mn ∧ elt 32 (c.row false r) 2 = alpha ∧
         (none_ → elt 32 (c.row false r) 1 = g 1 0) ∧
         (¬ none_ → ∃ level : Nat → Nat → Nat, (∀ j, level 0 j = r32 (f32 (p j))) ∧
           (∀ k j, level (k + 1) j = fadd32 (level k (2 * j)) (level k (2 * j + 1))) ∧
           elt 32 (c.row false r) 1 = fadd32 (fmul32 (g 1 0) alpha) (level 5 0))) ∧
       (o.fuse = 2 → ∃ level : Nat → Nat → Fx, (∀ j, level 0 j = (f32 (y j)).mul (f32 (y j))) ∧
         (∀ k j, level (k + 1) j = f32 (r32 ((level k (2 * j)).add (level k (2 * j + 1))))) ∧
         let q := r32 (level 5 0)
         let old := g 0 0
         let tot := fadd32 old q
         let z := fsub32 tot old
         let err := fadd32 (fsub32 old (fsub32 tot z)) (fsub32 q z)
         elt 32 (c.row false r) 0 = tot ∧ (∀ i < 32, 0 < i → elt 32 (c.row false r) i = elt 32 (b.row false r) i) ∧
         (∀ i < 32, 0 < i → elt 32 (c.row true r) i = elt 32 (b.row true r) i) ∧
         elt 32 (c.row true r) 0 = if bits tot 30 23 = 255 then 0
           else fadd32 (if e.fuseInit then 0 else elt 32 (b.row true r) 0) err) ∧
       (o.fuse = 3 → c.row true r = b.row true r ∧ ∃ level : Nat → Nat → Welf, (∀ j, level 0 j = ⟨1, y j, 0⟩) ∧
         (∀ k j, level (k + 1) j = welfMerge (level k (2 * j)) (level k (2 * j + 1))) ∧
         (⟨elt 32 (c.row false r) 0, elt 32 (c.row false r) 1, elt 32 (c.row false r) 2⟩ : Welf) =
           welfMerge ⟨g 0 0, g 1 0, g 2 0⟩ (level 5 0))) ∧
  (∀ (t : TileId) (s : State) (e : MxaEntry) (rest : List MxaEntry) (E : Int),
     let x := s.tile t
     let o := e.o
     let a := x.acc o.acc
     let r := o.row.toNat + e.done
     x.working = true → x.queue = e :: rest → e.started = true → e.op = .adrain → e.done % 2 = 0 → e.done < o.nrow.toNat → r < 31 →
     (∀ d ∈ x.fifo, d.acc ≠ o.acc ∧ d.acc ≠ o.acc2) → x.bad = [] → x.rings = [] → e.ue = none → o.rm.toNat ≤ 3 →
     o.fuse = 0 → o.fmt = 0xD → o.clr = false →
     let xv (i j : Nat) : Fx := if e.tag = 1 then (f32 (elt 32 (a.row false (r + i)) j)).add (f32 (elt 32 (a.row true (r + i)) j))
       else if e.kind then .ofInt (toSigned 32 (elt 32 (a.row false (r + i)) j)) else f32 (elt 32 (a.row false (r + i)) j)
     let v (n : Nat) : Fx := xv (n / 32) (n % 32)
     let out (i : Nat) := genOut e.gen.isWax e.gen.key (e.gen.ctr + BitVec.ofNat 128 (e.done + i))
     let rnd (n : Nat) : Rnd := if o.rm = 0 then .rne else if o.rm = 1 then .rtz
       else if o.rm = 2 then .sto 4 (out (n / 32) / 2 ^ (4 * (n % 32)) % 16) else .sto 3 (out (n / 32) / 2 ^ (3 * (n % 32)) % 8)
     let el (E : Int) (n : Nat) : Option Int := ((v n).scale (15 - E)).toIntR (rnd n)
     let addr := rowAddr e.base e.stride (e.done / 2)
     ∃ m, MakesTile (.drainAdd t) t s { x with shelf := m
                                               queue := if e.done + 2 = o.nrow.toNat + 1 then rest else { e with done := e.done + 2 } :: rest } ∧
       (∀ d, d < addr ∨ addr + 130 ≤ d → readByte m d = readByte x.shelf d) ∧
       let blk (F : Int) (f : Nat → Int) : Prop :=
         (∀ n < 64, readLE m (addr + 2 * n) 2 = ofSigned 16 (f n)) ∧ readLE m (addr + 128) 2 = ofSigned 8 F
       ((∀ n < 64, (v n).isZero = true) → blk (-128) (fun _ => 0)) ∧
       ((∀ n < 64, (∃ b k q, v n = .fin b k q) ∧ ((v n).abs).lt (.fin false 1 E) = true) → -127 < E → E < 127 →
         (∃ n < 64, ((v n).abs).lt (.fin false 1 (E - 1)) = false) →
         ((∀ n < 64, ∃ i, el E n = some i ∧ i.natAbs ≤ 32767) → blk E (fun n => (el E n).getD 0)) ∧
         ((∃ n < 64, ∃ i, el E n = some i ∧ 32767 < i.natAbs) → blk (E + 1) (fun n => (el (E + 1) n).getD 0))))

/-! ### Fetching, scrubbing and the scheduled exchange -/

/-- IBUF_MISS_FILL and SCRUB_READ (R103, R216, R217, R221–R224). A miss fills the line of the next bundle and no other. A scrub read
of an idle tile moves on one word and counts a pass after the last; it corrects a correctable word, poisons, counts, names and
reports a newly uncorrectable one, and leaves a poisoned one; in PILOT the scrubber does not run.

The banks of the shelves (R210, R212–R214, Table 7-1): each 32-byte unit has exactly one bank and row, no two units share one, and
every row of the 16 banks of Shelf N and the 24 of Shelf F, numbered 16 to 39, holds a unit. -/
def Obligations.FetchAndScrub : Prop :=
  (∀ (t : TileId) (s : State),
     let x := s.tile t
     let b := x.pc.toNat / 256
     let w := x.scrubPtr.toNat
     let moved : Tile := { x with scrubPtr := x.scrubPtr + 1, scrubPass := if w = 0x7FFFF then x.scrubPass + 1 else x.scrubPass }
     (x.canIssue = true → x.pc.toNat < 0x100000 → x.bad = [] → (sget {} (b % 64) x.ibuf).block ≠ some b →
       ∃ m, MakesTile (.ibufMissFill t) t s { x with ibuf := m } ∧ sget {} (b % 64) m = { block := some b, bad := [] } ∧
         ∀ j, j ≠ b % 64 → sget {} j m = sget {} j x.ibuf) ∧
     ((x.st = 0 ∨ x.st = 3 ∨ x.st = 5 ∨ x.st = 6 ∨ x.st = 7 ∨ x.st ≠ 8 ∧ s.scrubs t = true) → s.dim.banked = false →
       s.pins.snuffed = false →
       (x.bad = [] → MakesTile (.scrubRead t 0) t s moved ∧
         MakesTile (.scrubRead t 1) t s { moved with shelfCe := satInc x.shelfCe } ∧
         ∃ n, exec (.scrubRead t 2) s = .next n ∧
           n.tile t = { moved with
             bad := [(w, 3)], shelfUe := satInc x.shelfUe, shelfUeAddr := BitVec.ofNat 32 (0x80000000 + 8 * w) } ∧
           OnlyTile t { s with events := n.events } n ∧ ∃ e ∈ n.events, e.source = 2 ∧ e.code = 1 ∧ e.unit = t.toNat) ∧
       (x.mark w = 3 → (∀ v, v / 4 = w / 4 → x.mark v = 0 ∨ x.mark v = 3) → ∀ met, MakesTile (.scrubRead t met) t s moved)) ∧
     (x.st = 8 → ∀ met, exec (.scrubRead t met) s = .next s)) ∧
  (let row (n r : Nat) : Prop := (n < 16 ∧ r < 2048) ∨ (16 ≤ n ∧ n < 40 ∧ r < 4096)
   (∀ a < 0x400000, row (bankOf a).1 (bankOf a).2 ∧ ((bankOf a).1 < 16 ↔ a < 0x100000)) ∧
   (∀ a < 0x400000, ∀ b < 0x400000, bankOf a = bankOf b ↔ a / 32 = b / 32) ∧
   ∀ n r, row n r → ∃ a < 0x400000, bankOf a = (n, r))

/-- RUN_RECORD_FETCH (R237–R240, R573): the router fetches the next record of an input queue or output table. A record that keeps
the rules comes into force; any other raises EXCH_ORDER with the record's place in TILE_FAULT_ADDR. That TILE_FAULT_PC holds PC − 16 (assumption
38) and that the sum of SLOTS is checked at the fetch (assumption 39) are the model's reading.

FLIT_ARRIVAL (R238, R243, R245, R246): the k-th flit at an input must carry ORD = k mod 256 and lie within SLOTS, else EXCH_ORDER
tells how it failed, with TILE_FAULT_PC at PC − 16 (assumption 38); a copy of a flit in order enters the queue of each output that its record names and that has room, and the flit
leaves once every copy has entered. -/
def Obligations.RecordsAndArrivals : Prop :=
  (∀ (t : TileId) (s : State),
     let x := s.tile t
     let r := s.run x.task
     let pc := x.pc.toNat - 16
     (x.st = 3 ∨ x.st = 4) → x.bad = [] →
     (∀ (q : Fin 11), q.val < 5 →
       let i := x.exch.inp q
       let w := BitVec.ofNat 64 (readLE x.shelf i.next 8)
       let port := if q.val = 4 then 5 else q.val
       let ok : Prop := rCount w ≤ i.slots - i.k ∧ (i.recs = 1 → rCount w = i.slots - i.k) ∧ w.toNat % 2 ^ 42 = 0 ∧
         w.getLsbD (42 + port) = false ∧ (∃ p < 6, w.getLsbD (42 + p) = true) ∧
         ∀ p < 6, w.getLsbD (42 + p) = true → portExists r t p = true
       i.recs ≠ 0 → i.cur = none → landsOn x i.next 8 = false →
       (ok → MakesTile (.runRecordFetch t q) t s
         (x.setIn q { i with cur := some ⟨w, i.next, 0⟩, recs := i.recs - 1, next := i.next + 8 })) ∧
       (¬ ok → exec (.runRecordFetch t q) s = .next
         ((s.setTile t x).raise t exchORDER false pc (2 ^ 9 + i.next / 8 % 2 ^ 19 * 2 ^ 12 + port)))) ∧
     (∀ (q : Fin 11), 5 ≤ q.val →
       let p := x.exch.out (q.val - 5)
       let w := BitVec.ofNat 64 (readLE x.shelf p.next 8)
       let ok : Prop := rCount w ≤ p.slots - p.j ∧ (p.recs = 1 → rCount w = p.slots - p.j) ∧ outRecOk r t (q.val - 5) w = true
       p.recs ≠ 0 → p.cur = none → landsOn x p.next 8 = false →
       (ok → MakesTile (.runRecordFetch t q) t s
         (x.setOut (q.val - 5) { p with cur := some ⟨w, p.next, 0⟩, recs := p.recs - 1, next := p.next + 8 })) ∧
       (¬ ok → exec (.runRecordFetch t q) s = .next
         ((s.setTile t x).raise t exchORDER false pc (2 ^ 9 + p.next / 8 % 2 ^ 19 * 2 ^ 12 + (8 + (q.val - 5))))))) ∧
  (∀ (t : TileId) (q : Fin 5) (s : State) (f : Flit) (rest : List Flit),
     let x := s.tile t
     let i := x.exch.inp q
     let port := if q.val = 4 then 5 else q.val
     let faults (addr : Nat) : Prop :=
       exec (.flitArrival t q) s = .next (s.raise t exchORDER false (x.pc.toNat - 16) addr)
     (x.st = 4 ∨ x.st = 5) → i.fifo = f :: rest →
     (i.slots ≤ i.k → faults (f.ord.toNat * 2 ^ 24 + 2 ^ 8 + port)) ∧
     (i.k < i.slots → f.ord.toNat ≠ i.k % 256 → faults (f.ord.toNat * 2 ^ 24 + i.k % 256 * 2 ^ 16 + port)) ∧
     (i.k < i.slots → f.ord.toNat = i.k % 256 →
       (i.cur = none → exec (.flitArrival t q) s = .next s) ∧
       ∀ r, i.cur = some r →
         let routed (p : Nat) : Prop := p < 6 ∧ r.word.getLsbD (42 + p) = true
         let enters (p : Nat) : Prop := routed p ∧ p ∉ i.copied ∧ (x.exch.queue port p).length < 4
         ∃ ins qs, MakesTile (.flitArrival t q) t s { x with exch := { x.exch with ins := ins, qs := qs } } ∧
           ((∀ p, routed p → p ∈ i.copied ∨ enters p) →
             sget {} q ins = { i with fifo := rest, k := i.k + 1, cur := r.step 1, copied := [] }) ∧
           ((∃ p, routed p ∧ p ∉ i.copied ∧ ¬ enters p) →
             ∃ c, sget {} q ins = { i with copied := c } ∧ ∀ p, p ∈ c ↔ p ∈ i.copied ∨ enters p) ∧
           (∀ j, j ≠ q.val → sget {} j ins = x.exch.inp j) ∧
           (∀ p, enters p → sget [] (8 * port + p) qs = x.exch.queue port p ++ [f]) ∧
           ∀ k, (∀ p, enters p → k ≠ 8 * port + p) → sget [] k qs = sget [] k x.exch.qs))

/-- SLOT_SEND on a link (R233, R239, R243, R252): slot j leaves with ORD = j mod 256 for the input queue of the neighbouring router,
from an input queue with its AUX, or, raw and unsealed, from the shelf with AUX zero; a G16 tile source beyond the shelves raises TILE_ADDR.
TILE_FAULT_PC holds PC − 16 for a fault of the exchange (assumption 38).

SLOT_SEND of sealed and G16 tile sources and through an ATTACH output (R233, R331, R507, R508, R574): the last flit of a sealed unit
of 64 slots carries in AUX the CRC-32C of the unit's bytes, and every other raw flit carries zero; a G16 block of 130 bytes takes two
slots, its header in AUX of the first. The flit reaches the neighbouring router's queue or the base die.

IN_NETWORK_ADD of two inputs onto a link, unsealed (R207, R251): the sum of an FP32 or BF16 flit is exact and rounded once per
element, partial first; it takes one flit of each input and sends one.

IN_NETWORK_ADD of a sealed record at the last slot of a unit (R66, R251, R508, R511): both operands' seals are checked; the sum
leaves with a fresh seal, the CRC-32C of the sums of the unit; an operand that fails is counted, raises SEAL_FAULT with its port and
sends nothing, and the first operand's fault comes first. A G16 sum leaves as two flits. -/
def Obligations.SendsAndAdds : Prop :=
  (∀ (t u : TileId) (o : Fin 6) (s : State) (rec : RunRec),
     let x := s.tile t
     let r := s.run x.task
     let p := x.exch.out o
     let w := rec.word
     let far := (o.val + 2) % 4
     let sends (y : Tile) (f : Flit) : Prop :=
       ∃ n, exec (.slotSend t o) s = .next n ∧ n.tile t = y ∧
         n.tile u = (s.tile u).setIn far
           { (s.tile u).exch.inp far with fifo := ((s.tile u).exch.inp far).fifo ++ [f] } ∧
         { n with tiles := s.tiles } = s ∧ ∀ z, z ≠ t → z ≠ u → n.tile z = s.tile z
     x.st = 4 → o.val < 4 → neighbour r t o = some u → u ≠ t → p.cur = some rec → rOp w = 0 →
     (linkCap t o ≤ ((s.tile u).exch.inp far).fifo.length → exec (.slotSend t o) s = .next s) ∧
     (((s.tile u).exch.inp far).fifo.length < linkCap t o →
       (∀ f rest, rSrc w ≠ 4 → x.exch.queue (rSrc w) o = f :: rest →
         sends ((x.dropQ (rSrc w) o 1).setOut o { p with j := p.j + 1, cur := rec.step 1 })
           { f with ord := BitVec.ofNat 8 p.j }) ∧
       (rSrc w ≠ 4 → x.exch.queue (rSrc w) o = [] → exec (.slotSend t o) s = .next s) ∧
       (rSrc w = 4 → rG16 w = false → rSealed w = false → p.stash = none →
         let a := 64 * (((rAddr w : Int) + rec.i * rStride w) % 65536).toNat
         x.bad = [] → landsOn x a 64 = false →
         ∃ c, sends (x.setOut o { p with j := p.j + 1, cur := rec.step 1, crc := c })
           ⟨bytesFlit (readBytes x.shelf a 64), BitVec.ofNat 8 p.j, 0⟩) ∧
       (rSrc w = 4 → rG16 w = true → p.stash = none → addrIn w rec.i = false →
         exec (.slotSend t o) s = .next (s.raise t tileADDR false (x.pc.toNat - 16) (faultAddr (flitAddr w rec.i)))))) ∧
  (∀ (t : TileId) (o : Fin 6) (s : State) (rec : RunRec) (pre : List Byte),
     let x := s.tile t
     let r := s.run x.task
     let p := x.exch.out o
     let w := rec.word
     let far := (o.val + 2) % 4
     let ends : Prop := rec.i % 64 = 63
     let sends (y : Tile) (f : Flit) : Prop :=
       ∃ n, exec (.slotSend t o) s = .next n ∧ n.tile t = y ∧ { n with tiles := s.tiles, arms := s.arms } = s ∧
         (∀ u, neighbour r t o = some u → o.val < 4 → n.tile u = (s.tile u).setIn far
           { (s.tile u).exch.inp far with fifo := ((s.tile u).exch.inp far).fifo ++ [f] }) ∧
         (o.val = 5 → n.armLink t = { s.armLink t with fromRouter := (s.armLink t).fromRouter ++ [f] }) ∧
         (∀ z, z ≠ t → (o.val < 4 → neighbour r t o ≠ some z) → n.tile z = s.tile z) ∧
         ∀ z, (z ≠ t ∨ o.val < 4) → n.armLink z = s.armLink z
     x.st = 4 → o.val ≠ 4 → (∀ u, neighbour r t o = some u → u ≠ t) → outRoom s r t o = true → p.cur = some rec → rOp w = 0 →
     (rec.i % 64 = 0 → pre = []) → (rec.i % 64 ≠ 0 → p.crc = crcStep 0xFFFFFFFF pre) →
     (o.val = 5 → rSrc w ≠ 4 → (x.exch.queue (rSrc w) o = [] → exec (.slotSend t o) s = .next s) ∧
       ∀ f rest, x.exch.queue (rSrc w) o = f :: rest →
         sends ((x.dropQ (rSrc w) o 1).setOut o { p with j := p.j + 1, cur := rec.step 1 }) { f with ord := BitVec.ofNat 8 p.j }) ∧
     (rSrc w = 4 → rG16 w = false → p.stash = none → x.bad = [] →
       let a := 64 * (((rAddr w : Int) + rec.i * rStride w) % 65536).toNat
       let b := readBytes x.shelf a 64
       landsOn x a 64 = false →
       (rSealed w = true → sends (x.setOut o { p with j := p.j + 1, cur := rec.step 1, crc := crcStep 0xFFFFFFFF (pre ++ b) })
         ⟨bytesFlit b, BitVec.ofNat 8 p.j, if ends then crc32c (pre ++ b) else 0⟩) ∧
       (rSealed w = false → ∃ c, sends (x.setOut o { p with j := p.j + 1, cur := rec.step 1, crc := c })
         ⟨bytesFlit b, BitVec.ofNat 8 p.j, 0⟩)) ∧
     (rSrc w = 4 → rG16 w = true →
       (∀ a : Nat, (a : Int) = 64 * rAddr w + 130 * (rec.i / 2 : Nat) * rStride w → a + 130 ≤ 0x400000 → p.stash = none → x.bad = [] →
         landsOn x a 130 = false →
         let b := readBytes x.shelf a 130
         sends (x.setOut o { p with
             j := p.j + 1, cur := rec.step 1, crc := crcStep 0xFFFFFFFF (pre ++ b)
             stash := some ⟨bytesFlit ((b.drop 64).take 64), 0, 0⟩ })
           ⟨bytesFlit (b.take 64), BitVec.ofNat 8 p.j, BitVec.ofNat 32 (leNat (b.drop 128))⟩) ∧
       ∀ f, p.stash = some f → sends (x.setOut o { p with j := p.j + 1, cur := rec.step 1, stash := none })
         { f with ord := BitVec.ofNat 8 p.j, aux := if rSealed w = true ∧ ends then crcEnd p.crc else f.aux })) ∧
  (∀ (t u : TileId) (o : Fin 6) (s : State) (rec : RunRec) (f g : Flit) (fs gs : List Flit),
     let x := s.tile t
     let r := s.run x.task
     let p := x.exch.out o
     let w := rec.word
     let far := (o.val + 2) % 4
     x.st = 4 → o.val < 4 → neighbour r t o = some u → u ≠ t → p.cur = some rec → p.stash = none → x.bad = [] →
     (rOp w = 1 ∨ rOp w = 2) → rG16 w = false → rSealed w = false → rSrc2 w ≠ 4 → rSrc w ≠ rSrc2 w →
     rSrc w < 8 → rSrc2 w < 8 →
     ((s.tile u).exch.inp far).fifo.length < linkCap t o →
     x.exch.queue (rSrc w) o = f :: fs → x.exch.queue (rSrc2 w) o = g :: gs →
     ∃ d a b c n, exec (.inNetworkAdd t o) s = .next n ∧
       n.tile t = ((x.dropQ (rSrc w) o 1).dropQ (rSrc2 w) o 1).setOut o
         { p with j := p.j + 1, cur := rec.step 1, crcA := a, crcB := b, crc := c } ∧
       (n.tile u).exch.inp far = { (s.tile u).exch.inp far with
         fifo := ((s.tile u).exch.inp far).fifo ++ [⟨d, BitVec.ofNat 8 p.j, 0⟩] } ∧
       { n with tiles := s.tiles } = s ∧ (∀ z, z ≠ t → z ≠ u → n.tile z = s.tile z) ∧
       let e (k : Nat) (v : BitVec 512) (i : Nat) : Nat := v.toNat / 2 ^ (k * i) % 2 ^ k
       (rOp w = 1 → ∀ i < 16, e 32 d i = roundF fp32 .rne ((decodeF fp32 (e 32 f.data i)).add (decodeF fp32 (e 32 g.data i)))) ∧
       (rOp w = 2 → ∀ i < 32, e 16 d i = roundF bf16 .rne ((decodeF bf16 (e 16 f.data i)).add (decodeF bf16 (e 16 g.data i))))) ∧
  (∀ (t u : TileId) (o : Fin 6) (s : State) (rec : RunRec) (f g : Flit) (fs gs : List Flit) (preA preB preS : List Byte),
     let x := s.tile t
     let r := s.run x.task
     let p := x.exch.out o
     let w := rec.word
     let far := (o.val + 2) % 4
     let counted : State := { s with integ := { s.integ with sealErr := satInc s.integ.sealErr } }
     let adds (k : Nat) (y : OutPort) (h : Flit) : Prop := ∃ n, exec (.inNetworkAdd t o) s = .next n ∧
       n.tile t = ((x.dropQ (rSrc w) o k).dropQ (rSrc2 w) o k).setOut o y ∧
       (n.tile u).exch.inp far = { (s.tile u).exch.inp far with fifo := ((s.tile u).exch.inp far).fifo ++ [h] } ∧
       { n with tiles := s.tiles } = s ∧ ∀ z, z ≠ t → z ≠ u → n.tile z = s.tile z
     x.st = 4 → o.val < 4 → neighbour r t o = some u → u ≠ t → p.cur = some rec → p.stash = none → x.bad = [] →
     rSrc2 w ≠ 4 → rSrc w ≠ rSrc2 w → rSrc w < 8 → rSrc2 w < 8 →
     ((s.tile u).exch.inp far).fifo.length < linkCap t o →
     x.exch.queue (rSrc w) o = f :: fs → x.exch.queue (rSrc2 w) o = g :: gs →
     (rOp w = 1 → rG16 w = false → rSealed w = true → rec.i % 64 = 63 → p.crcA = crcStep 0xFFFFFFFF preA → p.crcB = crcStep 0xFFFFFFFF preB →
       p.crc = crcStep 0xFFFFFFFF preS →
       let a := preA ++ flitBytes f.data
       let b := preB ++ flitBytes g.data
       let sum := (List.range 16).flatMap (fun i => leBytes 4 (roundF fp32 .rne
         ((decodeF fp32 (f.data.toNat / 2 ^ (32 * i) % 2 ^ 32)).add (decodeF fp32 (g.data.toNat / 2 ^ (32 * i) % 2 ^ 32)))))
       (crc32c a = f.aux → crc32c b = g.aux → ∃ ca cb c,
         adds 1 { p with j := p.j + 1, cur := rec.step 1, crcA := ca, crcB := cb, crc := c }
           ⟨bytesFlit sum, BitVec.ofNat 8 p.j, crc32c (preS ++ sum)⟩) ∧
       (crc32c a ≠ f.aux → crc32c b = g.aux → exec (.inNetworkAdd t o) s =
         .next (counted.raise t sealFAULT false (x.pc.toNat - 16) (2 ^ 30 + rSrc w))) ∧
       (crc32c a = f.aux → crc32c b ≠ g.aux → exec (.inNetworkAdd t o) s =
         .next (counted.raise t sealFAULT false (x.pc.toNat - 16) (2 ^ 30 + rSrc2 w))) ∧
       (crc32c a ≠ f.aux → crc32c b ≠ g.aux → x.fTaken = false → r.halted = false → ∃ n, exec (.inNetworkAdd t o) s = .next n ∧
         n.integ.sealErr = satInc (satInc s.integ.sealErr) ∧ (n.tile t).st = 7 ∧ (n.tile t).fCode.toNat = sealFAULT ∧
         (n.tile t).fMulti = true ∧ (n.tile t).fAddr.toNat = 2 ^ 30 + rSrc w)) ∧
     (rOp w = 3 → rG16 w = true → rSealed w = false →
       (fs = [] ∨ gs = [] → exec (.inNetworkAdd t o) s = .next s) ∧
       ∀ f1 g1 ft gt, fs = f1 :: ft → gs = g1 :: gt →
         let block (a b : Flit) : List Byte := flitBytes a.data ++ flitBytes b.data ++ leBytes 2 (a.aux.toNat % 2 ^ 16)
         let sum := ((g16From (block f f1)).add (g16From (block g g1))).bytes130
         ∃ ca cb c, adds 2 { p with
             j := p.j + 1, cur := rec.step 1, crcA := ca, crcB := cb, crc := c
             stash := some ⟨bytesFlit ((sum.drop 64).take 64), 0, 0⟩ }
           ⟨bytesFlit (sum.take 64), BitVec.ofNat 8 p.j, BitVec.ofNat 32 (leNat (sum.drop 128))⟩))

/-- FLIT_LANDING of an unsealed record (R249): a flit outside every landing zone raises EXCH_ZONE and writes nothing; inside one it
writes its 64 bytes at its address and no other byte. TILE_FAULT_PC holds PC − 16 (assumption 38).

FLIT_LANDING of sealed and G16 records (R249, R507, R508, R511, R574): the flits of a sealed unit wait, and at the last of its 64
slots the whole unit is written where the CRC-32C of its bytes is that flit's AUX; where it is not, nothing of it is written, the
mismatch is counted and SEAL_FAULT names the address of the unit's first flit. A G16 block lands from two flits, 130 bytes at its
address.

IN_NETWORK_ADD in place (R199, R207, R250–R252, R356): an add at the TILE output whose joining operand is the tile reads the bytes
at its address, adds the arriving flit or G16 block and writes the sum back; no other byte changes. -/
def Obligations.FlitLandings : Prop :=
  (∀ (t : TileId) (s : State) (rec : RunRec) (f : Flit) (rest : List Flit),
     let x := s.tile t
     let p := x.exch.out 4
     let w := rec.word
     let a := 64 * (((rAddr w : Int) + rec.i * rStride w) % 65536).toNat
     let inside : Prop := ∃ z ∈ x.exch.zones, 64 * z.1 ≤ a ∧ a + 64 ≤ 64 * (z.1 + z.2 + 1)
     x.st = 4 → p.cur = some rec → rOp w = 0 → rG16 w = false → rSealed w = false → x.bad = [] →
     x.exch.queue (rSrc w) 4 = f :: rest →
     (¬ inside → exec (.flitLanding t) s = .next (s.raise t exchZONE false (x.pc.toNat - 16) a)) ∧
     (inside → ∃ m c, MakesTile (.flitLanding t) t s
       (let y := (x.dropQ (rSrc w) 4 1).setOut 4 { p with j := p.j + 1, cur := rec.step 1, crcA := c }
        { y with shelf := m, exch := { y.exch with landed := x.exch.landed ++ [(a, 64)] } }) ∧
       (∀ i < 64, readByte m (a + i) = BitVec.ofNat 8 (f.data.toNat / 2 ^ (8 * i))) ∧
       (∀ i, i < a ∨ a + 64 ≤ i → readByte m i = readByte x.shelf i))) ∧
  (∀ (t : TileId) (s : State) (rec : RunRec) (f : Flit) (rest : List Flit) (pre : List Byte),
     let x := s.tile t
     let p := x.exch.out 4
     let w := rec.word
     let a := 64 * (((rAddr w : Int) + rec.i * rStride w) % 65536).toNat
     let b := flitBytes f.data
     let inside (a n : Nat) : Prop := ∃ z ∈ x.exch.zones, 64 * z.1 ≤ a ∧ a + n ≤ 64 * (z.1 + z.2 + 1)
     let first := rec.i - 63
     x.st = 4 → p.cur = some rec → rOp w = 0 → x.bad = [] → x.exch.queue (rSrc w) 4 = f :: rest →
     (rec.i % 64 = 0 → pre = []) → (rec.i % 64 ≠ 0 → p.crcA = crcStep 0xFFFFFFFF pre) →
     (rG16 w = false → rSealed w = true → inside a 64 →
       let y := x.dropQ (rSrc w) 4 1
       let later : OutPort := { p with j := p.j + 1, cur := rec.step 1, crcA := crcStep 0xFFFFFFFF (pre ++ b) }
       let all := p.land ++ at' a b
       (rec.i % 64 ≠ 63 → MakesTile (.flitLanding t) t s (y.setOut 4 { later with land := all })) ∧
       (rec.i % 64 = 63 → crc32c (pre ++ b) = f.aux → (all.map (·.1)).Nodup →
         ∃ m l, MakesTile (.flitLanding t) t s
           (let z := y.setOut 4 { later with land := [] }
            { z with shelf := m, exch := { z.exch with landed := l } }) ∧
           (∀ c ∈ all, readByte m c.1 = c.2) ∧ (∀ i, i ∉ all.map (·.1) → readByte m i = readByte x.shelf i) ∧
           (∀ q ∈ x.exch.landed, q ∈ l) ∧ ∀ c ∈ all, ∃ q ∈ l, q.1 ≤ c.1 ∧ c.1 < q.1 + q.2) ∧
       (rec.i % 64 = 63 → crc32c (pre ++ b) ≠ f.aux →
         exec (.flitLanding t) s = .next (State.raise
           { s.setTile t y with integ := { s.integ with sealErr := satInc s.integ.sealErr } } t sealFAULT false (x.pc.toNat - 16)
           (64 * (((rAddr w : Int) + first * rStride w) % 65536)).toNat))) ∧
     (rG16 w = true → rSealed w = false →
       (rest = [] → exec (.flitLanding t) s = .next s) ∧
       ∀ g more, rest = g :: more → ∀ a : Nat, (a : Int) = 64 * rAddr w + 130 * (rec.i / 2 : Nat) * rStride w → a + 130 ≤ 0x400000 →
         (¬ inside a 130 → exec (.flitLanding t) s = .next (s.raise t exchZONE false (x.pc.toNat - 16) a)) ∧
         (inside a 130 → ∃ m c, MakesTile (.flitLanding t) t s
           (let y := (x.dropQ (rSrc w) 4 2).setOut 4 { p with j := p.j + 2, cur := rec.step 2, crcA := c }
            { y with shelf := m, exch := { y.exch with landed := x.exch.landed ++ [(a, 130)] } }) ∧
           (∀ i < 64, readByte m (a + i) = BitVec.ofNat 8 (f.data.toNat / 2 ^ (8 * i)) ∧
             readByte m (a + 64 + i) = BitVec.ofNat 8 (g.data.toNat / 2 ^ (8 * i))) ∧
           readLE m (a + 128) 2 = f.aux.toNat % 2 ^ 16 ∧
           ∀ i, i < a ∨ a + 130 ≤ i → readByte m i = readByte x.shelf i))) ∧
  (∀ (t : TileId) (s : State) (rec : RunRec) (f : Flit) (fs : List Flit),
     let x := s.tile t
     let p := x.exch.out 4
     let w := rec.word
     let zone (a n : Nat) : Prop := ∃ z ∈ x.exch.zones, 64 * z.1 ≤ a ∧ a + n ≤ 64 * (z.1 + z.2 + 1)
     let makes (a n k : Nat) (m : Sparse Byte) : Prop := ∃ c d e, MakesTile (.inNetworkAdd t 4) t s
       (let y := (x.dropQ (rSrc w) 4 k).setOut 4 { p with j := p.j + k, cur := rec.step k, crcA := c, crcB := d, crc := e }
        { y with shelf := m, exch := { y.exch with landed := x.exch.landed ++ [(a, n)] } })
     x.st = 4 → p.cur = some rec → p.stash = none → p.land = [] → x.bad = [] → rSealed w = false → rSrc2 w = 4 →
     x.exch.queue (rSrc w) 4 = f :: fs →
     (rOp w = 1 ∨ rOp w = 2 → rG16 w = false →
       let a := 64 * (((rAddr w : Int) + rec.i * rStride w) % 65536).toNat
       (¬ zone a 64 → exec (.inNetworkAdd t 4) s = .next ((s.setTile t x).raise t exchZONE false (x.pc.toNat - 16) a)) ∧
       (zone a 64 → ∃ m, makes a 64 1 m ∧
         (rOp w = 1 → ∀ i < 16, readLE m (a + 4 * i) 4 =
           roundF fp32 .rne ((decodeF fp32 (f.data.toNat / 2 ^ (32 * i) % 2 ^ 32)).add (decodeF fp32 (readLE x.shelf (a + 4 * i) 4)))) ∧
         (rOp w = 2 → ∀ i < 32, readLE m (a + 2 * i) 2 =
           roundF bf16 .rne ((decodeF bf16 (f.data.toNat / 2 ^ (16 * i) % 2 ^ 16)).add (decodeF bf16 (readLE x.shelf (a + 2 * i) 2)))) ∧
         ∀ i, i < a ∨ a + 64 ≤ i → readByte m i = readByte x.shelf i)) ∧
     (rOp w = 3 → rG16 w = true → ∀ g more, fs = g :: more →
       ∀ a : Nat, (a : Int) = 64 * rAddr w + 130 * (rec.i / 2 : Nat) * rStride w → a + 130 ≤ 0x400000 → zone a 130 →
         ∃ m, makes a 130 2 m ∧
           readBytes m a 130 = ((g16From (flitBytes f.data ++ flitBytes g.data ++ leBytes 2 (f.aux.toNat % 2 ^ 16))).add
             (g16From (readBytes x.shelf a 130))).bytes130 ∧
           ∀ i, i < a ∨ a + 130 ≤ i → readByte m i = readByte x.shelf i))

/-- EXCHANGE_PHASE_END and the two barriers of a superstep (R15, R49, R65, R233, R247, R279): a tile whose records and landings are
complete arrives; a barrier releases its footprint when every tile of it has arrived, and not before. The compute release opens the
exchange with ordinals from 0; the exchange release advances the superstep serial, puts the staged settings in force and starts the
next compute phase with the tile's registers, accumulators and shelves as they were; MODE_ACT and SYNC_WDOG_ACT follow once no tile
of the partition has an older setting in force, which is the model's reading (assumption 33). -/
def Obligations.SuperstepBarriers : Prop :=
  ∀ (s : State),
    (∀ t, (s.tile t).st = 4 → (s.armLink t).fromRouter = [] →
      (∀ c < 5, ((s.tile t).exch.inp c).recs = 0 ∧ ((s.tile t).exch.inp c).cur = none) →
      (∀ o < 6, ((s.tile t).exch.out o).recs = 0 ∧ ((s.tile t).exch.out o).cur = none) →
      MakesTile (.exchangePhaseEnd t) t s { s.tile t with st := 5, since := s.beats t, feeders := [] }) ∧
    ∀ k, sget false k s.live = true → (s.run k).tiles.Nodup →
      let r := s.run k
      let part := s.part r.part
      ((∀ t ∈ r.tiles, (s.tile t).st = 3 ∧ (s.tile t).task = k) →
        ∃ n, exec (.computeBarrierRelease k) s = .next n ∧ { n with tiles := s.tiles, arms := s.arms } = s ∧
          (∀ t ∈ r.tiles, n.tile t = { s.tile t with st := 4, since := s.beats t } ∧
            n.armLink t = { s.armLink t with kIn := 0, kOut := 0 }) ∧
          ∀ t, t ∉ r.tiles → n.tile t = s.tile t ∧ n.armLink t = s.armLink t) ∧
      ((∃ t ∈ r.tiles, (s.tile t).st ≠ 3) → exec (.computeBarrierRelease k) s = .next s) ∧
      ((∀ t ∈ r.tiles, (s.tile t).st = 5 ∧ (s.tile t).task = k ∧ (s.tile t).sent = [] ∧
          ∀ c < 5, ((s.tile t).exch.inp c).fifo = []) →
        (∃ t ∈ r.tiles, (s.tile t).exch.last = false) → (∀ c ∈ s.rebind.saving, c.1 ≠ k) →
        ∃ n, exec (.exchangeBarrierRelease k) s = .next n ∧
          (∀ t ∈ r.tiles, ∃ m, n.tile t = { s.tile t with
            st := 2, since := s.beats t, sstep := (s.tile t).sstep + 1, brkAct := (s.tile t).brk
            modeHeld := none, wdogHeld := none, ibuf := m, rowNum := 0, wordNum := 0
            exch := { issued := (s.tile t).exch.last, last := (s.tile t).exch.last } }) ∧
          n.part r.part = { part with wdogAct := (n.part r.part).wdogAct, modeAct := (n.part r.part).modeAct } ∧
          (r.tiles ≠ [] →
            (n.part r.part).modeAct = (if n.holdsOld r.part Tile.modeHeld then part.modeAct else part.mode) ∧
            (n.part r.part).wdogAct = (if n.holdsOld r.part Tile.wdogHeld then part.wdogAct else part.wdog)) ∧
          (∀ t, t ∉ r.tiles → n.tile t = s.tile t) ∧ n.objs = s.objs ∧ n.hbm = s.hbm) ∧
      ((∃ t ∈ r.tiles, (s.tile t).st ≠ 5) → exec (.exchangeBarrierRelease k) s = .next s)

/-! ### Sync objects, messages and rings -/

/-- SYNC_INCREMENT, WAIT_RELEASE and WATCHDOG_EXPIRY (R117, R268, R269, R272, R278, R280, R281). An increment adds its amount modulo
2^32 and evaluates the WAITs that hold there; the increment of a SIG waits for its tile's older drains, sends and narrow writes, and
for its tile's earlier increments to the same node, and any other for its unit's earlier ones. A WAIT that has met its target is released. A tile that has waited for the watchdog's limit raises a timeout, unless the limit is 0 or
a tile of its footprint is in HELD (which increments are one source's is assumption 66); its limit is the setting that its tile still holds (assumption 33), and BAR_TIMEOUT names PC − 16 (assumption 38).

MESSAGE_ARRIVAL, SEND_RESULT and MSG_STUCK (R120, R121, R290–R292, R294, R296, Table 9-3). A closed ring and a full one refuse the
message and count it; a ring with room takes header and data words at TAIL, or at word 0 behind a PAD, and advances TAIL; no other
byte of the shelf changes. A result reaches the sender in order; a NAK run of 2^20 raises the event. -/
def Obligations.SyncAndMessageEvents : Prop :=
  (∀ (s : State),
     (∀ n i, s.incs[n]? = some i → (s.obj i.obj).bound = false →
       let v := s.obj i.obj
       let new := v.value + i.amt
       let behind (q : SigSrc) : Prop := let x := s.tile q.tile
         (∃ e ∈ x.queue, e.op = .adrain ∧ e.num < q.drains) ∨ (∃ p ∈ x.sends, (q.seq - p.seq).toNat < 2 ^ 31) ∨
           (∃ d ∈ x.copies, (d.op = 5 ∨ d.op = 6) ∧ d.num < q.copies ∧ d.answered < d.len) ∨
           incAhead (s.incs.take n) q.tile i.obj = true
       let unitBehind : Prop := ∃ j ∈ s.incs.take n, j.src = none ∧ j.unit = i.unit ∧ nodeOf j.obj = nodeOf i.obj
       ((∀ q, i.src = some q → ¬ behind q) → (i.src = none → ¬ unitBehind) → ∃ m, exec (.syncIncrement n) s = .next m ∧ m.incs = s.incs.eraseIdx n ∧
         m.obj i.obj = { v with
           value := new, waits := v.waits.map (fun w => { w with met := w.met || decide ((new - w.target).toNat < 2 ^ 31) }) } ∧
         (∀ j, j ≠ i.obj → m.obj j = s.obj j) ∧ { m with incs := s.incs, objs := s.objs } = s) ∧
       (∀ q, i.src = some q → behind q → exec (.syncIncrement n) s = .next s) ∧
       (i.src = none → unitBehind → exec (.syncIncrement n) s = .next s)) ∧
     (∀ t h, (s.tile t).hold = some h → h.isWait = true →
       let v := s.obj h.obj
       ((∃ w ∈ v.waits, w.tile = t ∧ w.met = true) →
         ∃ m, exec (.waitRelease t) s = .next m ∧ m.tile t = { s.tile t with hold := some { h with released := true } } ∧
           m.obj h.obj = { v with waits := v.waits.filter (fun w => w.tile ≠ t) } ∧
           OnlyTile t { s with objs := m.objs } m ∧ ∀ j, j ≠ h.obj → m.obj j = s.obj j) ∧
       ((∀ w ∈ v.waits, w.tile = t → w.met = false) → exec (.waitRelease t) s = .next s)) ∧
     ∀ t,
       let x := s.tile t
       let limit := (x.wdogHeld.getD (s.part (s.run x.task).part).wdog).toNat % 2 ^ 24 * 65536
       (limit = 0 ∨ (∃ u ∈ (s.run x.task).tiles, (s.tile u).st = 6) → exec (.watchdogExpiry t) s = .next s) ∧
       (limit ≠ 0 → (∀ u ∈ (s.run x.task).tiles, (s.tile u).st ≠ 6) →
         (∀ h, x.st = 2 → x.hold = some h → h.released = false →
           exec (.watchdogExpiry t) s = .next (if s.beats t < h.since + limit then s
             else s.raiseOlder t (if h.isWait then waitTIMEOUT else barTIMEOUT) false x.pc.toNat h.vid.toNat)) ∧
         (x.st = 3 ∨ x.st = 4 ∨ x.st = 5 →
           exec (.watchdogExpiry t) s = .next (if s.beats t < x.since + limit then s
             else s.raise t barTIMEOUT false (x.pc.toNat - 16) (if x.st = 3 then 0x10000 else 0x10001))))) ∧
  (∀ (s : State),
     (∀ n m, s.msgs[n]? = some m → (∀ q ∈ s.msgs.take n, ¬(q.src = m.src ∧ q.dst = m.dst)) →
       let x := s.tile m.dst
       let r := x.ring m.ring.toNat
       let words := 8 * r.size64.toNat
       let h := r.head.toNat
       let tl := r.tail.toNat
       let l := m.words.length + 1
       let base := 64 * r.base64.toNat
       let header := 2 ^ 62 + m.words.length * 2 ^ 59 + m.srcRel.toNat * 2 ^ 37 + m.seq.toNat % 2 ^ 16 * 2 ^ 16
       let becomes (code : BitVec 2) (y : Tile) : Prop :=
         ∃ z, exec (.messageArrival n) s = .next z ∧ { z with tiles := s.tiles } = { s with msgs := s.msgs.eraseIdx n } ∧
           ∀ u, z.tile u = (let w := if u = m.dst then y else s.tile u
             if u = m.src then { w with
               sends := w.sends.map (fun p => if p.seq = m.seq then { p with outcome := some code } else p) } else w)
       let refused (code : BitVec 2) : Prop := becomes code (x.setRing m.ring.toNat { r with nak := satInc r.nak })
       let placed (pos tail : Nat) (pad : Bool) : Prop := ∃ sh bd,
         becomes 0 { x with shelf := sh, bad := bd, rings :=
           (x.setRing m.ring.toNat { r with
             tail := BitVec.ofNat 13 tail, rx := r.rx + 1
             starts := r.starts ++ (if pad then [tl] else []) ++ [pos]
             unread := r.unread ++ (if pad then [tl] else []) ++ (List.range l).map (pos + ·) }).rings } ∧
         readLE sh (base + 8 * pos) 8 = header ∧
         (∀ i w, m.words[i]? = some w → readLE sh (base + 8 * (pos + 1 + i)) 8 = w.toNat) ∧
         (pad = true → readLE sh (base + 8 * tl) 8 = 2 ^ 63) ∧
         ∀ a, (a < base + 8 * pos ∨ base + 8 * (pos + l) ≤ a) →
           (pad = true → a < base + 8 * tl ∨ base + 8 * tl + 8 ≤ a) → readByte sh a = readByte x.shelf a
       m.words.length ≤ 4 →
       (r.isOpen = false → refused 2) ∧
       (r.isOpen = true →
         (tl < h → l ≤ h - tl - 1 → placed tl (tl + l) false) ∧
         (tl < h → h - tl - 1 < l → refused 1) ∧
         (h ≤ tl → tl < words → (l < words - tl ∨ l = words - tl ∧ h ≠ 0) → placed tl ((tl + l) % words) false) ∧
         (h ≤ tl → tl < words → words - tl ≤ l → (l = words - tl → h = 0) → l + 1 ≤ h → placed 0 l true) ∧
         (h ≤ tl → tl < words → words - tl ≤ l → (l = words - tl → h = 0) → h < l + 1 → refused 1))) ∧
     (∀ t n p out, (s.tile t).sends[n]? = some p → p.outcome = some out → (s.tile t).nakCount < 2 ^ 20 →
       (∀ q ∈ (s.tile t).sends.take n, q.dest ≠ p.dest) →
       let x := s.tile t
       let age := (x.msgTx - p.seq).toNat
       let same : Bool := x.nakDest = p.dest && x.nakRing = p.ring
       MakesTile (.sendResult t n) t s { x with
         sends := x.sends.eraseIdx n
         msgResult := if p.seq = x.msgTx then (if out = 0 then 2 else 3) else x.msgResult
         msgReason := if p.seq = x.msgTx then out else x.msgReason
         msgTxNak := if out = 0 then x.msgTxNak else satInc x.msgTxNak
         hist := if out ≠ 0 ∧ age < 32 then x.hist ||| (1#32 <<< age) else x.hist
         nakDest := if out ≠ 0 then p.dest else x.nakDest
         nakRing := if out ≠ 0 then p.ring else x.nakRing
         nakCount := if out = 0 then (if same then 0 else x.nakCount) else if same then x.nakCount + 1 else 1 }) ∧
     ∀ t,
       let x := s.tile t
       (x.nakCount < 2 ^ 20 → exec (.msgStuck t) s = .next s) ∧
       (2 ^ 20 ≤ x.nakCount → ∃ z, exec (.msgStuck t) s = .next z ∧ OnlyTile t
           { s with parts := z.parts, flags := z.flags, events := z.events } z ∧
         z.tile t = { x with nakCount := 0 } ∧
         (∀ p, s.blockPart (blockOf t) = some p → z.part p = { s.part p with msgStuck := satInc (s.part p).msgStuck } ∧
           sget 0 (32 * p) z.flags = sget 0 (32 * p) s.flags ||| 4) ∧
         (∀ p, s.blockPart (blockOf t) ≠ some p → z.part p = s.part p) ∧
         ∃ e ∈ z.events, e.source = 7 ∧ e.code = 1 ∧ e.unit = t.toNat))

/-- SYNC_SIG_WRITE, SYNC_VALUE_READ and SYNC_XLATE_WRITE (R268, R273, R284, R286, R287): through a mapped ID a write sends INC to the
object and a read returns VALUE, or CNT and ARRIVED; an unmapped ID counts in SYNC_ERR. A translation entry is written at once by
the physical function or the Lamplighter; one outside the partition's share, or with LAMP below the root, is ignored and counted,
and a virtual function's write is ignored.

RING_OPEN, RING_CLOSE, HEAD_WRITE, BREAK_HOLD and BREAK_RELEASE by the host (R52, R65, R68–R70, R293): a ring opens empty where
its range is free and in Shelf N; HEAD moves over whole records that the program has read, and any other move leaves the ring's
contents undefined; the ring registers take host writes only in UNASSIGNED, LOADING and HELD; BREAK is pending until
the boundary, takes effect at once in a tile that no task holds, and its release makes a HELD tile arrive at its barrier, a superstep boundary at
which the partition's staged settings come into force in it. A virtual
function does not reach the tile window (R62), and the Lamplighter's ring writes are limited as the host's (assumption 57). -/
def Obligations.HostToTiles : Prop :=
  (∀ (who : Who) (s : State), s.reaches who = true → s.start.recovery = false →
     let p := s.partSel who
     let counted : State := s.setPart p { s.part p with syncErr := satInc (s.part p).syncErr }
     (∀ k v, s.selObj who = some k →
       exec (.syncSigWrite who v) s = .next { s with incs := s.incs ++ [{ obj := k, amt := v.zeroExtend 32, src := none, unit := .host }] } ∧
       exec (.syncValueRead who false) s = .next { s with reply := [(s.obj k).value.zeroExtend 64] } ∧
       exec (.syncValueRead who true) s = .next { s with
         reply := [((s.obj k).cnt ++ (s.obj k).arrived : BitVec 32).zeroExtend 64] }) ∧
     (s.selObj who = none → ∀ v bar, exec (.syncSigWrite who v) s = .next counted ∧
       exec (.syncValueRead who bar) s = .next { counted with reply := [0] }) ∧
     ∀ (n : BitVec 12) (v : BitVec 32),
       let o := v.toNat % 2 ^ 15
       let q := s.part p
       let inside : Prop := if o < 16384 then q.blocks.getLsbD (o / 512) = true
         else q.syncBase.toNat ≤ o ∧ o < q.syncBase.toNat + q.syncCount.toNat
       ((∃ f, who = .vf f) → exec (.syncXlateWrite who n v) s = .next s) ∧
       ((who = .pf ∨ who = .lmc) →
         (v.getLsbD 31 = false ∨ inside ∧ (v.getLsbD 30 = true → 28672 ≤ o) →
           ∃ m, exec (.syncXlateWrite who n v) s = .next m ∧ m.xlateEntry p n.toNat = v &&& 0xC0007FFF ∧
             (∀ a b, b < 4096 → (a ≠ p ∨ b ≠ n.toNat) → m.xlateEntry a b = s.xlateEntry a b) ∧ { m with xlate := s.xlate } = s) ∧
         (v.getLsbD 31 = true → (¬ inside ∨ v.getLsbD 30 = true ∧ o < 28672) →
           exec (.syncXlateWrite who n v) s = .next counted))) ∧
  ((∀ (p : BitVec 5) (t : TileId) (n : BitVec 3) (s : State) (size : BitVec 11) (base : BitVec 14) (hd : BitVec 13),
     exec (.ringOpen (.vf p) t n size base) s = .next s ∧ exec (.ringClose (.vf p) t n) s = .next s ∧
     exec (.headWrite (.vf p) t n hd) s = .next s) ∧
   ∀ (who : Who) (t : TileId) (n : BitVec 3) (s : State), s.reaches who = true → (∀ p, who ≠ .vf p) → s.start.recovery = false →
     let x := s.tile t
     let r := x.ring n.toNat
     let mayWrite : Prop := x.st = 0 ∨ x.st = 1 ∨ x.st = 6
     (∀ size base,
       let free : Prop := 1 ≤ size.toNat ∧ size.toNat ≤ 1024 ∧ 64 * (base.toNat + size.toNat) ≤ 0x100000 ∧
         ∀ k < 8, k ≠ n.toNat → (x.ring k).isOpen = true → base.toNat + size.toNat ≤ (x.ring k).base64.toNat ∨
           (x.ring k).base64.toNat + (x.ring k).size64.toNat ≤ base.toNat
       (¬ mayWrite → exec (.ringOpen who t n size base) s = .next s) ∧
       (mayWrite → r.isOpen = false → free → MakesTile (.ringOpen who t n size base) t s (x.setRing n.toNat
         { r with isOpen := true, size64 := size, base64 := base, head := 0, tail := 0, starts := [], unread := [] })) ∧
       (mayWrite → (r.isOpen = true ∨ ¬ free) → MakesTile (.ringOpen who t n size base) t s x)) ∧
     (mayWrite → r.isOpen = true →
       MakesTile (.ringClose who t n) t s (x.setRing n.toNat { r with isOpen := false })) ∧
     (∀ hd : BitVec 13,
       (8 * r.size64.toNat ≤ hd.toNat → exec (.headWrite who t n hd) s = .next s) ∧
       (¬ mayWrite → exec (.headWrite who t n hd) s = .next s) ∧
       (let ahead (i : Nat) : Nat := (i + 8 * r.size64.toNat - r.head.toNat) % (8 * r.size64.toNat)
        let passes : Prop := hd = r.head ∨ ahead hd.toNat ≤ ahead r.tail.toNat ∧ r.starts.head? = some r.head.toNat ∧
          (hd = r.tail ∨ hd.toNat ∈ r.starts) ∧ ∀ i ∈ r.unread, ahead hd.toNat ≤ ahead i
        mayWrite → hd.toNat < 8 * r.size64.toNat →
         (passes → ∃ l w, MakesTile (.headWrite who t n hd) t s (x.setRing n.toNat { r with head := hd, starts := l, unread := w })) ∧
         (¬ passes → ∃ m, exec (.headWrite who t n hd) s = .next m ∧ OnlyTile t { s with undef := s.undef + 1 } m ∧
           m.tile t = { x.setRing n.toNat { r with head := hd, starts := [], unread := [] } with
             shelf := (m.tile t).shelf, bad := (m.tile t).bad } ∧
           ∀ b, (b < 64 * r.base64.toNat ∨ 64 * (r.base64.toNat + r.size64.toNat) ≤ b) →
             readByte (m.tile t).shelf b = readByte x.shelf b))) ∧
     (x.st = 0 → MakesTile (.breakHold t) t s { x with brk := true, brkAct := true } ∧
       MakesTile (.breakRelease t) t s { x with brk := false, brkAct := false }) ∧
     (x.st ≠ 0 → MakesTile (.breakHold t) t s { x with brk := true }) ∧
     (x.st ≠ 0 → x.st ≠ 6 → MakesTile (.breakRelease t) t s { x with brk := false }) ∧
     let q := (s.run x.task).part
     let part := s.part q
     let out : Tile := { x with brk := false, brkAct := false, modeHeld := none, wdogHeld := none, st := 3, since := s.beats t }
     (x.st = 6 → t ∈ (s.run x.task).tiles → (∃ u ∈ (s.run x.task).tiles, u ≠ t ∧ (s.tile u).st = 6) →
       ∃ m, exec (.breakRelease t) s = .next m ∧ m.tile t = out ∧ (∀ u, u ≠ t → m.tile u = s.tile u) ∧
         (part.mode = part.modeAct → part.wdog = part.wdogAct → { m with tiles := s.tiles } = s)) ∧
     (x.st = 6 → Sparse.wf {} s.tiles → ∀ m, exec (.breakRelease t) s = .next m →
       m.part q = { part with
         modeAct := if m.holdsOld q Tile.modeHeld then part.modeAct else part.mode
         wdogAct := if m.holdsOld q Tile.wdogHeld then part.wdogAct else part.wdog } ∧ ∀ j, j ≠ q → m.part j = s.part j) ∧
     (x.st = 6 → t ∈ (s.run x.task).tiles → (∀ u ∈ (s.run x.task).tiles, u ≠ t → (s.tile u).st ≠ 6) →
       ∃ m, exec (.breakRelease t) s = .next m ∧ (part.mode = part.modeAct → part.wdog = part.wdogAct → { m with tiles := s.tiles } = s) ∧
         (∀ u, u ∉ (s.run x.task).tiles → m.tile u = s.tile u) ∧
         ∀ u ∈ (s.run x.task).tiles, m.tile u =
           (let y := if u = t then out else s.tile u
            { y with since := s.beats u, hold := y.hold.map (fun h => { h with since := s.beats u }) })))

/-! ### BAR0, fault records and windows -/

/-- REGISTER_WRITE, CLEAR_ON_READ and PAIR_HI_WRITE (R3, R11, R472, R488, R489, R492, R493, R495). A write of fewer than 4 bytes is
ignored and counted; a read of 1 or 2 bytes returns the bytes requested, and one of 8 reads two registers. A SAT register clears when
it is read. Each accessor holds its own selection. A read-only register ignores writes. The low half of a pair is held until the
high half applies both. A new MODE is in force at once in every tile that no task holds, and in no other, so that MODE_ACT shows the old one until every tile has the
new (assumption 33); a reserved
DET or INTEG leaves that mode's setting (R542). A decoder that has
committed keeps its program; which programs commit is the model's choice (assumption 22).

SET_ALIAS, CLEAR_ALIAS, TOGGLE_ALIAS and FLAG_BIT_WRITE (R496–R500). An alias write forms v OR m, v AND NOT m or v XOR m with the
value v that a read returns, and has the effect of a plain write of it; the read within it clears nothing. A bit write changes its
own flag and no other; reserved bits of FLAG_EVENT stay.

Registers that do not respond (R541, R549, R568): in recovery every register outside GLOBAL, RESET/START and the LMC MAILBOX, and in
Snuffed or without power every one, takes no write of the commands that name no accessor (assumption 16). -/
def Obligations.Registers : Prop :=
  (∀ (who : Who) (s : State), s.reaches who = true → s.start.recovery = false →
     let a := accessor who
     let p := s.partSel who
     (∀ off, ∃ n, exec (.registerWrite (.short who off)) s = .next n ∧ { n with badAccess := s.badAccess } = s ∧
       sget 0 a n.badAccess = satInc (sget 0 a s.badAccess) ∧ ∀ j, j ≠ a → sget 0 j n.badAccess = sget 0 j s.badAccess) ∧
     (∃ n, exec (.clearOnRead (.bar0 who 0x30 4)) s = .next n ∧ { n with badAccess := s.badAccess, reply := s.reply } = s ∧
       n.reply = [(sget 0 a s.badAccess).zeroExtend 64] ∧ sget 0 a n.badAccess = 0 ∧
       ∀ j, j ≠ a → sget 0 j n.badAccess = sget 0 j s.badAccess) ∧
     (exec (.clearOnRead (.bar0 who 0 4)) s = .next { s with reply := [0x1F6C0401] }) ∧
     (exec (.clearOnRead (.bar0 who 2 2)) s = .next { s with reply := [0x1F6C] }) ∧
     (exec (.clearOnRead (.bar0 who 1 1)) s = .next { s with reply := [0x04] }) ∧
     (exec (.clearOnRead (.bar0 who 4 4)) s = .next { s with reply := [if s.steppingB0 then 0xB0 else 0xA1] }) ∧
     (exec (.clearOnRead (.bar0 who 0 8)) s = .next { s with reply := [if s.steppingB0 then 0xB01F6C0401 else 0xA11F6C0401] }) ∧
     (exec (.clearOnRead (.bar0 who 8 4)) s = .next { s with reply := [if s.steppingB0 then 0x42 else 0x41] }) ∧
     (∀ v, exec (.registerWrite (.bar0 who 0 v)) s = .next s) ∧
     (∀ (off : BitVec 26) (v : BitVec 64), off.toNat < 2 ^ 26 - 4 → ∃ m n,
       exec (.registerWrite (.bar0 who off (v.truncate 32))) s = .next m ∧
       exec (.registerWrite (.bar0 who (off + 4) (v.extractLsb' 32 32))) m = .next n ∧
       exec (.registerWrite (.wide who off v)) s = .next n) ∧
     ((∀ q, who ≠ .vf q) → exec (.clearOnRead (.bar0 who 0x10014 4)) s =
         .next { s with start := { s.start with cause := 0 }, reply := [s.start.cause.zeroExtend 64] } ∧
       ∀ v : BitVec 32, ∃ n, exec (.registerWrite (.bar0 who 0x20 v)) s = .next n ∧ { n with sels := s.sels } = s ∧
         n.partSel who = v.toNat % 32 ∧ ∀ w, w ≠ who → n.partSel w = s.partSel w) ∧
     (∀ q, who = .vf q → (∀ v, exec (.registerWrite (.bar0 who 0x20 v)) s = .next s) ∧
       exec (.clearOnRead (.bar0 who 0x10014 4)) s = .next { s with reply := [0] }) ∧
     (∀ lo hi,
       ((s.sb p).enable = true → exec (.registerWrite (.bar0 who 0x40010 lo)) s = .next s ∧
         exec (.pairHiWrite who 0x40014 hi) s = .next s) ∧
       ((s.sb p).enable = false → ∃ m n r, exec (.registerWrite (.bar0 who 0x40010 lo)) s = .next m ∧
         { m with los := s.los } = s ∧
         exec (.clearOnRead (.bar0 who 0x40010 4)) m = .next r ∧ r.reply = [lo.zeroExtend 64] ∧
         exec (.pairHiWrite who 0x40014 hi) m = .next n ∧
         n.sb p = { s.sb p with subqBase := hi ++ lo } ∧ (∀ q, q ≠ p → n.part q = s.part q) ∧
         { n with los := s.los, parts := s.parts } = s)) ∧
     ((∀ q, who ≠ .vf q) → ∀ (q : BitVec 5) (v : BitVec 32),
       let keeps (i : Nat) : Prop := bits v.toNat 31 30 = 3 ∧ 30 ≤ i ∨ bits v.toNat 28 27 = 3 ∧ (i = 27 ∨ i = 28)
       ∃ n mode, exec (.registerWrite (.bar0 who (BitVec.ofNat 26 (0x30800 + 8 * q.toNat)) v)) s = .next n ∧
         (∀ i < 32, (keeps i → mode.getLsbD i = (s.part q.toNat).mode.getLsbD i) ∧
           (¬ keeps i → mode.getLsbD i = (decide (24 ≤ i) && v.getLsbD i))) ∧
         (n.part q.toNat).mode = mode ∧
         (n.part q.toNat).modeAct = (if n.holdsOld q.toNat Tile.modeHeld then (s.part q.toNat).modeAct else mode) ∧
         (∀ j, j ≠ q.toNat → n.part j = s.part j) ∧
         ∀ t, s.blockPart (blockOf t) = some q.toNat →
           ((s.tile t).assigned = true → (s.run (s.tile t).task).part = q.toNat → n.tileMode t = s.tileMode t) ∧
           ((s.tile t).assigned = false → (s.tile t).modeHeld = none → n.tileMode t = mode)) ∧
     (∀ (i : BitVec 2) (d : Hdm), s.ioUp 0 = true →
       let c := s.cxl.slot i.toNat
       let makes (r : RegWrite) (y : HdmSlot) : Prop := ∃ n, exec (.registerWrite r) s = .next n ∧
         { n with cxl := { n.cxl with hdm := s.cxl.hdm } } = s ∧ n.cxl.slot i.toNat = y ∧
         ∀ j, j ≠ i.toNat → n.cxl.slot j = s.cxl.slot j
       (c.on = true → exec (.registerWrite (.hdm i d)) s = .next s ∧ exec (.registerWrite (.hdmCommit i true)) s = .next s) ∧
       (c.on = false → makes (.hdm i d) { prog := d, on := false, failed := false } ∧
         makes (.hdmCommit i true) { c with on := s.cxl.mayCommit i.toNat, failed := !s.cxl.mayCommit i.toNat }) ∧
       ((c.on = true ∧ (c.prog.lock = true ∨ ∃ j < 4, i.toNat < j ∧ (s.cxl.slot j).on = true)) →
         exec (.registerWrite (.hdmCommit i false)) s = .next s) ∧
       (¬(c.on = true ∧ (c.prog.lock = true ∨ ∃ j < 4, i.toNat < j ∧ (s.cxl.slot j).on = true)) →
         makes (.hdmCommit i false) { c with on := false, failed := false })) ∧
     ∀ fn on, (s.ioUp fn.toNat = false → exec (.registerWrite (.ats fn on)) s = .next s) ∧
      (s.ioUp fn.toNat = true → ∃ n, exec (.registerWrite (.ats fn on)) s = .next n ∧
       { n with cxl := { n.cxl with ats := s.cxl.ats, atc := s.cxl.atc } } = s ∧ sget false fn.toNat n.cxl.ats = on ∧
       (∀ j, j ≠ fn.toNat → sget false j n.cxl.ats = sget false j s.cxl.ats) ∧
       n.cxl.atc = (if on then s.cxl.atc else s.cxl.atc.filter (fun e => e.1 ≠ fn.toNat)))) ∧
  (∀ (who : Who) (s : State), s.reaches who = true → s.start.recovery = false →
     (∀ (off : BitVec 20) (m : BitVec 32),
       let a : BitVec 26 := off.zeroExtend 26 &&& ~~~3#26
       ∃ r v, exec (.clearOnRead (.bar0 who a 4)) s = .next r ∧ r.reply = [BitVec.zeroExtend 64 v] ∧
         ∃ x y z,
           exec (.setAlias who off m) s = .next x ∧ exec (.registerWrite (.bar0 who a (v ||| m))) s = .next x ∧
           exec (.clearAlias who off m) s = .next y ∧ exec (.registerWrite (.bar0 who a (v &&& ~~~m))) s = .next y ∧
           exec (.toggleAlias who off m) s = .next z ∧ exec (.registerWrite (.bar0 who a (v ^^^ m))) s = .next z) ∧
     ((∀ q, who ≠ .vf q) → ∀ (w : BitVec 10) (m : BitVec 32),
       let off : BitVec 20 := BitVec.ofNat 20 (0xC0000 + 4 * w.toNat)
       let old := sget 0 w.toNat s.flags
       let kept : BitVec 32 := if w.toNat % 32 = 0 then 0x3F else 0xFFFFFFFF
       let makes (i : Instr) (v : BitVec 32) : Prop := ∃ n, exec i s = .next n ∧ { n with flags := s.flags } = s ∧
         sget 0 w.toNat n.flags = v &&& kept ∧ ∀ j, j ≠ w.toNat → sget 0 j n.flags = sget 0 j s.flags
       makes (.setAlias who off m) (old ||| m) ∧ makes (.clearAlias who off m) (old &&& ~~~m) ∧
         makes (.toggleAlias who off m) (old ^^^ m)) ∧
     ∀ (w : BitVec 10) (b : BitVec 5) (on : Bool), (∀ q, who = .vf q → w.toNat / 32 = q.toNat) →
       (w.toNat % 32 = 0 → 6 ≤ b.toNat → exec (.flagBitWrite who w b on) s = .next s) ∧
       (w.toNat % 32 ≠ 0 ∨ b.toNat < 6 → ∃ n, exec (.flagBitWrite who w b on) s = .next n ∧ { n with flags := s.flags } = s ∧
         (sget 0 w.toNat n.flags).getLsbD b.toNat = on ∧
         ∀ j i, (j ≠ w.toNat ∨ i ≠ b.toNat) → (sget 0 j n.flags).getLsbD i = (sget 0 j s.flags).getLsbD i)) ∧
  (∀ s : State,
     (s.responds = false ↔ s.start.recovery = true ∨ s.pins.power = false ∨ s.pins.snuffed = true) ∧
     (s.responds = false → ∀ (p : BitVec 5) (n : BitVec 12) (i : BitVec 20) (k : Fin 12) (q : BitVec 3) (c : BitVec 6) (j : BitVec 3)
       (kind : BitVec 2) (dst : BitVec 6) (v : BitVec 32) (a : BitVec 64),
       ∀ y ∈ ([.winOpen n, .winClose n, .elRdWrite a, .sbSubqTail p i, .rebindWait kind dst, .rebindPreempt kind dst, .rebindKill kind dst,
         .partSyncWrite p v, .partRecmaxWrite p v, .sbEnable p, .sbDisable p, .sbCplqHead p i, .hbmImapCommit p, .hbmStgWinWrite k v,
         .spliceClear q, .collDescriptorWrite q c j v, .collTeardown q c, .ueDoorbell k, .clrWsq k, .clrX k, .snap k, .ueAbort k,
         .ueResume k, .ueProgDataWrite k v, .wakeBudgetWrite v] : List Instr), exec y s = .next s))

/-- FAULT_RECORD, FR_POP, EL_RD_WRITE and CXL_DRAM_EVENT_RECORD (R519–R522). The record of an event whose 1 ms has passed (the moment is
the model's choice, assumption 41) joins the
physical function's mailbox of 64 and, when it names a partition, that function's mailbox of 16; a full mailbox counts it as lost;
the platform, as a message of the vendor's (its bytes and the record's header are assumption 7), and the log get it in every case; FLAG_EVENT.FAULT and vector 1 tell the partition. EL_RD above EL_SEQ is ignored
and below the oldest entry held it is raised. A stack's DRAM records are 100 ms apart. -/
def Obligations.FaultRecords : Prop :=
  ∀ (s : State),
    (∀ e r, s.events = e :: r → s.start.lmcWait = false → s.pins.power = true → s.pins.snuffed = false → e.tstamp + 1000000 < s.time.toNat →
      let made := cperRecord s.elSeq.toNat e
      ∃ n, exec .faultRecord s = .next n ∧
        { n with events := s.events, platform := s.platform, frPf := s.frPf, frVf := s.frVf, flags := s.flags, msix := s.msix,
                 el := s.el, elSeq := s.elSeq, elRd := s.elRd, elLost := s.elLost } = s ∧
        n.events = r ∧ n.platform = s.platform ++ [[0x7E, 0x1F, 0x6C] ++ made] ∧ made.drop 200 = vendorSection e ∧
        n.frPf = (if s.frPf.recs.length < 64 then { s.frPf with recs := s.frPf.recs ++ [made] }
          else { s.frPf with lost := satInc s.frPf.lost }) ∧
        n.msix = s.msix ++ (if s.frPf.recs.length < 64 then [(0, 2)] else []) ++ (if e.part < 32 then [(e.part + 1, 1)] else []) ∧
        (∀ j, sget ({} : FrBox) j n.frVf = (let b := sget ({} : FrBox) j s.frVf
          if j = e.part ∧ j < 32 then (if b.recs.length < 16 then { b with recs := b.recs ++ [made] }
            else { b with lost := satInc b.lost }) else b)) ∧
        (∀ j, sget 0 j n.flags = (if e.part < 32 ∧ j = 32 * e.part then sget 0 j s.flags ||| 2 else sget 0 j s.flags)) ∧
        n.elSeq = s.elSeq + 1 ∧
        (∀ j, j ≠ s.elSeq.toNat % 4096 → sget 0 j n.el = sget 0 j s.el) ∧
        (let w := (sget 0 (s.elSeq.toNat % 4096) n.el).toNat
         bits w 63 0 = s.time.toNat ∧ bits w 127 120 = 1 ∧ bits w 119 112 = e.code % 256 ∧ bits w 111 104 = e.part % 256 ∧
           bits w 103 96 = severityOf e.source e.code ∧ bits w 95 80 = e.source % 65536 ∧ bits w 79 64 = e.unit % 65536 ∧
           bits w 191 128 = e.addr % 2 ^ 64 ∧ bits w 255 224 = s.elSeq.toNat % 2 ^ 32 ∧
           bits w 223 192 = (crc32c (signedBytes e)).toNat) ∧
        ((s.elSeq - s.elRd).toNat = 4096 → n.elRd = s.elRd + 1 ∧ n.elLost = satInc s.elLost) ∧
        ((s.elSeq - s.elRd).toNat ≠ 4096 → n.elRd = s.elRd ∧ n.elLost = s.elLost)) ∧
    (s.events = [] ∨ s.start.lmcWait = true ∨ s.pins.power = false ∨ s.pins.snuffed = true → exec .faultRecord s = .next s) ∧
    (∀ e r, s.events = e :: r → s.time.toNat ≤ e.tstamp + 1000000 → exec .faultRecord s = .next s) ∧
    (∀ who, s.reaches who = true → s.start.recovery = false → (∀ q, who ≠ .vf q) →
      exec (.frPop who) s = .next { s with frPf := { s.frPf with recs := s.frPf.recs.drop 1 } }) ∧
    (∀ q, s.reaches (.vf q) = true → s.start.recovery = false → ∃ n, exec (.frPop (.vf q)) s = .next n ∧ { n with frVf := s.frVf } = s ∧
      ∀ j, sget ({} : FrBox) j n.frVf = (let b := sget ({} : FrBox) j s.frVf
        if j = q.toNat then { b with recs := b.recs.drop 1 } else b)) ∧
    (s.responds = true → ∀ v : BitVec 64, exec (.elRdWrite v) s = .next (
      if s.elSeq.toNat < v.toNat then s
      else if v.toNat + 4096 < s.elSeq.toNat then { s with elRd := s.elSeq - 4096 }
      else { s with elRd := v })) ∧
    ∀ k : Fin 12,
      let x := s.stack k.val
      (x.ceWindow = 0 ∨ (∃ t, x.ceAt = some t ∧ s.time.toNat < t + 100000000) → exec (.cxlDramEventRecord k) s = .next s) ∧
      (x.ceWindow ≠ 0 → (∀ t, x.ceAt = some t → t + 100000000 ≤ s.time.toNat) → ∃ n, exec (.cxlDramEventRecord k) s = .next n ∧
        OnlyStack k.val { s with cxlEvts := n.cxlEvts, msix := n.msix } n ∧ n.stack k.val = { x with ceWindow := 0, ceAt := some s.time.toNat } ∧
        n.cxlEvts = s.cxlEvts ++ [⟨true, 96 * 2 ^ 30 * k.val, x.ceWindow, s.time.toNat⟩] ∧ n.msix = s.msix ++ [(0, 1)])

/-- WIN_OPEN, WIN_CLOSE, WIN_CLOSE_COMPLETE and HOST_WINDOW_WRITE (R524, R526–R528). A CLOSED entry whose range lies in its
partition opens. CLOSE sends a drain marker on every ranked ring that the partition's ports reach; when every marker has returned the
entry is CLOSED with the next generation, and the closing is logged. A host write is applied, or discarded, counted and answered
with Completer Abort; it holds while its stack is being re-keyed (R351), and one that finds the module in Banked wakes it (R540). The
order in which STALE, PERM and RANGE are tested is assumption 41, the moment of the log entry assumption 23, and the exit from Banked
at the event assumption 27. -/
def Obligations.Windows : Prop :=
  ∀ (n : BitVec 12) (s : State),
    let w := s.win n.toNat
    let makes (i : Instr) (v : Win) : Prop := ∃ m, exec i s = .next m ∧ { m with wins := s.wins } = s ∧ m.win n.toNat = v ∧
      ∀ j, j ≠ n.toNat → m.win j = s.win j
    (s.responds = true →
    (w.state ≠ 0 ∨ s.psize w.part.toNat < w.base.toNat + 4096 * w.len.toNat → exec (.winOpen n) s = .next s) ∧
    (w.state = 0 → w.base.toNat + 4096 * w.len.toNat ≤ s.psize w.part.toNat → makes (.winOpen n) { w with state := 1 }) ∧
    (w.state ≠ 1 → exec (.winClose n) s = .next s) ∧
    (w.state = 1 → ∃ m, exec (.winClose n) s = .next m ∧ { m with wins := s.wins, ports := s.ports } = s ∧
      (m.win n.toNat).state = 2 ∧ (m.win n.toNat).gen = w.gen ∧ (∀ j, j ≠ n.toNat → m.win j = s.win j) ∧
      (∀ p, p ∈ (m.win n.toNat).drains ↔ p < 8 ∧ ringRanked (s.port p).ringAct = true ∧
        ((s.port p).owner = some w.part.toNat ∨ (s.port (pairPort p)).owner = some w.part.toNat)) ∧
      ((s.port 1).took = none → (∀ p, s.detoured p = false) → ∀ p, p < 8 →
        (p ∉ (m.win n.toNat).drains → m.port p = s.port p) ∧
        (p ∈ (m.win n.toNat).drains → ∃ f : Frame, m.port p = { s.port p with ownQ := (s.port p).ownQ ++ [f] } ∧
          f.type = 7 ∧ f.orig = f.dest ∧ f.dest.toNat = ringRank (s.port p).ringAct ∧ auxWin f = n.toNat ∧ auxGen f = w.gen ∧
          auxDrain f = true ∧ auxLen f = 0)))) ∧
    (w.state ≠ 2 ∨ w.drains ≠ [] → exec (.winCloseComplete n) s = .next s) ∧
    (w.state = 2 → w.drains = [] → (∀ u ∈ s.winUnits, u.win ≠ n.toNat) → ∃ m, exec (.winCloseComplete n) s = .next m ∧
      { m with wins := s.wins, el := s.el, elSeq := s.elSeq, elRd := s.elRd, elLost := s.elLost, elWait := s.elWait } = s ∧
      m.win n.toNat = { w with state := 0, gen := w.gen + 1, drains := [] } ∧ (∀ j, j ≠ n.toNat → m.win j = s.win j) ∧
      (s.start.lmcWait = false → m.elSeq = s.elSeq + 1 ∧ bits (sget 0 (s.elSeq.toNat % 4096) m.el).toNat 127 120 = 4)) ∧
    ∀ (k : BitVec 3) (o : BitVec 12) (bytes : List Byte), n.toNat = bits (sget 0 k.toNat s.winPortId).toNat 27 16 →
      bytes ≠ [] → o.toNat % 64 + bytes.length ≤ 64 →
      let gen : BitVec 16 := (sget 0 k.toNat s.winPortId).truncate 16
      let off := 4096 * (sget 0 k.toNat s.winPortBase).toNat + o.toNat
      let stale := satInc s.integ.winStale
      let busy : State := { s with dim := { s.dim with busyM := s.time.toNat } }
      let applies : Prop := w.state ≠ 0 ∧ w.gen = gen ∧ w.host = true ∧ off + bytes.length ≤ 4096 * w.len.toNat
      let refused := satInc s.integ.winRefused
      (s.dim.banked = true → exec (.hostWindowWrite k o bytes) s = .next busy.wakeModule) ∧
      (s.dim.banked = false →
      (w.state = 0 ∨ w.gen ≠ gen → exec (.hostWindowWrite k o bytes) s =
        .next { busy with integ := { s.integ with winStale := stale }, reply := [1] }) ∧
      (w.state ≠ 0 → w.gen = gen → (w.host = false ∨ 4096 * w.len.toNat < off + bytes.length) →
        exec (.hostWindowWrite k o bytes) s =
          .next { busy with integ := { s.integ with winRefused := refused }, reply := [1] }) ∧
      (applies → (∃ i j l, i < bytes.length ∧ s.hbmMap w.part.toNat (w.base.toNat + off + i) = some (j, l) ∧ j < 12 ∧
          (s.stack j).rekeying = true) → exec (.hostWindowWrite k o bytes) s = .next busy) ∧
      (applies → Undisturbed s →
        ∀ j l, j < 12 → (s.stack j).rekeying = false →
          (∀ i, i < bytes.length → s.hbmMap w.part.toNat (w.base.toNat + off + i) = some (j, l + i)) →
          ∃ m, exec (.hostWindowWrite k o bytes) s = .next m ∧ m.reply = [0] ∧ WritesBytes s m j l bytes ∧
            { m with hbm := s.hbm, bisnp := s.bisnp, events := s.events, cxlEvts := s.cxlEvts, msix := s.msix,
                     reply := s.reply } = busy))

/-! ### The Lampline -/

/-- IDLE_FRAME, RESERVED_FRAME, UNCORRECTABLE_FRAME and FRAME_SEND, and the order of frames (R397–R399, R407). A port that is up takes
a frame only when its SEQ is one past the last taken; otherwise, as for an uncorrectable frame, it asks for a replay. An idle frame
changes the link fields alone, and a reserved one counts. A port sends a frame of a replay first, else a new one with the next SEQ:
control frames, then, without HOLD, frames that a splice sends again, transit and own frames, else an idle frame; a skip port sends the frames of the spliced X port
that it stands in for first, and that X port sends idle frames until its splice is cleared (R428). -/
def Obligations.LinkLayer : Prop :=
  ∀ (p : BitVec 3) (f : Frame) (s : State),
    let x := s.port p.toNat
    let asks : State := s.setPort p.toNat
      { x with askReplay := true, replay := if x.askReplay then x.replay else satInc x.replay }
    (∀ i ∈ ([.idleFrame p f, .dataFrame p f, .reduceFrame p f, .syncFrame p f, .markFrame p f, .coastFrame p f, .lossFrame p f,
        .wwriteFrame p f, .wnakFrame p f, .reservedFrame p f] : List Instr),
      (x.link ≠ 2 → exec i s = .next s) ∧ (x.link = 2 → f.seq ≠ x.seqIn + 1 →
        (s.port (s.exitOf (inOf p.toNat f) f)).buffered < 512 → exec i s = .next asks)) ∧
    (512 ≤ (s.port (s.exitOf (inOf p.toNat f) f)).buffered →
      ∀ i ∈ ([.dataFrame p f, .reduceFrame p f, .syncFrame p f, .wwriteFrame p f, .wnakFrame p f] : List Instr), exec i s = .next s) ∧
    (x.link ≠ 2 → exec (.uncorrectableFrame p) s = .next s) ∧
    (x.link = 2 → exec (.uncorrectableFrame p) s = .next asks) ∧
    (Takes s p.toNat f → ∃ m, exec (.idleFrame p f) s = .next m ∧ OnlyPort p.toNat s m ∧
      m.port p.toNat = { x with
        seqIn := f.seq, askReplay := false, holding := f.hold
        sent := (m.port p.toNat).sent, resend := (m.port p.toNat).resend } ∧
      (∃ gone, x.sent = gone ++ (m.port p.toNat).sent ∧ ∀ g ∈ gone, (f.ack - g.seq).toNat < 2 ^ 15) ∧
      (∀ g, (m.port p.toNat).sent.head? = some g → 2 ^ 15 ≤ (f.ack - g.seq).toNat) ∧
      (f.rply = true → (m.port p.toNat).resend = (m.port p.toNat).sent)) ∧
    (Takes s p.toNat f →
      let y := (taken s p.toNat f).port p.toNat
      exec (.reservedFrame p f) s = .next ((taken s p.toNat f).setPort p.toNat { y with ttlDrop := satInc y.ttlDrop })) ∧
    (x.link = 2 → x.ctl = x.ctlAct → x.ctl.getLsbD 30 = false → x.coastOff = false →
      ∃ m, exec (.frameSend p) s = .next m ∧ { m with ports := s.ports } = s ∧
        let x' : Port := { x with lanes := s.lanesOf p.toNat }
        let y := m.port p.toNat
        let side := xOfSkip p.toNat
        let shares : Prop := 6 ≤ p.toNat ∧ (s.port side).spliced = true
        let only : Prop := ∀ q, q ≠ p.toNat → m.port q = s.port q
        (∀ g r, x.resend = g :: r → y = { x' with resend := r } ∧ only) ∧
        (x.resend = [] → 1024 ≤ x.sent.length → y = x' ∧ only) ∧
        (x.resend = [] → x.sent.length < 1024 →
          let sends (z : Port) (h : Frame) : Prop :=
            let g : Frame := { h with ack := x.seqIn, rply := x.askReplay, hold := s.holds p.toNat, seq := x.seqOut }
            y = { z with sent := x.sent ++ [g], seqOut := x.seqOut + 1
                         data := if g.type = 1 ∨ g.type = 2 then x.data + 1 else x.data }
          let own : Prop := only ∧
            if p.toNat < 2 ∧ x.spliced = true then sends x' {}
            else ∃ h z, Picks x' x.holding h z ∧ sends z (match h with | some g => g | none => {})
          (¬ shares → own) ∧
          (shares → ∃ h z, Picks (s.port side) x.holding h z ∧
            match h with
            | none => own
            | some g => sends x' { g with skip := true } ∧ m.port side = z ∧
                ∀ q, q ≠ p.toNat → q ≠ side → m.port q = s.port q)))

/-- The frames of other modules (R400, R403, R405, R411, R417, R421, R424). A lantern forwards DATA, REDUCE, SYNC, WWRITE and WNAK
frames, and so does a rank to which a REDUCE frame is not addressed; forwarding takes one hop, and a frame without a hop left is
discarded and counted. A marker is the revolution boundary of its ring at every module, a pending ring and, with a new generation, a
pending map take effect when the marker carries their generation, and rank 0 emits the next marker when its own comes back. A COAST
frame is forwarded once; that the first marker after it completes the coast-down is assumption 42.

Frames on a detour (R425; the way a detour takes, and how a module tells a detoured frame, are the model's choice, assumption 43).
On the X ring a detoured frame travels on to its position, one hop at a time; there the lantern that took the lost rank sends it out of
its own Y or Z port, and a frame of that rank that comes in by such a port goes out on the X ring. At the end of its detour the frame
does what the same frame without one does.

LOSS, WWRITE and WNAK frames at a module that they concern (R403, R423, R525, R526, R528, R529). A LOSS frame ends every collective
of the ring that has a step in progress with LINK_LOSS, and goes on round the ring to its reporter. A peer's write is applied, or
discarded, counted and answered with a WNAK that names the reason; the sealed frames of a 4 KiB unit gather, and the unit is written
when its CRC is right and discarded when it is not; a drain marker that comes back is noted. A write to a stack that is being re-keyed
holds (R351), and one that finds the module in Banked wakes it (R540). The order STALE, PERM, RANGE and the units of each sender are
assumption 41, the exit from Banked at the event assumption 27. -/
def Obligations.RingFrames : Prop :=
  (∀ (p : BitVec 3) (f : Frame) (s : State), Takes s p.toNat f →
     let r := inOf p.toNat f
     let q := pairPort r
     let x := s.port q
     let t := taken s p.toNat f
     let zero : Prop := ringRanked x.ringAct = true ∧ ringRank x.ringAct = 0
     let onward (k : BitVec 4) : Frame := { f with type := k, skip := false, hops := f.hops - 1 }
     let forwards (i : Instr) (k : BitVec 4) : Prop := x.buffered < 512 →
       (f.hops = 0 → exec i s = .next (t.setPort q { x with ttlDrop := satInc x.ttlDrop })) ∧
       (f.hops ≠ 0 → exec i s = .next (t.setPort q { x with transit := x.transit ++ [onward k] }))
     let others (m : State) : Prop := ∀ o, o ≠ p.toNat → o ≠ r → o ≠ q → m.port o = s.port o
     f.detour = none → (2 ≤ r → (s.port 1).took = none ∧ x.link ≠ 4) →
     (ringRanked x.ringAct = false → forwards (.dataFrame p f) 1 ∧ forwards (.reduceFrame p f) 2 ∧ forwards (.syncFrame p f) 3 ∧
       forwards (.wwriteFrame p f) 7 ∧ forwards (.wnakFrame p f) 8) ∧
     (f.dest.toNat ≠ ringRank x.ringAct → forwards (.reduceFrame p f) 2) ∧
     (f.dest ≠ 0x7F → f.dest.toNat ≠ ringRank x.ringAct → forwards (.dataFrame p f) 1) ∧
     (x.resumeAsk = false → (s.port r).resumeAsk = false → x.spliceAsk = false → (s.port r).spliceAsk = false →
       let gen := bits (frameWord f 0) 63 56
       let emit : BitVec 64 := BitVec.ofNat 64 (frameWord f 2)
       (¬ zero → ∃ m, exec (.markFrame p f) s = .next m ∧
         (∀ o, o = r ∨ o = q →
           let y := s.port o
           (m.port o).revs = y.revs + 1 ∧ (m.port o).lastEmit = some emit ∧ (m.port o).coasted = (y.coasted || y.coastAsk) ∧
           (∀ e, y.lastEmit = some e → (m.port o).rev = (emit - e).truncate 32) ∧ (y.lastEmit = none → (m.port o).rev = y.rev) ∧
           (ringGen y.ring = gen → (m.port o).ringAct = y.ring ∧
             (m.port o).mapAct = if ringGen y.ringAct = gen then y.mapAct else y.map) ∧
           (ringGen y.ring ≠ gen → (m.port o).ringAct = y.ringAct ∧ (m.port o).mapAct = y.mapAct)) ∧
         (f.hops ≠ 0 → (m.port q).ctlQ = x.ctlQ ++ [onward 4]) ∧
         (f.hops = 0 → (m.port q).ctlQ = x.ctlQ ∧ (m.port q).ttlDrop = satInc x.ttlDrop) ∧ others m) ∧
       (zero → x.marker ≠ some (BitVec.ofNat 64 (frameWord f 1)) → exec (.markFrame p f) s = .next t) ∧
       (zero → x.marker = some (BitVec.ofNat 64 (frameWord f 1)) → t.syncColls q (q / 2) = [] → t.syncColls r (q / 2) = [] →
         ∃ m g, exec (.markFrame p f) s = .next m ∧ (m.port q).marker = some (x.markSerial + 1) ∧
           (m.port q).markSerial = x.markSerial + 1 ∧ (m.port q).markAt = s.time.toNat ∧ (m.port q).revs = x.revs + 1 ∧
           (m.port q).ctlQ = x.ctlQ ++ [g] ∧ g.type = 4 ∧ frameWord g 1 = (x.markSerial + 1).toNat ∧
           frameWord g 2 = s.time.toNat ∧ bits (frameWord g 0) 63 56 = ringGen x.ring)) ∧
     (let key : BitVec 7 × BitVec 64 := (BitVec.ofNat 7 (frameWord f 0), BitVec.ofNat 64 (frameWord f 1))
      let seen := x.coastSeen.contains key
      (seen = true → exec (.coastFrame p f) s = .next t) ∧
      (seen = false → (frameWord f 0).testBit 63 = false → f.hops ≠ 0 →
        ∃ m, exec (.coastFrame p f) s = .next m ∧ { m with ports := t.ports } = t ∧ others m ∧
          m.port q = { x with coastSeen := x.coastSeen ++ [key], coastAsk := true, ctlQ := x.ctlQ ++ [onward 5] } ∧
          (let y := t.port r
           m.port r = { y with coastSeen := y.coastSeen ++ [key], coastAsk := true })) ∧
      (seen = false → (frameWord f 0).testBit 63 = true → f.hops ≠ 0 → x.colls = [] → (s.port r).colls = [] →
        ∃ m, exec (.coastFrame p f) s = .next m ∧ { m with ports := t.ports } = t ∧ others m ∧
          m.port q = { x with
            coastSeen := x.coastSeen ++ [key], coastAsk := false, coasted := false, coastMine := false, ctlQ := x.ctlQ ++ [onward 5] } ∧
          (let y := t.port r
           m.port r = { y with coastSeen := y.coastSeen ++ [key], coastAsk := false, coasted := false, coastMine := false })))) ∧
  (∀ (p : BitVec 3) (f : Frame) (d : Detour) (s : State), Takes s p.toNat f → f.detour = some d →
     let r := inOf p.toNat f
     (s.port (s.exitOf r f)).buffered < 512 →
     let x := (s.port 1).ringAct
     let t := taken s p.toNat f
     let goal := if d.back then d.home else d.xpos
     ∀ i k, (i, k) ∈ ([(.dataFrame p f, 1), (.reduceFrame p f, 2), (.syncFrame p f, 3), (.markFrame p f, 4), (.coastFrame p f, 5),
         (.lossFrame p f, 6), (.wwriteFrame p f, 7), (.wnakFrame p f, 8)] : List (Instr × BitVec 4)) →
       let g : Frame := { f with type := k, skip := false, hops := f.hops - 1 }
       let leaves (o : Nat) : Prop :=
         let y := t.port o
         (f.hops = 0 → exec i s = .next (t.setPort o { y with ttlDrop := satInc y.ttlDrop })) ∧
         (f.hops ≠ 0 → (k = 4 ∨ k = 5 ∨ k = 6) → exec i s = .next (t.setPort o { y with ctlQ := y.ctlQ ++ [g] })) ∧
         (f.hops ≠ 0 → k ≠ 4 → k ≠ 5 → k ≠ 6 → exec i s = .next (t.setPort o { y with transit := y.transit ++ [g] }))
       (r < 2 → ringPos x ≠ goal.toNat → leaves (pairPort r)) ∧
       (r < 2 → ringPos x = goal.toNat → d.back = false → leaves d.port.toNat) ∧
       (2 ≤ r → d.back = true →
         let east := hopsTo true (ringN x) d.home.toNat d.xpos.toNat
         let west := hopsTo false (ringN x) d.home.toNat d.xpos.toNat
         leaves (if east ≤ west then 0 else 1)) ∧
       (2 ≤ r → d.back = false →
         let h : Frame := { f with detour := none }
         ∀ j, (i, j) ∈ ([(.dataFrame p f, .dataFrame p h), (.reduceFrame p f, .reduceFrame p h), (.syncFrame p f, .syncFrame p h),
           (.markFrame p f, .markFrame p h), (.coastFrame p f, .coastFrame p h), (.lossFrame p f, .lossFrame p h),
           (.wwriteFrame p f, .wwriteFrame p h), (.wnakFrame p f, .wnakFrame p h)] : List (Instr × Instr)) → exec i s = exec j s)) ∧
  (∀ (p : BitVec 3) (f : Frame) (s : State), Takes s p.toNat f →
     let r := inOf p.toNat f
     let q := pairPort r
     let x := s.port q
     let t := taken s p.toNat f
     f.detour = none → (2 ≤ r → (s.port 1).took = none ∧ x.link ≠ 4) →
     (f.hops ≠ 0 → ∃ m, exec (.lossFrame p f) s = .next m ∧
       (∀ o n, (o = r ∨ o = q) → (s.coll o n).state = 2 → (m.coll o n).state = 3 ∧ (m.coll o n).fault = 1) ∧
       (frameWord f 0 % 128 = ringPos x.ringAct → (m.port q).ctlQ = x.ctlQ) ∧
       (frameWord f 0 % 128 ≠ ringPos x.ringAct →
         (m.port q).ctlQ = x.ctlQ ++ [{ f with type := 6, skip := false, hops := f.hops - 1 }])) ∧
     (x.buffered < 512 → ringRanked x.ringAct = true → ringRank x.ringAct = f.dest.toNat →
       (exec (.wnakFrame p f) s = .next { t with
         reply := [BitVec.ofNat 64 f.aux.toNat, BitVec.ofNat 64 (f.aux.toNat / 2 ^ 64)] }) ∧
       (let n := auxWin f
        let w := s.win n
        (auxDrain f = true → ringRank x.ringAct = f.orig.toNat → w.state = 2 → w.gen = auxGen f →
          exec (.wwriteFrame p f) s = .next (t.setWin n { w with drains := w.drains.erase q })) ∧
        (auxDrain f = true → (ringRank x.ringAct ≠ f.orig.toNat ∨ w.state ≠ 2 ∨ w.gen ≠ auxGen f) →
          exec (.wwriteFrame p f) s = .next t) ∧
        (auxDrain f = false →
          let len := min 16 (auxLen f)
          let b := (frameBytes f).take (64 * len)
          let mine (u : WinUnit) : Bool := u.win = n && u.port = r && u.orig = f.orig
          let refused (t' : State) (reason : Nat) : Prop := ∃ m g, exec (.wwriteFrame p f) s = .next m ∧ OnlyPort r t' m ∧
            m.port r = { t.port r with ownQ := (t.port r).ownQ ++ [g] } ∧
            g.type = 8 ∧ g.dest = f.orig ∧ auxWin g = n ∧ auxGen g = auxGen f ∧ bits g.aux.toNat 29 28 = reason
          let written (a : State) (from_ : Nat) (bytes : List Byte) : Prop := Undisturbed s →
            ∀ j l, j < 12 → (s.stack j).rekeying = false →
              (∀ i, i < bytes.length → s.hbmMap w.part.toNat (w.base.toNat + from_ + i) = some (j, l + i)) → ∃ m, exec (.wwriteFrame p f) s = .next m ∧ WritesBytes s m j l bytes ∧
                { m with hbm := a.hbm, bisnp := a.bisnp, events := a.events, cxlEvts := a.cxlEvts, msix := a.msix } = a
          let stale : State := { t with integ := { s.integ with winStale := satInc s.integ.winStale } }
          let denied : State := { t with integ := { s.integ with winRefused := satInc s.integ.winRefused } }
          let applies : Prop := w.state ≠ 0 ∧ w.gen = auxGen f ∧ w.peer = true ∧ auxOff f + 64 * len ≤ 4096 * w.len.toNat
          (s.dim.banked = true → exec (.wwriteFrame p f) s = .next s.wakeModule) ∧
          (s.dim.banked = false → s.wwriteHeld r f = true → exec (.wwriteFrame p f) s = .next s) ∧
          (applies → (∃ i j l, i < 64 * len ∧ s.hbmMap w.part.toNat (w.base.toNat + auxOff f + i) = some (j, l) ∧ j < 12 ∧
            (s.stack j).rekeying = true) → s.wwriteHeld r f = true) ∧
          (NoRekey s → s.wwriteHeld r f = false) ∧
          (s.dim.banked = false → s.wwriteHeld r f = false →
          (f.sealed = true ∨ (∀ u ∈ s.winUnits, mine u = false) →
            (w.state = 0 ∨ w.gen ≠ auxGen f → refused stale 1) ∧
            (w.state ≠ 0 → w.gen = auxGen f → w.peer = false → refused denied 3) ∧
            (w.state ≠ 0 → w.gen = auxGen f → w.peer = true → 4096 * w.len.toNat < auxOff f + 64 * len → refused denied 2)) ∧
          (w.state ≠ 0 → w.gen = auxGen f → w.peer = true → auxOff f + 64 * len ≤ 4096 * w.len.toNat →
            (f.sealed = false → (∀ u ∈ s.winUnits, mine u = false) → written t (auxOff f) b) ∧
            (f.sealed = true → len = 16 →
              (auxOff f % 4096 = 0 → (∀ u ∈ s.winUnits, mine u = false) →
                exec (.wwriteFrame p f) s = .next { t with winUnits := s.winUnits ++ [⟨n, auxOff f, r, f.orig, b⟩] }) ∧
              ∀ u, s.winUnits.find? mine = some u → auxOff f = u.off + u.bytes.length →
                let left := s.winUnits.filter (fun v => !mine v)
                let all := u.bytes ++ b
                (all.length ≠ 4096 →
                  exec (.wwriteFrame p f) s = .next { t with winUnits := left ++ [{ u with bytes := all }] }) ∧
                (all.length = 4096 → crc32c all = f.crc → written { t with winUnits := left } u.off all) ∧
                (all.length = 4096 → crc32c all ≠ f.crc → refused { t with
                  winUnits := left
                  integ := { s.integ with sealErr := satInc s.integ.sealErr, winStale := satInc s.integ.winStale } } 2))))))))

/-- Descriptors and steps of a collective (R361, R408, R409, R411, R414–R416, R426, LP_COLL; which phase's slots a stream is held to,
and when the routers have written everything, are the model's reading, assumption 42). Words 0 to 4 are written only while VALID is 0;
setting VALID makes the descriptor live or ends it with FAULT 0x04; clearing it tears the descriptor down. A step starts at its trigger
on a ring that runs, which ends the module's idleness or, in Banked, wakes it first (R538, R540), is done when every result is delivered, and then signals. A stream that does not match the step ends it with
EXCH_ORDER. A contribution that is GRACE frame periods late is passed over with HOLE.

A REDUCE frame at the rank to which it is addressed (R411, R414, R416): without a live descriptor of its CID it is discarded and
counted; a partial whose contribution has not come parks; else the contribution is added to it, the partial first, and the sum goes on
to the next rank with one contribution more, LATE when the partial or the contribution is. A scalar SYNC frame in its first pass waits
at a rank whose step has not started, and one without a live descriptor is discarded and counted (R404, R412, R414).

Scalar SYNC frames that carry totals (R360, R361, R404, R412). A rank whose step has started writes its total into its slot of the frame and
passes it on; rank 0 adds the totals in FP64 in rank order and sends T round; T reaches the engines whose RED words wait for it, at rank
0 and at every rank that the second pass meets, and the frame goes on. -/
def Obligations.CollectivesAndReductions : Prop :=
  (∀ (p : BitVec 3) (n : BitVec 6) (s : State),
     let k := p.toNat
     let x := s.port k
     let d := s.coll k n.toNat
     let t := attachRouter k (d.kIn % d.streamLen / 16 % 6)
     let makes (i : Instr) (c : Coll) : Prop := ∃ m, exec i s = .next m ∧ OnlyPort k s m ∧
       { m.port k with colls := x.colls } = x ∧ m.coll k n.toNat = c ∧ ∀ j, j ≠ n.toNat → m.coll k j = s.coll k j
     let ends (i : Instr) (fault : BitVec 8) : Prop := ∃ m, exec i s = .next m ∧ (m.coll k n.toNat).state = 3 ∧
       (m.coll k n.toNat).fault = fault
     let due : Prop := (d.op < 3 ∧ ((s.obj d.trigObj).value - d.w4).toNat < 2 ^ 31) ∨ (d.op = 3 ∧ (s.red d.trigObj).total ≠ none)
     let straight (q : Nat) : Prop := 2 ≤ q → (s.port 1).took = none ∧ (s.port q).link ≠ 4
     (d.valid = true → ∀ j v, (j ≠ 0 ∨ BitVec.getLsbD v 31 = true) → exec (.collDescriptorWrite p n j v) s = .next s) ∧
     (d.valid = false → s.responds = true → ∀ v : BitVec 32,
       let written : Coll := { d with w0 := v &&& 0xFFFC0FFF, state := 0, fault := 0 }
       makes (.collDescriptorWrite p n 1 v) { d with w1 := v &&& 0x007FFFFF } ∧
       makes (.collDescriptorWrite p n 2 v) { d with w2 := v } ∧
       makes (.collDescriptorWrite p n 3 v) { d with w3 := v &&& 0x0FFF0FFF } ∧
       makes (.collDescriptorWrite p n 4 v) { d with w4 := v } ∧
       (v.getLsbD 31 = false → makes (.collDescriptorWrite p n 0 v) written) ∧
       (v.getLsbD 31 = true → s.collOk k n.toNat written = false →
         makes (.collDescriptorWrite p n 0 v) { written with state := 3, fault := 4 }) ∧
       (v.getLsbD 31 = true → bits v.toNat 30 28 ≠ 4 → s.collOk k n.toNat written = true →
         makes (.collDescriptorWrite p n 0 v) { written with
           state := 1
           trigObj := (s.translate (x.owner.getD 0) d.trigVid).getD 0
           doneObj := (s.translate (x.owner.getD 0) d.doneVid).getD 0 }) ∧
       (v.getLsbD 31 = true → bits v.toNat 30 28 = 4 → s.collOk k n.toNat written = true →
         ∃ m, exec (.collDescriptorWrite p n 0 v) s = .next m ∧ (m.coll k n.toNat).state = 1 ∧
           (m.coll k n.toNat).trigObj = (s.translate (x.owner.getD 0) d.trigVid).getD 0 ∧
           m.obj (m.coll k n.toNat).trigObj = { s.obj (m.coll k n.toNat).trigObj with bound := true })) ∧
     (d.valid = false → exec (.collTeardown p n) s = .next s) ∧
     (d.valid = true → s.responds = true → ∃ m, exec (.collTeardown p n) s = .next m ∧ (d.op < 3 → OnlyPort k s m) ∧
       m.coll k n.toNat = { w0 := d.w0 &&& 0x7FFFFFFF, w1 := d.w1, w2 := d.w2, w3 := d.w3, w4 := d.w4 } ∧
       (m.port k).discard = satAdd x.discard (d.held.length * d.blocks)) ∧
     ((d.state ≠ 1 ∨ x.coastAsk = true ∨ x.coasted = true ∨ ringRanked x.ringAct = false) → exec (.collectiveStepStart p n) s = .next s) ∧
     (¬ due → exec (.collectiveStepStart p n) s = .next s) ∧
     (d.valid = true → d.state = 1 → due → x.coastAsk = false → x.coasted = false → ringRanked x.ringAct = true →
       (s.dim.banked = true → exec (.collectiveStepStart p n) s = .next s.wakeModule) ∧
       (s.dim.banked = false →
       let begins (c : Coll) : Prop := ∃ m, exec (.collectiveStepStart p n) s = .next m ∧
         OnlyPort k { s with dim := { s.dim with busyM := s.time.toNat } } m ∧
         { m.port k with colls := x.colls } = x ∧ m.coll k n.toNat = c ∧ ∀ j, j ≠ n.toNat → m.coll k j = s.coll k j
       let lock : Prop := (s.part (x.owner.getD 0)).modeAct.getLsbD 29 = true ∧ (d.policy = 1 ∨ d.policy = 2)
       let begun : Coll := { d with
         state := 2, w4 := d.w4 + 1, started := d.started + 1, reduced := 0, gathered := 0, kOut := 0, ringAt := 0, sealing := false,
         dueAt := s.time.toNat }
       (x.broken = true → ends (.collectiveStepStart p n) 1) ∧
       let sound : Prop := ∀ o, o < 8 → o / 2 = k / 2 ∨ (d.op = 3 ∧ o / 2 ∈ d.ringList) → (s.port o).broken = false
       (sound → lock → ends (.collectiveStepStart p n) 4) ∧
       (sound → ¬ lock → d.op < 3 → d.ready = [] → d.parked = [] → begins begun) ∧
       (sound → ¬ lock → d.op = 3 → ∀ v, (s.red d.trigObj).total = some v →
         let q := ringPort k (d.ringList.getD 0 0)
         let y := s.port q
         (ringRank y.ringAct ≠ 0 → d.syncPark = none → begins { begun with value := some v }) ∧
         (ringRanked y.ringAct = true → ringRank y.ringAct = 0 → straight q →
           ∃ m g, exec (.collectiveStepStart p n) s = .next m ∧ (m.coll k n.toNat) = { begun with value := some v } ∧
             (m.port q).ownQ = y.ownQ ++ [g] ∧ g.type = 3 ∧ syncForm g = 1 ∧ syncPass g = 1 ∧ syncCid g = d.cid ∧
             frameWord g 1 = v.toNat)))) ∧
     (d.state ≠ 2 → exec (.collectiveStepDone p n) s = .next s) ∧
     (let delivered : Prop := d.op < 3 ∧ d.reduced = d.inFrames ∧ d.kOut = 16 * d.outFrames
      let more : Prop := ∃ i, i < 6 ∧ s.expectsMore k n.toNat (attachRouter k i) = true
      (d.state = 2 → (delivered ∧ ¬ more ∧ s.groupIdle k = true) ∨ (d.op = 3 ∧ d.reduced = 1 ∧ d.value = none) →
        ∃ m, exec (.collectiveStepDone p n) s = .next m ∧ OnlyPort k { s with incs := m.incs } m ∧
          m.coll k n.toNat = { d with state := 1 } ∧ m.incs = s.incs ++ [{ obj := d.doneObj, amt := 1, unit := .port k }]) ∧
      (d.state = 2 → delivered → ¬ more → s.groupIdle k = false → exec (.collectiveStepDone p n) s = .next s) ∧
      (d.state = 2 → delivered → more → ends (.collectiveStepDone p n) 3)) ∧
     (d.valid = true → d.state ≠ 3 → d.op < 3 → d.started ≠ 0 →
       let beyond : Prop := d.streamLen * d.started ≤ d.kIn
       ((s.armLink t).fromRouter = [] →
         (d.state = 2 → d.kIn % d.streamLen ≠ 0 → (s.tile t).st ≠ 4 → ends (.lamplineAttachFlit p n true) 3) ∧
         (d.state ≠ 2 ∨ d.kIn % d.streamLen = 0 ∨ (s.tile t).st = 4 → exec (.lamplineAttachFlit p n true) s = .next s)) ∧
       ∀ f more, (s.armLink t).fromRouter = f :: more →
         (¬ beyond → f.ord.toNat = (s.armLink t).kIn % 256 → d.flits.length < 15 →
           ∃ m, exec (.lamplineAttachFlit p n true) s = .next m ∧ OnlyPort k { s with arms := m.arms } m ∧
             m.coll k n.toNat = { d with flits := d.flits ++ [f], kIn := d.kIn + 1 } ∧
             m.armLink t = { s.armLink t with fromRouter := more, kIn := (s.armLink t).kIn + 1 }) ∧
         ((d.state = 2 ∧ beyond) ∨ (¬ beyond ∧ f.ord.toNat ≠ (s.armLink t).kIn % 256) → ends (.lamplineAttachFlit p n true) 3) ∧
         (d.state ≠ 2 → beyond → exec (.lamplineAttachFlit p n true) s = .next s)) ∧
     (let u := attachRouter k (d.kOut / 16 % 6)
      let i := sget ({} : InPort) 4 (s.tile u).exch.ins
      ∀ f rest, d.results = f :: rest →
        ((s.tile u).st = 4 → (s.armLink u).kOut < i.slots → i.fifo.length < 8 →
          ∃ m, exec (.lamplineAttachFlit p n false) s = .next m ∧ m.coll k n.toNat = { d with results := rest, kOut := d.kOut + 1 } ∧
            (sget ({} : InPort) 4 (m.tile u).exch.ins).fifo = i.fifo ++ [{ f with ord := BitVec.ofNat 8 (s.armLink u).kOut }] ∧
            ∀ y, y ≠ u → m.tile y = s.tile y) ∧
        ((s.tile u).st ≠ 4 ∨ ((s.armLink u).kOut < i.slots ∧ 8 ≤ i.fifo.length) →
          exec (.lamplineAttachFlit p n false) s = .next s) ∧
        ((s.tile u).st = 4 → i.slots ≤ (s.armLink u).kOut → d.state = 2 → d.kOut ≠ 0 → ends (.lamplineAttachFlit p n false) 3)) ∧
     ((d.state ≠ 2 ∨ d.policy = 0 ∨ d.ready ≠ [] ∨ x.coastAsk = true ∨ x.coasted = true) → exec (.graceExpiry p n) s = .next s) ∧
     (d.state = 2 → d.op < 3 → d.policy = 1 ∨ d.policy = 2 → d.ready = [] → x.coastAsk = false → x.coasted = false → straight k →
       2 ≤ d.nranks → ringRank x.ringAct < d.nranks → d.reduced < d.inFrames →
       let passes (parked : List (Nat × Frame)) (holes : Nat) (fromHere : Frame → Prop) : Prop :=
         d.parked = parked → ∃ m g, exec (.graceExpiry p n) s = .next m ∧ OnlyPort k s m ∧ (m.port k).ownQ = x.ownQ ++ [g] ∧
           (m.port k).holes = satAdd x.holes holes ∧ (m.coll k n.toNat).reduced = d.reduced + 1 ∧
           (m.coll k n.toNat).missed = d.missed ++ [d.reduced] ∧ (m.coll k n.toNat).parked = [] ∧ g.hole = true ∧ fromHere g
       let summed (g : Frame) : Prop := g.type = 2 ∧ g.dest.toNat = rankNext k d.nranks (ringRank x.ringAct)
       (d.reduced < d.chunk → s.framePeriods k d.dueAt < d.grace → exec (.graceExpiry p n) s = .next s) ∧
       (d.reduced < d.chunk → d.grace ≤ s.framePeriods k d.dueAt →
         (d.op ≠ 1 → passes [] d.blocks (fun g => summed g ∧ g.ncontrib = 0)) ∧
         (d.op = 1 → passes [] d.blocks (fun g => g.type = 1 ∧ g.dest = 0x7F ∧ g.ncontrib = 0))) ∧
       (d.chunk ≤ d.reduced → ∀ (at_ : Nat) (f : Frame), f.type = 2 →
         (d.parked = [(at_, f)] → s.framePeriods k at_ < d.grace → exec (.graceExpiry p n) s = .next s) ∧
         (d.grace ≤ s.framePeriods k at_ → f.sealed = false → chunkOf k d (ringRank x.ringAct) d.reduced ≠ ringRank x.ringAct →
           passes [(at_, f)] (d.freshHoles f)
             (fun g => summed g ∧ g.ncontrib = f.ncontrib ∧ g.late = f.late ∧ (d.fmt ≠ 0xD → g.payload = f.payload)))))) ∧
  (∀ (p : BitVec 3) (f : Frame) (s : State), Takes s p.toNat f → f.detour = none →
     let r := inOf p.toNat f
     let q := pairPort r
     let x := s.port q
     let t := taken s p.toNat f
     let lost : State := t.setPort q { x with ttlDrop := satInc x.ttlDrop }
     (s.port (s.exitOf r f)).buffered < 512 → ringRanked x.ringAct = true →
     (syncForm f = 1 →
       (s.findDir q 3 (syncCid f) = none → exec (.syncFrame p f) s = .next lost) ∧
       ∀ o n, s.findDir q 3 (syncCid f) = some (o, n) → ringRank x.ringAct ≠ 0 → syncPass f = 1 → (s.coll o n).state ≠ 2 →
         exec (.syncFrame p f) s = .next (t.setColl o n { s.coll o n with syncPark := some { f with type := 3, skip := false } })) ∧
     ((2 ≤ q → (s.port 1).took = none ∧ x.link ≠ 4) → ringRank x.ringAct = f.dest.toNat →
     (s.findColl q f.cid.toNat = none → exec (.reduceFrame p f) s = .next lost) ∧
     ∀ n, s.findColl q f.cid.toNat = some n →
       let d := s.coll q n
       let g : Frame := { f with type := 2, skip := false }
       (d.ready = [] → (∀ h ∈ d.parked, h.2.type = 2) → ∃ m, exec (.reduceFrame p f) s = .next m ∧ OnlyPort q t m ∧
         { m.port q with colls := x.colls } = x ∧ m.coll q n = { d with parked := d.parked ++ [(s.time.toNat, g)] } ∧
         ∀ j, j ≠ n → m.coll q j = s.coll q j) ∧
       (∀ h late, d.state = 2 → x.coastAsk = false → x.coasted = false → d.op = 0 ∨ d.op = 2 → d.parked = [] →
         d.ready = [(d.reduced, h, late)] → f.sealed = false → d.chunk ≤ d.reduced → d.reduced < d.inFrames →
         chunkOf q d f.dest.toNat d.reduced ≠ f.dest.toNat →
         ∃ m o, exec (.reduceFrame p f) s = .next m ∧ OnlyPort q t m ∧ (m.port q).ownQ = x.ownQ ++ [o] ∧ o.type = 2 ∧
           o.payload = (addFrames d.fmt ⟨f.payload, f.aux⟩ h).payload ∧ o.aux = (addFrames d.fmt ⟨f.payload, f.aux⟩ h).aux ∧
           o.cid.toNat = d.cid ∧ o.hole = f.hole ∧ o.late = (f.late || h.isLate d.fmt late) ∧
           o.ncontrib.toNat = (f.ncontrib.toNat + 1) % 128 ∧ o.dest.toNat = rankNext q d.nranks f.dest.toNat % 128 ∧
           (m.coll q n).reduced = d.reduced + 1 ∧ (m.coll q n).parked = [] ∧ (m.coll q n).ready = []))) ∧
  (∀ (p : BitVec 3) (f : Frame) (s : State), Takes s p.toNat f → f.detour = none → syncForm f = 1 →
     let r := inOf p.toNat f
     let q := pairPort r
     let x := s.port q
     let y := s.port (s.exitOf r f)
     y.buffered < 512 → ringRanked x.ringAct = true → (2 ≤ q → (s.port 1).took = none ∧ x.link ≠ 4) →
     ∀ o n, s.findDir q 3 (syncCid f) = some (o, n) →
       let d := s.coll o n
       let w := s.red d.trigObj
       ringPort o (q / 2) = q → d.ringList.getD 0 4 = q / 2 →
       let takes (m : State) (T : BitVec 64) : Prop := m.coll o n = { d with value := none, reduced := 1 } ∧
         m.red d.trigObj = { w with total := none } ∧ m.incs = s.incs ∧ ∀ e,
           (e ∈ w.waiting → m.stack e = { s.stack e with eng := { (s.stack e).eng with total := some T } }) ∧
           (e ∉ w.waiting → m.stack e = s.stack e)
       let onward (m : State) (h : Frame) : Prop := (m.port (s.exitOf r f)).transit = y.transit ++ [h] ∧ h.type = 3 ∧ h.hops = f.hops - 1
       (syncPass f ≠ 1 → ringRank x.ringAct ≠ 0 → f.hops ≠ 0 → ∃ m h, exec (.syncFrame p f) s = .next m ∧
         takes m (BitVec.ofNat 64 (frameWord f 1)) ∧ onward m h ∧ h.payload = f.payload) ∧
       (syncPass f = 1 → ringRank x.ringAct = 0 → d.ringList = [q / 2] → x.rankCount = 2 →
         let T := BitVec.ofNat 64 (roundF fp64 .rne ((decodeF fp64 (frameWord f 1)).add (decodeF fp64 (frameWord f 2))))
         ∃ m g, exec (.syncFrame p f) s = .next m ∧ takes m T ∧ (m.port q).ownQ = x.ownQ ++ [g] ∧ g.type = 3 ∧ syncForm g = 1 ∧
           syncPass g = 2 ∧ syncCid g = d.cid ∧ frameWord g 1 = T.toNat) ∧
       ∀ v, syncPass f = 1 → ringRank x.ringAct ≠ 0 → d.state = 2 → d.ringAt = 0 → d.value = some v → f.hops ≠ 0 →
         ∃ m h, exec (.syncFrame p f) s = .next m ∧ m.coll o n = { d with syncPark := none } ∧ onward m h ∧
           frameWord h (ringRank x.ringAct + 1) = v.toNat ∧
           ∀ i, i < 128 → i ≠ ringRank x.ringAct + 1 → frameWord h i = frameWord f i)

/-- LP_COAST, LP_RESUME, RETRAIN, SPLICE_CLEAR, LANE_DEGRADE, LINK_LOSS_DETECT, LAMPLINE_LINK_UP and MARKER_TIMEOUT, and LP_CTL at the
frame boundary (R405, R406, R417–R420, R422, R426–R428, R493). A write of LP_CTL or LP_RING waits for its boundary while the port is
up, or, like a pending LP_CTL, takes effect when the link is lost. A port goes on with its widest set of working lanes after a switch, or is lost with fewer than four. An X port that is lost splices
to its skip port, at once with a LOSS frame or, on a warned removal, at the revolution boundary; a ring that cannot splice is BROKEN. A port that
comes up while PWR_WARN_N is asserted coasts its ring (Table 20-7).
Rank 0 emits a marker when none circulates. First SEQ 0 after a training and unacknowledged frames first at a splice (assumption 43), eastbound
markers and the end of a switch of lanes at the frame boundary (assumption 42) are the model's reading. -/
def Obligations.PortControl : Prop :=
  ∀ (p : BitVec 3) (s : State),
    let k := p.toNat
    let q := pairPort k
    let x := s.port k
    let makes (i : Instr) (y : Port) : Prop := ∃ m, exec i s = .next m ∧ OnlyPort k s m ∧ m.port k = y
    let steady : Prop := x.ctl = x.ctlAct ∧ x.ctl.getLsbD 30 = false ∧ x.coastOff = false
    (∀ who, s.reaches who = true → s.inView who (0x80008 + 0x1000 * k) = true → x.link ≠ 0 → x.link ≠ 4 →
      let cap := x.ctl &&& 0x1F
      (cap = 16 ∨ cap = 8 ∨ cap = 4) →
      makes (.lpCoast who p) { x with
        ctl := 0x80000000 ||| (x.ctl &&& (if Who.virtual who then 0x1F else 0x4000001F)), coastOff := false } ∧
      makes (.lpResume who p) { x with ctl := x.ctl &&& (if Who.virtual who then 0x1F else 0x4000001F), coastOff := true } ∧
      (Who.virtual who = false → makes (.retrain who p) { x with
        ctl := 0x40000000 ||| (x.ctl &&& 0x8000001F), coastOff := !x.ctl.getLsbD 31 }) ∧
      (Who.virtual who = true → makes (.retrain who p) { x with ctl := x.ctl &&& 0x8000001F, coastOff := !x.ctl.getLsbD 31 })) ∧
    (∀ who, s.reaches who = false ∨ s.inView who (0x80008 + 0x1000 * k) = false → exec (.lpCoast who p) s = .next s ∧
      exec (.lpResume who p) s = .next s ∧ exec (.retrain who p) s = .next s) ∧
    (x.ctl.getLsbD 30 = false → x.ctl.getLsbD 31 = true → x.ctlAct.getLsbD 31 = false → x.coastMine = false →
      ∃ m, exec (.frameSend p) s = .next m ∧ (m.port k).ctlAct = x.ctl ∧ (m.port k).coastAsk = true ∧ (m.port q).coastAsk = true ∧
        (m.port k).coastMine = true) ∧
    (x.ctl.getLsbD 30 = false → x.ctl.getLsbD 31 = false → x.coastOff = true → x.coastMine = true →
      ∃ m, exec (.frameSend p) s = .next m ∧ (m.port k).ctlAct = x.ctl ∧ (m.port k).resumeAsk = true ∧ (m.port q).resumeAsk = true) ∧
    (x.ctl.getLsbD 30 = true → x.coasted = true → x.link = 2 → ∃ m, exec (.frameSend p) s = .next m ∧ (m.port k).link = 1 ∧
      (m.port k).ctlAct = x.ctl &&& 0xBFFFFFFF) ∧
    (x.ctl = x.ctlAct → x.ctl.getLsbD 30 = false → x.coastOff = false → x.link = 3 →
      ∃ m, exec (.frameSend p) s = .next m ∧ (m.port k).link = 2 ∧ (m.port k).lanes = s.lanesOf k) ∧
    (s.responds = true → x.link = 2 ∨ x.link = 3 → makes (.spliceClear p) { x with ring := x.ring &&& 0xBFFFFF7F }) ∧
    (s.responds = true → x.link ≠ 2 → x.link ≠ 3 → ∃ m, exec (.spliceClear p) s = .next m ∧ OnlyPort k s m ∧
      (m.port k).ring = x.ring &&& 0xBFFFFF7F ∧ (m.port k).ringAct = x.ring &&& 0xBFFFFF7F ∧ (m.port k).mapAct = x.map) ∧
    (∀ ok, (x.link ≠ 2 → x.link ≠ 3 → exec (.laneDegrade p ok) s = .next s) ∧
      (x.link = 2 ∨ x.link = 3 →
        let works := x.laneOk &&& ok
        let lanes := min (bestLanes works) (s.laneCap k)
        (lanes < 4 → ∃ m, exec (.laneDegrade p ok) s = .next m ∧ (steady → OnlyPort k s m) ∧ (m.port k).laneOk = works ∧
          (m.port k).ctlAct = x.ctl &&& 0xBFFFFFFF ∧ (m.port k).lanes = 0 ∧ (m.port k).link = 4 ∧ (m.port k).ringAct = x.ring ∧ (m.port k).mapAct = x.map) ∧
        (4 ≤ lanes → ∃ m, exec (.laneDegrade p ok) s = .next m ∧
          OnlyPort k { s with el := m.el, elSeq := m.elSeq, elRd := m.elRd, elLost := m.elLost, elWait := m.elWait } m ∧
          m.port k = { x with laneOk := works, link := 3, switchAt := s.time.toNat } ∧ (s.start.lmcWait = false →
            m.elSeq = s.elSeq + 1 ∧ bits (sget 0 (s.elSeq.toNat % 4096) m.el).toNat 127 120 = 6)))) ∧
    (∀ ok, (x.link = 2 ∨ x.link = 3 ∨ bestLanes ok = 0 ∨ s.pins.power = false ∨ s.pins.snuffed = true → exec (.lamplineLinkUp p ok) s = .next s) ∧
      (x.link ≠ 2 → x.link ≠ 3 → bestLanes ok ≠ 0 → s.pins.power = true → s.pins.snuffed = false → s.pins.warn = true →
        x.coastMine = false → ∃ m, exec (.lamplineLinkUp p ok) s = .next m ∧ (m.port k).link = 2 ∧ (m.port k).coastAsk = true ∧
          (m.port q).coastAsk = true ∧ (m.port k).coastMine = true) ∧
      (x.link ≠ 2 → x.link ≠ 3 → bestLanes ok ≠ 0 → s.pins.power = true → s.pins.snuffed = false → s.pins.warn = false →
        makes (.lamplineLinkUp p ok) { x with
        link := 2, laneOk := ok, lanes := min (bestLanes ok) (s.laneCap k), seqOut := 0, seqIn := 0xFFFF, askReplay := false
        sent := [], resend := [], holding := false })) ∧
    (x.link = 0 ∨ x.spliced = true ∨ x.spliceAsk = true → ∀ warned, exec (.linkLossDetect p warned) s = .next s) ∧
    (x.link ≠ 0 → x.spliced = false → x.spliceAsk = false → ∀ warned,
      let skip := s.port (skipOf k)
      let breaks : Prop := ∃ m, exec (.linkLossDetect p warned) s = .next m ∧
        (m.port k).link = 4 ∧ (m.port k).lanes = 0 ∧ (m.port k).ctlAct = x.ctl &&& 0xBFFFFFFF ∧ (m.port k).broken = true ∧ (m.port q).broken = true ∧
        (m.port k).sent = [] ∧ (m.port k).resend = [] ∧ (m.port k).ringAct = x.ring ∧ (m.port k).mapAct = x.map ∧
        (6 ≤ k → (s.port (xOfSkip k)).spliced = true → (m.port (xOfSkip k)).broken = true) ∧
        ∃ e ∈ m.events, e.source = 5 ∧ e.code = 3 ∧ e.unit = k
      (2 ≤ k → x.broken = false → breaks) ∧
      (k < 2 → skip.link ≠ 2 → skip.link ≠ 3 → x.broken = false → breaks) ∧
      (k < 2 → skip.link = 2 ∨ skip.link = 3 → warned = true → x.coasted = true → steady →
        makes (.linkLossDetect p warned) { x.leave 4 with lanes := 0, spliceAsk := true }) ∧
      (k < 2 → skip.link = 2 ∨ skip.link = 3 → (warned = false ∨ x.coasted = false) → s.wins = [] → steady →
        ∃ f : Frame, makes (.linkLossDetect p warned) { x.leave 4 with
            lanes := 0, sent := [], resend := [], spliced := true, ring := x.ring ||| 0x40000000
            ringAct := x.ring ||| 0x40000000
            ctlQ := x.sent.filter isCtl ++ x.ctlQ ++ [f]
            redo := x.redo ++ x.sent.filter (fun g => g.type ≠ 0 && !isCtl g) } ∧
          f.type = 6 ∧ bits (frameWord f 0) 6 0 = ringPos x.ring ∧ frameWord f 1 = s.time.toNat)) ∧
    ((ringRanked x.ringAct = false ∨ ringRank x.ringAct ≠ 0 ∨ s.canSend k = false ∨ eastPort k = false) →
      exec (.markerTimeout p) s = .next s) ∧
    (ringRanked x.ringAct = true → ringRank x.ringAct = 0 → s.canSend k = true → eastPort k = true →
      (∀ v, x.marker = some v → s.time.toNat ≤ x.markAt + 2 * x.rev.toNat → exec (.markerTimeout p) s = .next s) ∧
      (x.marker = none ∨ x.markAt + 2 * x.rev.toNat < s.time.toNat → x.resumeAsk = false → x.spliceAsk = false →
        (s.port q).spliceAsk = false → s.syncColls k (k / 2) = [] → s.syncColls q (k / 2) = [] →
        ∃ m g, exec (.markerTimeout p) s = .next m ∧ (m.port k).marker = some (x.markSerial + 1) ∧
          (m.port k).markSerial = x.markSerial + 1 ∧ (m.port k).markAt = s.time.toNat ∧
          (k = 1 ∨ k = 7 ∨ ((s.port 1).took = none ∧ x.link = 2) → (m.port k).ctlQ = x.ctlQ ++ [g]) ∧
          g.type = 4 ∧ frameWord g 1 = (x.markSerial + 1).toNat ∧
          (m.port k).markLost = (if x.marker = none then x.markLost else satInc x.markLost)))

/-! ### Copies, arms, narrow elements and the sentinel -/

/-- COPY_COMPLETE (R328, R330, R332, R340, R351). A FETCH or STORE that no arm and no re-key holds up leaves the copy queue and advances
its counter; its bytes pair HBM with staging on the stack that holds them. A narrow operation waits for all its answers.

COPY_COMPLETE of sealed and G16 rows (R331, R355, R507–R510). A sealed FETCH of 4 KiB leaves in the side word of its last 64 bytes
the seal of HBM, or, where HBM holds none, one that the base die makes and counts; a sealed STORE leaves there the seal of HBM. A G16
row is blocks of 130 bytes in HBM and of 128 bytes in staging, with the header in the side word of the block's first 64 bytes and zero
in that of its second.

ARM_ACCEPT, ARM_IN_FLIT and ARM_OUT_FLIT (R245, R327, R334–R336, R338). A base die queues up to 16 arms of each direction. A raw
ARM_IN lands each flit with its side word, an ARM_OUT sends staging bytes with the ordinal of the phase; the last flit completes the
arm. A wrong ordinal or a flit without an arm raises EXCH_ORDER with port code 5.

ARM_IN_FLIT of an arm that adds (R327, R338, R348, R356, R508, R511): an FP32 or BF16 flit is added to the staging bytes lane by
lane, exact and rounded once; a G16 block takes two flits and adds to the block in staging; poisoned staging raises TILE_UE with the
staging offset and is counted, and so do a sealed unit whose staging seal fails, with SEAL_FAULT, and a sealed arrival. -/
def Obligations.CopiesAndArms : Prop :=
  (∀ (t : TileId) (n : Nat) (s : State),
     let x := s.tile t
     (x.copies.length ≤ n → exec (.copyComplete t n) s = .next s) ∧
     ∀ d, x.copies[n]? = some d →
       let held : Prop := ∃ e ∈ x.copies.take n, e.op = 2 ∨ e.op = 3
       (held ∨ d.op = 2 ∨ d.op = 3 ∨ (d.op < 4 ∧ copyHeld d s = true) → exec (.copyComplete t n) s = .next s) ∧
       (4 ≤ d.op → d.answered < d.len → exec (.copyComplete t n) s = .next s) ∧
       (¬ held → 4 ≤ d.op → d.len ≤ d.answered → d.poisoned = [] → ∃ m, exec (.copyComplete t n) s = .next m ∧
         OnlyTile t { s with incs := m.incs } m ∧ m.tile t = { x with copies := x.copies.eraseIdx n } ∧
         m.incs = s.incs ++ (if d.silent then [] else [{ obj := d.obj, amt := 1, unit := .copies t }])) ∧
       (¬ held → d.op = 0 ∨ d.op = 1 → copyHeld d s = false → Undisturbed s → ∃ m, exec (.copyComplete t n) s = .next m ∧
         OnlyTile t { s with incs := m.incs, hbm := m.hbm, integ := m.integ, events := m.events, cxlEvts := m.cxlEvts,
                             msix := m.msix, bisnp := m.bisnp } m ∧
         m.tile t = { x with copies := x.copies.eraseIdx n } ∧ m.incs = s.incs ++ [{ obj := d.obj, amt := 1, unit := .copies t }] ∧
         (d.op = 0 → d.fmt ≠ 0xD → d.rows = 1 → ∀ j k l i, j < d.len / 64 → s.hbmMap d.part (d.hbm + 64 * j) = some (k, l) → i < 64 →
           readByte (m.stack k).stg (65536 * (s.stack k).stgBase.toNat + d.stage + 64 * j + i) = (s.stack k).byte k (l + i)) ∧
         (d.op = 1 → d.fmt ≠ 0xD → d.rows = 1 → ∀ k l, (∀ j, j < d.len / 64 → s.hbmMap d.part (d.hbm + 64 * j) = some (k, l + 64 * j)) →
           ∀ j i, j < d.len / 64 → i < 64 → (m.stack k).byte k (l + 64 * j + i) =
             readByte (s.stack k).stg (65536 * (s.stack k).stgBase.toNat + d.stage + 64 * j + i)))) ∧
  (∀ (t : TileId) (n : Nat) (s : State) (d : CopyDesc) (k l : Nat),
     let x := s.tile t
     let st := s.stack k
     let base := 65536 * st.stgBase.toNat + d.stage
     let side (m : State) (a : Nat) : BitVec 32 := (m.stack k).side a
     x.copies[n]? = some d → (∀ e ∈ x.copies.take n, e.op ≠ 2 ∧ e.op ≠ 3) → copyHeld d s = false → Undisturbed s → d.rows = 1 →
     k < 12 → d.stage % 64 = 0 →
     (d.fmt ≠ 0xD → d.sealed = true → d.len = 4096 → l % 4096 = 0 →
       (∀ j, j < 64 → s.hbmMap d.part (d.hbm + 64 * j) = some (k, l + 64 * j)) →
       (d.op = 0 → ∃ m, exec (.copyComplete t n) s = .next m ∧
         (∀ i, i < 4096 → readByte (m.stack k).stg (base + i) = st.byte k (l + i)) ∧
         (∀ j, j < 63 → side m (base + 64 * j) = 0) ∧
         (let e := sget ({} : SealEntry) (l / 4096) st.seals
          side m (base + 4032) = (if e.sv then e.crc else crc32c ((List.range 4096).map (fun i => st.byte k (l + i)))) ∧
            m.integ.sealMade = s.integ.sealMade + (if e.sv then 0 else 1))) ∧
       (d.op = 1 → ∃ m, exec (.copyComplete t n) s = .next m ∧
         (∀ i, i < 4096 → (m.stack k).byte k (l + i) = readByte st.stg (base + i)) ∧
         sget ({} : SealEntry) (l / 4096) (m.stack k).seals = { crc := st.side (base + 4032), sv := true })) ∧
     (d.fmt = 0xD → d.sealed = false → d.len % 130 = 0 → s.hbmMap d.part d.hbm = some (k, l) →
       (d.op = 0 → ∃ m, exec (.copyComplete t n) s = .next m ∧ ∀ b, b < d.len / 130 →
         (∀ i, i < 128 → readByte (m.stack k).stg (base + 128 * b + i) = st.byte k (l + 130 * b + i)) ∧
         (side m (base + 128 * b)).toNat = (st.byte k (l + 130 * b + 128)).toNat + 256 * (st.byte k (l + 130 * b + 129)).toNat ∧
         side m (base + 128 * b + 64) = 0) ∧
       (d.op = 1 → d.sumsq = false → ∃ m, exec (.copyComplete t n) s = .next m ∧ ∀ b, b < d.len / 130 →
         (∀ i, i < 128 → (m.stack k).byte k (l + 130 * b + i) = readByte st.stg (base + 128 * b + i)) ∧
         (m.stack k).byte k (l + 130 * b + 128) = (st.side (base + 128 * b)).extractLsb' 0 8 ∧
         (m.stack k).byte k (l + 130 * b + 129) = (st.side (base + 128 * b)).extractLsb' 8 8))) ∧
  (∀ (t : TileId) (s : State),
     let x := s.tile t
     let a := s.armLink t
     ((∀ d ∈ x.copies, d.op ≠ 2 ∧ d.op ≠ 3) → exec (.armAccept t) s = .next s) ∧
     (∀ l d r, x.copies = l ++ d :: r → (∀ e ∈ l, e.op ≠ 2 ∧ e.op ≠ 3) → d.op = 2 ∨ d.op = 3 →
       let full : Prop := if d.op = 2 then 16 ≤ a.ins.length else 16 ≤ a.outs.length
       (d.rows * (d.len / 64) ≠ 0 → full → exec (.armAccept t) s = .next s) ∧
       (d.rows * (d.len / 64) = 0 → ∃ m, exec (.armAccept t) s = .next m ∧ OnlyTile t { s with incs := m.incs } m ∧
         m.tile t = { x with copies := l ++ r } ∧ m.incs = s.incs ++ [{ obj := d.obj, amt := 1, unit := .copies t }]) ∧
       (d.rows * (d.len / 64) ≠ 0 → ¬ full → ∃ m, exec (.armAccept t) s = .next m ∧ OnlyTile t { s with arms := m.arms } m ∧
         m.tile t = { x with copies := l ++ r } ∧
         m.armLink t = (if d.op = 2 then { a with ins := a.ins ++ [{ d := d }] } else { a with outs := a.outs ++ [{ d := d }] }) ∧
         ∀ u, u ≠ t → m.armLink u = s.armLink u)) ∧
     (x.working = false → exec (.armInFlit t) s = .next s) ∧
     ∀ k, attachStack t = some k →
       let st := s.stack k
       (∀ f more, a.fromRouter = f :: more → x.working = true → x.fTaken = false →
         (a.ins = [] ∨ f.ord.toNat ≠ a.kIn % 256 → ∃ m, exec (.armInFlit t) s = .next m ∧ (m.tile t).st = 7 ∧
           (m.tile t).fCode.toNat = exchORDER ∧ (m.tile t).fAddr.toNat % 16 = 5)) ∧
       (∀ f more arm rest, a.fromRouter = f :: more → a.ins = arm :: rest → f.ord.toNat = a.kIn % 256 →
         x.working = true → (st.rekeying = true → exec (.armInFlit t) s = .next s) ∧
         (st.rekeying = false → arm.d.aop = 0 → arm.d.sealed = false →
         let base := 65536 * st.stgBase.toNat + arm.d.flitOff arm.n
         let final : Prop := arm.n + 1 = arm.d.rows * (arm.d.len / 64)
         ∃ m, exec (.armInFlit t) s = .next m ∧ OnlyStack k { s with arms := m.arms, incs := m.incs } m ∧
           (∀ i, i < 64 → readByte (m.stack k).stg (base + i) = f.data.extractLsb' (8 * i) 8) ∧
           (∀ b, (b < base ∨ base + 64 ≤ b) → readByte (m.stack k).stg b = readByte st.stg b) ∧
           (m.stack k).side base = f.aux ∧ (m.armLink t).fromRouter = more ∧ (m.armLink t).kIn = a.kIn + 1 ∧
           (final → (m.armLink t).ins = rest ∧ m.incs = s.incs ++ [{ obj := arm.d.obj, amt := 1, unit := .copies t }]) ∧
           (¬ final → m.incs = s.incs ∧ ∃ c h, (m.armLink t).ins = { arm with n := arm.n + 1, crc := c, hold := h } :: rest))) ∧
       (∀ arm rest, a.outs = arm :: rest → x.st = 4 →
         let p := sget ({} : InPort) 4 x.exch.ins
         let off := arm.d.flitOff arm.n
         let base := 65536 * st.stgBase.toNat + off
         let read := st.stgTouch base 64
         let final : Prop := arm.n + 1 = arm.d.rows * (arm.d.len / 64)
         (p.slots ≤ a.kOut ∨ 8 ≤ p.fifo.length ∨ st.rekeying = true → exec (.armOutFlit t) s = .next s) ∧
         (a.kOut < p.slots → p.fifo.length < 8 → st.rekeying = false →
           (read.stgBad base 64 = true → x.fTaken = false →
             ∃ m, exec (.armOutFlit t) s = .next m ∧ (m.tile t).st = 7 ∧ (m.tile t).fCode.toNat = tileUE ∧
               (m.tile t).fAddr.toNat = off % 2 ^ 31 + 2 ^ 31) ∧
           (read.stgBad base 64 = false →
             ∃ m f, exec (.armOutFlit t) s = .next m ∧ OnlyTile t { s.setStack k read with arms := m.arms, incs := m.incs } m ∧
               { m.tile t with exch := { (m.tile t).exch with ins := x.exch.ins } } = x ∧
               (∀ j, j ≠ 4 → sget ({} : InPort) j (m.tile t).exch.ins = sget {} j x.exch.ins) ∧
               sget ({} : InPort) 4 (m.tile t).exch.ins = { p with fifo := p.fifo ++ [f] } ∧
               (∀ i, i < 64 → f.data.extractLsb' (8 * i) 8 = readByte st.stg (base + i)) ∧ f.ord.toNat = a.kOut % 256 ∧
               f.aux = st.side base ∧ (m.armLink t).kOut = a.kOut + 1 ∧
               (final → (m.armLink t).outs = rest ∧ m.incs = s.incs ++ [{ obj := arm.d.obj, amt := 1, unit := .copies t }]) ∧
               (¬ final → m.incs = s.incs ∧ (m.armLink t).outs = { arm with n := arm.n + 1 } :: rest))))) ∧
  (∀ (t : TileId) (s : State) (k : Nat) (f : Flit) (more : List Flit) (arm : Arm) (rest : List Arm),
     let x := s.tile t
     let a := s.armLink t
     let st := s.stack k
     let off := arm.d.flitOff arm.n
     let base := 65536 * st.stgBase.toNat + off
     let faults (code addr : Nat) (m : State) : Prop :=
       (m.tile t).st = 7 ∧ (m.tile t).fCode.toNat = code ∧ (m.tile t).fAddr.toNat = addr % 2 ^ 31 + 2 ^ 31
     let next (m : State) (y : Arm) : Prop := OnlyStack k { s with arms := m.arms, incs := m.incs } m ∧
       (m.armLink t).fromRouter = more ∧ (m.armLink t).kIn = a.kIn + 1 ∧
       (if arm.n + 1 = arm.d.rows * (arm.d.len / 64)
        then (m.armLink t).ins = rest ∧ m.incs = s.incs ++ [{ obj := arm.d.obj, amt := 1, unit := .copies t }]
        else m.incs = s.incs ∧ ∃ c, (m.armLink t).ins = { y with n := arm.n + 1, crc := c } :: rest)
     let kept (m : State) (a n : Nat) : Prop := ∀ b, (b < a ∨ a + n ≤ b) → readByte (m.stack k).stg b = readByte st.stg b
     attachStack t = some k → a.fromRouter = f :: more → a.ins = arm :: rest → f.ord.toNat = a.kIn % 256 → x.working = true →
     st.rekeying = false → st.stgErr = [] → arm.d.aop = 1 →
     (arm.d.fmt = 1 ∨ arm.d.fmt = 3 → arm.d.sealed = false → arm.hold = none →
       (st.stgBad base 64 = true → x.fTaken = false → ∃ m, exec (.armInFlit t) s = .next m ∧ faults tileUE off m ∧
         (m.stack k).copyPoison = satInc st.copyPoison) ∧
       (st.stgBad base 64 = false → ∃ m, exec (.armInFlit t) s = .next m ∧ next m arm ∧ kept m base 64 ∧
         (m.stack k).side base = 0 ∧
         (arm.d.fmt = 1 → ∀ i < 16, readLE (m.stack k).stg (base + 4 * i) 4 = roundF fp32 .rne
           ((decodeF fp32 (readLE st.stg (base + 4 * i) 4)).add (decodeF fp32 (f.data.toNat / 2 ^ (32 * i) % 2 ^ 32)))) ∧
         (arm.d.fmt = 3 → ∀ i < 32, readLE (m.stack k).stg (base + 2 * i) 2 = roundF bf16 .rne
           ((decodeF bf16 (readLE st.stg (base + 2 * i) 2)).add (decodeF bf16 (f.data.toNat / 2 ^ (16 * i) % 2 ^ 16)))))) ∧
     (arm.d.fmt = 0xD → arm.d.sealed = false →
       (arm.hold = none → ∃ m, exec (.armInFlit t) s = .next m ∧ next m { arm with hold := some f } ∧ m.stack k = st) ∧
       ∀ f0, arm.hold = some f0 → 64 ≤ base →
         (st.stgBad (base - 64) 128 = true → x.fTaken = false → ∃ m, exec (.armInFlit t) s = .next m ∧
           faults tileUE (off - 64) m ∧ (m.stack k).copyPoison = satInc st.copyPoison) ∧
         (st.stgBad (base - 64) 128 = false → ∃ m, exec (.armInFlit t) s = .next m ∧ next m { arm with hold := none } ∧
           kept m (base - 64) 128 ∧
           (m.stack k).stgBlock (base - 64) =
             (st.stgBlock (base - 64)).add (g16Of (flitBytes f0.data ++ flitBytes f.data) (f0.aux.toNat % 2 ^ 16)))) ∧
     (arm.d.sealed = true → x.fTaken = false → arm.hold = none → arm.d.fmt = 1 ∨ arm.d.fmt = 3 →
       (arm.n % 64 = 0 → crc32c (readBytes st.stg base 4096) ≠ st.side (base + 4032) →
         ∃ m, exec (.armInFlit t) s = .next m ∧ faults sealFAULT off m ∧ m.integ.sealErr = satInc s.integ.sealErr ∧
           m.stack k = st) ∧
       (∀ pre, arm.n % 64 = 63 → arm.crc = crcStep 0xFFFFFFFF pre → st.stgBad base 64 = false →
         (crc32c (pre ++ flitBytes f.data) ≠ f.aux → ∃ m, exec (.armInFlit t) s = .next m ∧ faults sealFAULT (off - 4032) m ∧
           m.integ.sealErr = satInc s.integ.sealErr) ∧
         (crc32c (pre ++ flitBytes f.data) = f.aux → 4032 ≤ base → base % 64 = 0 → ∃ m, exec (.armInFlit t) s = .next m ∧ next m arm ∧
           kept m base 64 ∧ (m.stack k).side base = crc32c (readBytes (m.stack k).stg (base - 4032) 4096)))))

/-- NARROW_ELEMENT and NARROW_REPLY (R339–R343, R348). Element i lies at HBM_ADDR + index × 2^SCALE and joins the gather unit of its
stack; an address that is misaligned or outside the partition raises TILE_ADDR with the shelf address of the index. The gather unit
serves it: GATHER reads the element, SCATTER writes it, SCATTER_OP combines it unless the unit is poisoned. The reply lands in the
shelves. When a gather unit serves what waits is assumption 35.

SENTINEL_COMPARE (R513, R514): the partner of tile T in the superstep recomputes the oldest item of T, a row with the stationary
operand that the item brings or that its sentinel register holds, and keeps that operand. Every comparison is counted; a mismatch is
counted, recorded with both IDs, and raises SENTINEL in T with the partner's ID. What a defect does to the partner's arithmetic is the
operand `flip` (assumption 56). -/
def Obligations.NarrowAndSentinel : Prop :=
  (∀ (t : TileId) (n : Nat) (s : State) (d : CopyDesc), (s.tile t).copies[n]? = some d →
     let x := s.tile t
     (d.op < 4 ∨ d.len ≤ d.formed → exec (.narrowElement t n) s = .next s) ∧
     (let es := 8 * 2 ^ d.esize
      let ia := d.idx + 4 * d.formed
      let da := d.data + es * d.formed
      let ha := d.hbm + readLE x.shelf ia 4 * 2 ^ d.scale
      let size := if d.op = 6 ∧ d.fmt = 0xD then 32 else es
      let wrong : Prop := ha % size ≠ 0 ∨ s.psize d.part < ha + size
      4 ≤ d.op → d.formed < d.len → (∀ e ∈ x.copies.take n, e.op < 2 ∨ 4 ≤ e.op ∧ e.len ≤ e.formed) → x.bad = [] →
       landsOn x ia 4 = false → (d.op = 4 ∨ landsOn x da es = false) →
       (wrong → x.task = d.task → x.working = true → x.fTaken = false → x.drained = true →
         ∃ m, exec (.narrowElement t n) s = .next m ∧ (m.tile t).st = 7 ∧ (m.tile t).fCode.toNat = tileADDR ∧
           (m.tile t).fAddr.toNat = ia % 2 ^ 32) ∧
       (wrong → x.task = d.task → x.drained = false → exec (.narrowElement t n) s = .next s) ∧
       (wrong → x.task ≠ d.task →
         MakesTile (.narrowElement t n) t s { x with copies := x.copies.set n { d with len := d.formed, silent := true } }) ∧
       (∀ k l, ¬ wrong → s.hbmMap d.part ha = some (k, l) →
         let q : NarrowReq := {
           tile := t, num := d.num, op := d.op, fmt := d.fmt, aop := d.aop, es := es, addr := l, da := da
           ea := toSigned 8 (s.part d.part).g16aExp.toNat
           opnd := if d.op = 4 then [] else readBytes x.shelf da es }
         ∃ m, exec (.narrowElement t n) s = .next m ∧ OnlyTile t { s with hbm := m.hbm } m ∧
           m.tile t = { x with copies := x.copies.set n { d with formed := d.formed + 1 } } ∧
           m.stack k = { s.stack k with narrowQ := (s.stack k).narrowQ ++ [q] } ∧ ∀ j, j ≠ k → m.stack j = s.stack j)) ∧
     (let lands (m : State) (r : NarrowReply) (poisoned : List Nat) : Prop :=
        (m.tile t).copies = x.copies.set n { d with answered := d.answered + 1, poisoned := poisoned } ∧
        { m.tile t with copies := x.copies, shelf := x.shelf, bad := x.bad } = x ∧
        (∀ i v, r.data[i]? = some v → readByte (m.tile t).shelf (r.addr + i) = v) ∧
        (∀ b, (b < r.addr ∨ r.addr + r.data.length ≤ b) → readByte (m.tile t).shelf b = readByte x.shelf b) ∧
        ∀ w, (m.tile t).mark w = (if w ∈ wordsOf r.addr r.data.length then (if r.poison then 3 else 0) else x.mark w)
      (∀ k r, replyFrom t d.num s = some (k, r) → ∃ m, exec (.narrowReply t n) s = .next m ∧ OnlyTile t { s with hbm := m.hbm } m ∧
        m.stack k = { s.stack k with narrowOut := (s.stack k).narrowOut.erase r } ∧ (∀ j, j ≠ k → m.stack j = s.stack j) ∧
        lands m r (if r.poison then d.poisoned ++ [k] else d.poisoned)) ∧
      (replyFrom t d.num s = none → (∀ k < 12, ∀ q ∈ (s.stack k).narrowQ, q.tile ≠ t ∨ q.num ≠ d.num) →
        exec (.narrowReply t n) s = .next s) ∧
      ∀ k q, k < 12 → (s.stack k).narrowQ = [q] → q.tile = t → q.num = d.num → (s.stack k).rekeying = false → NoneModified s →
        (∀ j < 12, j ≠ k → ∀ p ∈ (s.stack j).narrowQ, p.tile ≠ t ∨ p.num ≠ d.num) →
        (∀ j < 12, ∀ r ∈ (s.stack j).narrowOut, r.tile ≠ t) →
        let st := s.stack k
        let line : Bool := q.op = 6 ∧ q.fmt = 0xD
        let size := if line then 32 else q.es
        let old := (List.range size).map (fun i => st.byte k (q.addr + i))
        let poison := sget false (q.addr / 64) st.poison
        q.es = 8 ∨ q.es = 16 → q.addr % 64 + size ≤ 64 → sget 0 (q.addr / 64) st.bad ≠ 2 →
        let serves (l : Nat) (b data : List Byte) (bad : Bool) : Prop := ∃ m, exec (.narrowReply t n) s = .next m ∧
          (m.stack k).narrowQ = [] ∧ (m.stack k).narrow = st.narrow + 1 ∧ WritesBytes s m k l b ∧
          lands m ⟨t, q.num, q.da, data, bad⟩ (if bad then d.poisoned ++ [k] else d.poisoned)
        (q.op = 4 → serves 0 [] old poison) ∧
        (q.op = 5 → q.opnd.length = q.es → serves q.addr q.opnd [] false) ∧
        (q.op = 6 → poison = true → serves 0 [] [] true) ∧
        (q.op = 6 → poison = false → q.opnd.length = q.es → q.fmt = 0 ∨ q.fmt = 1 ∨ q.fmt = 3 ∨ q.fmt = 0xF →
          serves q.addr (lanesOp q.fmt q.aop old q.opnd) [] false) ∧
        (q.op = 6 → poison = false → q.fmt = 0xD →
          (∀ v, accumLine q.ea old q.opnd = some v → serves q.addr v [] false) ∧
          (accumLine q.ea old q.opnd = none → serves 0 [] [] false ∧
            ∃ m, exec (.narrowReply t n) s = .next m ∧ (m.stack k).g16aRange = satAdd st.g16aRange 1 ∧
              (m.stack k).wr = st.wr)))) ∧
  (∀ (t : TileId) (flip : List Row) (s : State),
     let x := s.tile t
     let dd := (s.runOf t).sentD
     let e := x.sstep.toNat / (if dd = 0 then 1 else dd)
     let u : TileId := if e % 2 = 0 then t ^^^ 1 else t ^^^ 32
     (x.sent = [] → exec (.sentinelCompare t flip) s = .next s) ∧
     ∀ it rest, x.sent = it :: rest →
       let reg := (s.tile u).sentReg
       let sound := it.recompute reg
       let answer := sound.zipIdx.map (fun c => c.1 ^^^ flip.getD c.2 0)
       let common (m : State) : Prop := m.tile u = { s.tile u with sentReg := it.stat.getD reg } ∧
         ∀ v, v ≠ t → v ≠ u → m.tile v = s.tile v
       (it.isRow = true → sound =
         [packRow 32 (productRow it.semi.toNat it.fmt.toNat it.moving it.scale.toNat (it.stat.getD reg))]) ∧
       (flip = [] → answer = sound) ∧
       (it.result = answer → ∃ m, exec (.sentinelCompare t flip) s = .next m ∧
         { m with tiles := s.tiles } = { s with integ := { s.integ with sentChecks := s.integ.sentChecks + 1 } } ∧
         m.tile t = { x with sent := rest } ∧ common m) ∧
       (it.result ≠ answer → x.working = true → x.fTaken = false →
         ∃ m, exec (.sentinelCompare t flip) s = .next m ∧ (m.tile t).st = 7 ∧ (m.tile t).fCode = 0x0B ∧ (m.tile t).fPc = it.pc ∧
           (m.tile t).fAddr.toNat = u.toNat ∧ common m ∧ m.integ = { s.integ with
             sentChecks := s.integ.sentChecks + 1, sentMismatch := satInc s.integ.sentMismatch
             sentLast := BitVec.ofNat 32 (2 ^ 31 + u.toNat * 2 ^ 16 + t.toNat) }))

/-! ### HBM and the host's accesses -/

/-- REFRESH_BOUNDARY, REFRESH_WINDOW, HBM_HOT, HBM_STG_WIN_WRITE and HBM_IMAP_COMMIT (R325, R326, R344, R346, R493). HBM_CTL takes effect
at a boundary, never inside a window; above 85 °C the refresh rate doubles; the staging window moves only while its owner runs nothing;
a commit is refused as BUSY or INVALID and then changes nothing, or puts every pending window in force at once.

Encryption at rest (R349, R509): each 16-byte block that a stack's DRAM holds is the AES-256-XTS of the bytes under the stack's keys
in force, in data units of 4 KiB numbered 2^32 × stack + ⌊local address / 4,096⌋; no two units of the module share a number, and a host
write changes the ciphertext of its own line alone. That keys are free, and that a seal entry is encrypted as the block behind the 256 of
its unit, is assumption 31.

REKEY (R350–R352, R476): a write of HBM_KEYCTL.REKEY holds new accesses; the command ends it: the elements that wait are served first, then a fresh key under which no byte has been written, staging
zeroed, the engine and WSQ cleared, and every line that the host may cache back-invalidated; the settings of the stack stay, and so do
its counters where no narrow element waited. While a re-key is in progress no access is served (R351). Poison and
error marks go with the bytes (assumption 31). -/
def Obligations.HbmSettingsAndRekeys : Prop :=
  (∀ (k : Fin 12) (s : State),
     let x := s.stack k.val
     (x.window = true → exec (.refreshBoundary k) s = .next s) ∧
     (x.window = false → MakesStack (.refreshBoundary k) k.val s { x with ctlAct := x.ctl }) ∧
     (let per := 1000 * bits x.ctlAct.toNat 15 8
      let pos := (s.time.toNat + per - (1000 * bits x.ctlAct.toNat 7 0) % per) % per
      let len := (if x.hot then 70 else 40) * bits x.ctlAct.toNat 15 8
      (x.window = true → len ≤ pos → MakesStack (.refreshWindow k) k.val s { x with window := false, ctlAct := x.ctl }) ∧
      (x.window = true → pos < len → exec (.refreshWindow k) s = .next s) ∧
      (x.window = false → bits x.ctlAct.toNat 31 30 = 1 → pos < len →
        MakesStack (.refreshWindow k) k.val s { x with window := true }) ∧
      (x.window = false → bits x.ctlAct.toNat 31 30 ≠ 1 ∨ len ≤ pos → exec (.refreshWindow k) s = .next s)) ∧
     (∀ temp, MakesStack (.hbmHot k temp) k.val s { x with temp := temp, hot := decide (85 < temp.toNat) }) ∧
     (∀ v : BitVec 32, s.responds = true →
       let busy : Prop := ∃ p, x.owner = some p ∧ s.runsOf p ≠ []
       (busy ∨ 512 < v.toNat / 65536 + v.toNat % 65536 → exec (.hbmStgWinWrite k v) s = .next s) ∧
       (¬ busy → v.toNat / 65536 + v.toNat % 65536 ≤ 512 → MakesStack (.hbmStgWinWrite k v) k.val s
         { x with stgBase := v.extractLsb' 16 16, stgSize := v.extractLsb' 0 16 })) ∧
     ∀ p : BitVec 5, s.responds = true →
       let q := s.part p.toNat
       let l := (List.range 8).map (fun i => sget 0 i q.iwin)
       let valid := l.filter (fun w => w.getLsbD 31)
       let makes (y : Part) : Prop := ∃ m, exec (.hbmImapCommit p) s = .next m ∧ { m with parts := s.parts } = s ∧
         m.part p.toNat = y ∧ ∀ j, j ≠ p.toNat → m.part j = s.part j
       let busy : Prop := s.runsOf p.toNat ≠ [] ∨ s.copying p.toNat = true
       let bad : Prop := valid ≠ l.take valid.length ∨
         (∃ w ∈ valid, w.toNat % 4096 = 0 ∨ bits w.toNat 30 24 = 0 ∨
           ∃ i, i < 12 ∧ w.getLsbD i = true ∧ (s.stack i).owner ≠ some p.toNat) ∨
         ∃ i, i < 12 ∧ 96 < stackGib l i
       (busy → makes { q with imapResult := 2 }) ∧ (¬ busy → bad → makes { q with imapResult := 3 }) ∧
         (¬ busy → ¬ bad → makes { q with iwinAct := q.iwin, imapResult := 1 })) ∧
  ((∀ k l a b, k < 12 → l < 12 → a < 96 * 2 ^ 30 → b < 96 * 2 ^ 30 →
     (dataUnit k a = dataUnit l b ↔ k = l ∧ a / 4096 = b / 4096)) ∧
   ∀ (k : Fin 12) (s : State),
     let x := s.stack k.val
     let sealed (y : Stack) (n : Nat) (b : List Byte) : Prop :=
       y.cipherBlock k.val n = xtsBlock (y.keys k.val).1 (y.keys k.val).2 (2 ^ 32 * k.val + n / 256) (n % 256) b
     (∀ n, sealed x n ((List.range 16).map (fun i => x.byte k.val (16 * n + i)))) ∧
     (∀ u, let e := sget ({} : SealEntry) u x.seals
       x.cipherSeal k.val u = xtsBlock (x.keys k.val).1 (x.keys k.val).2 (2 ^ 32 * k.val + u) 256
         (leBytes 16 (e.crc.toNat + b2n e.sv * 2 ^ 32 + b2n e.g * 2 ^ 33))) ∧
     (s.cxl.ready = true → s.cxl.cmFailed = false → s.dim.banked = false → x.rekeying = false → x.owner ≠ none → x.narrowQ = [] →
       ∀ (a : BitVec 64) (u : Nat) (data : BitVec 512), s.hdmUnit a.toNat = some (k.val, u) →
         ∃ m, exec (.hostMemWrite a data (-1) false) s = .next m ∧
           (∀ j < 4, sealed (m.stack k.val) (4 * u + j) (leBytes 16 (data.toNat / 2 ^ (128 * j) % 2 ^ 128))) ∧
           ∀ n, n / 4 ≠ u → (m.stack k.val).cipherBlock k.val n = x.cipherBlock k.val n)) ∧
  (∀ (k : Fin 12) (s : State),
     let x := s.stack k.val
     (∀ who (v : BitVec 32), s.reaches who = true → s.start.recovery = false → (∀ q, who ≠ .vf q) → v.getLsbD 31 = true →
       MakesStack (.registerWrite (.bar0 who (BitVec.ofNat 26 (0x60014 + 0x1000 * k.val)) v)) k.val s { x with rekeying := true }) ∧
     (x.rekeying = false ∨ s.rebind.erases k.val = true → exec (.rekey k) s = .next s) ∧
     (x.rekeying = true → s.rebind.erases k.val = false → ∃ m, exec (.rekey k) s = .next m ∧
       (let y := m.stack k.val
        y.keyValid = true ∧ y.gen = x.gen + 1 ∧ y.rekeys = x.rekeys + 1 ∧
        (∀ a, y.byte k.val a = Config.unwritten k.val (x.rekeys + 1) a) ∧ (∀ u, y.anyPoison [u] = false) ∧ y.bad = [] ∧
        y.rekeying = false ∧ y.narrowQ = [] ∧ y.found = [] ∧
        (∀ a, readByte y.stg a = 0 ∧ y.side a = 0) ∧ y.stgPoison = [] ∧ y.stgErr = [] ∧ y.wsq = {} ∧ y.seals = [] ∧ y.snooped = [] ∧
        y.eng.es = [] ∧ y.eng.ps = [] ∧ y.eng.xs = [] ∧ y.eng.prog = [] ∧ y.eng.queue = [] ∧ y.eng.phase = 0 ∧
        y.owner = x.owner ∧ y.hot = x.hot ∧ y.temp = x.temp ∧ y.ctl = x.ctl ∧ y.ctlAct = x.ctlAct ∧ y.stgBase = x.stgBase ∧
        y.stgSize = x.stgSize ∧
        (x.narrowQ = [] → y.ce = x.ce ∧ y.ue = x.ue ∧ y.rd = x.rd ∧ y.wr = x.wr ∧ y.narrow = x.narrow)) ∧
       (∀ j, j ≠ k.val → (m.stack j).cells = (s.stack j).cells ∧ (m.stack j).keyValid = (s.stack j).keyValid ∧
         (m.stack j).stg = (s.stack j).stg) ∧
       (x.narrowQ = [] → ∀ e ∈ x.snooped, (k.val, e.1, true) ∈ m.bisnp) ∧ ∀ t, m.tile t = s.tile t))

/-- HOST_MEM_READ, HOST_MEM_WRITE and ATS_INVALIDATION (R347, R348, R351, R466, R471–R475, R483, R540). An access is not served while
the link is down, its IDE stream is insecure, the module is Banked, which it wakes, or the stack is being re-keyed. An address that no decoder maps here
is an unsupported request; a stack without an owner answers poison and discards writes, counted; a poisoned unit answers poison; else
a read returns the 64 bytes and a write changes the bytes that its mask names, after the narrow elements that arrived before it (R333). The snoop filter records what the host keeps, and the
module's idleness ends. The exit from Banked at the event is assumption 27.

HOST_STREAM_FLIT (R467, R478–R482, R487): the stream holds while the link is down. An inbound flit enters the ATTACH input with its
ordinal, an outbound flit goes to host memory after its ordinal check. Poison raises TILE_UE; a failed translation is counted and raises
TILE_ADDR with the stream offset; a flit beyond the length raises EXCH_ORDER. -/
def Obligations.HostAccesses : Prop :=
  (∀ (a : BitVec 64) (s : State),
     let at_ := s.hdmUnit a.toNat
     let busy : State := { s with dim := { s.dim with busyM := s.time.toNat } }
     (∀ cache met data mask keep, s.cxl.ready = false ∨ s.cxl.cmFailed = true →
       exec (.hostMemRead a cache met) s = .next s ∧ exec (.hostMemWrite a data mask keep) s = .next s) ∧
     (∀ cache met data mask keep, s.cxl.ready = true → s.cxl.cmFailed = false → s.dim.banked = true ∨
         (∃ k u, at_ = some (k, u) ∧ (s.stack k).rekeying = true) →
       exec (.hostMemRead a cache met) s = .next busy.wakeModule ∧
       exec (.hostMemWrite a data mask keep) s = .next busy.wakeModule) ∧
     (s.cxl.ready = true → s.cxl.cmFailed = false → s.dim.banked = false →
       (∀ cache met data mask keep, at_ = none →
         exec (.hostMemRead a cache met) s = .next { busy with reply := [1] } ∧
         exec (.hostMemWrite a data mask keep) s = .next { busy with reply := [1] }) ∧
       ∀ k u, at_ = some (k, u) → (s.stack k).rekeying = false →
         let x := s.stack k
         (∀ cache met data mask keep, x.owner = none →
           let counted : State := { busy with cxl := { s.cxl with unowned := satInc s.cxl.unowned } }
           exec (.hostMemRead a cache met) s = .next { counted with reply := [0, 1] } ∧
           exec (.hostMemWrite a data mask keep) s = .next { counted with reply := [0] }) ∧
         (∀ q, x.owner ≠ none → x.narrowQ = [q] → q.op = 5 → q.addr / 64 = u → q.addr % 64 + q.opnd.length ≤ 64 → q.opnd.length = q.es →
           NoneModified s → sget 0 u x.bad = 0 → ∃ m, exec (.hostMemRead a 0 0) s = .next m ∧ (m.stack k).narrowQ = [] ∧
             ∀ i v, q.opnd[i]? = some v → (m.stack k).byte k (q.addr + i) = v) ∧
         (x.narrowQ = [] →
         (x.owner ≠ none → sget 0 u x.bad = 0 → x.snooped.length < 32768 → ∀ cache : BitVec 2,
           ∃ m, exec (.hostMemRead a cache 0) s = .next m ∧ OnlyStack k { busy with reply := m.reply } m ∧
             m.stack k = { x with
               rd := x.rd + 1
               snooped := if cache = 0 then x.snooped else x.snooped.filter (fun e => e.1 ≠ u) ++ [(u, decide (cache = 2))] } ∧
             (sget false u x.poison = true → m.reply = [0, 1]) ∧
             (sget false u x.poison = false → m.reply = [0, 0] ++ (List.range 8).map (fun i =>
               BitVec.ofNat 64 (leNat ((List.range 8).map (fun j => x.byte k (64 * u + 8 * i + j))))))) ∧
         (x.owner ≠ none → sget 0 u x.bad = 0 → sget false u x.poison = false →
           (∃ m, exec (.hostMemRead a 0 1) s = .next m ∧ m.reply.take 2 = [0, 0] ∧ (m.stack k).ce = satInc x.ce ∧
             (m.stack k).ue = x.ue) ∧
           ∃ m, exec (.hostMemRead a 0 2) s = .next m ∧ m.reply = [0, 1] ∧
             (m.stack k).ue = satInc x.ue ∧ (m.stack k).ueAddr = BitVec.ofNat 32 (2 ^ 31 + u) ∧
             sget false u (m.stack k).poison = true ∧ (0, 1) ∈ m.msix ∧ (∃ e ∈ m.events, e.source = 3 ∧ e.code = 1 ∧ e.unit = k) ∧
             m.cxlEvts = s.cxlEvts ++ [⟨false, 96 * 2 ^ 30 * k + 64 * u, 1, s.time.toNat⟩, ⟨true, 96 * 2 ^ 30 * k + 64 * u, 1, s.time.toNat⟩]) ∧
         (x.owner ≠ none → ∀ data mask, ∃ m, exec (.hostMemWrite a data mask false) s = .next m ∧ m.reply = [0] ∧
           (∀ i, i < 64 → (m.stack k).byte k (64 * u + i) =
             (if mask.getLsbD i then data.extractLsb' (8 * i) 8 else x.byte k (64 * u + i))) ∧
           (∀ b, (b < 64 * u ∨ 64 * u + 64 ≤ b) → (m.stack k).byte k b = x.byte k b) ∧
           (∀ e ∈ (m.stack k).snooped, e.1 ≠ u) ∧ m.dim = busy.dim ∧ ∀ j, j ≠ k → m.stack j = s.stack j) ∧
         (x.owner ≠ none → x.snooped.length < 32768 → ∀ data mask, ∃ m, exec (.hostMemWrite a data mask true) s = .next m ∧
           (u, false) ∈ (m.stack k).snooped))) ∧
     ∀ fn page, exec (.atsInvalidation fn page) s = .next { s with cxl := { s.cxl with
       atc := s.cxl.atc.filter (fun e => e.1 ≠ fn.toNat || e.2.1 ≠ page.toNat) } }) ∧
  (∀ (t : TileId) (data : BitVec 512) (s : State),
     let x := s.tile t
     let a := s.armLink t
     let i := sget ({} : InPort) 4 x.exch.ins
     let stops (e : Instr) (code addr : Nat) : Prop := ∃ m, exec e s = .next m ∧ (m.tile t).st = 7 ∧ (m.tile t).fCode.toNat = code ∧
       (m.tile t).fAddr.toNat = addr
     (∀ out how, s.cxl.ready = false → exec (.hostStreamFlit t out data how) s = .next s) ∧
     (∀ q, s.cxl.ready = true → (s.runOf t).streams.find? (fun c => c.1 = t.toNat) = some (t.toNat, q) →
       let off := 64 * q.kIn % 2 ^ 31 + 2 ^ 31
       let fn := (s.runOf t).part + 1
       let passes (a : Nat) : Prop := s.hostBlocked fn a = false
       let from_ := q.inAddr.toNat + 64 * q.kIn
       (∀ how, (x.st ≠ 4 ∨ i.slots ≤ a.kOut ∨ 8 ≤ i.fifo.length) → exec (.hostStreamFlit t false data how) s = .next s) ∧
       (x.st = 4 → a.kOut < i.slots → i.fifo.length < 8 →
         (q.inLen ≤ 64 * q.kIn → x.fTaken = false → ∀ how,
           stops (.hostStreamFlit t false data how) exchORDER (a.kOut % 256 * 2 ^ 24 + 2 ^ 8 + 5)) ∧
         (64 * q.kIn < q.inLen →
           (x.fTaken = false → passes from_ → stops (.hostStreamFlit t false data 1) tileUE off) ∧
           (x.fTaken = false → ∀ how : BitVec 2, 2 ≤ how.toNat ∨ ¬ passes from_ →
             ∃ m, exec (.hostStreamFlit t false data how) s = .next m ∧ (m.tile t).st = 7 ∧ (m.tile t).fCode.toNat = tileADDR ∧
               (m.tile t).fAddr.toNat = off ∧ m.cxl.xlateErr = satInc s.cxl.xlateErr) ∧
           (passes from_ → ∃ m, exec (.hostStreamFlit t false data 0) s = .next m ∧ (m.armLink t).kOut = a.kOut + 1 ∧
             (sget ({} : InPort) 4 (m.tile t).exch.ins).fifo = i.fifo ++ [⟨data, BitVec.ofNat 8 a.kOut, 0⟩] ∧
             (∀ u, u ≠ t → m.tile u = s.tile u) ∧
             (sget false fn s.cxl.ats = false → m.hostOut = s.hostOut ++ [⟨fn, .memRd, q.inAddr.toNat + 64 * q.kIn, []⟩]) ∧
             (m.run x.task).streams = sins t.toNat { q with kIn := q.kIn + 1 } (s.run x.task).streams))) ∧
       (∀ f more, a.fromRouter = f :: more →
         (x.working = false → ∀ how, exec (.hostStreamFlit t true data how) s = .next s) ∧
         (x.working = true → 64 * q.kOut < q.outLen → f.ord.toNat = a.kIn % 256 →
           let addr := q.outAddr.toNat + 64 * q.kOut
           (passes addr → ∃ m, exec (.hostStreamFlit t true data 0) s = .next m ∧ (m.armLink t).fromRouter = more ∧
             (m.armLink t).kIn = a.kIn + 1 ∧
             (sget false fn s.cxl.ats = false → m.hostOut = s.hostOut ++ [⟨fn, .memWr, addr, flitBytes f.data⟩]) ∧
             (∀ page, sget false fn s.cxl.ats = true → s.cxl.cachedPage fn (addr / 4096) = some page →
               m.hostOut = s.hostOut ++ [⟨fn, .wrCur, 4096 * page + addr % 4096 / 64 * 64, flitBytes f.data⟩]) ∧
             ∀ u, m.tile u = s.tile u) ∧
           (x.fTaken = false → ∀ how, how ≠ 0 ∨ ¬ passes addr → ∃ m, exec (.hostStreamFlit t true data how) s = .next m ∧
             (m.tile t).st = 7 ∧ (m.tile t).fCode.toNat = tileADDR ∧
             (m.tile t).fAddr.toNat = 64 * q.kOut % 2 ^ 31 + 2 ^ 31 ∧ m.cxl.xlateErr = satInc s.cxl.xlateErr ∧
             (m.armLink t).fromRouter = more ∧ (m.armLink t).kIn = a.kIn)) ∧
         (q.outLen ≤ 64 * q.kOut ∨ f.ord.toNat ≠ a.kIn % 256 → x.working = true → x.fTaken = false → ∀ how,
           ∃ m, exec (.hostStreamFlit t true data how) s = .next m ∧ (m.tile t).st = 7 ∧ (m.tile t).fCode.toNat = exchORDER))))

/-! ### Update engines -/

/-- The registers and jobs of an engine (R358, R369–R371, R373, R378, Table 12-10). A doorbell write queues the job unless 64 are
queued, and wakes a Banked module, in which no job starts (R540); program words and clears wait for an idle engine; ABORT and RESUME act on a halted one. A job is checked, waits for its
target, zeroes e0–e15 and loads P0–P15; a fault halts the engine, records its group and causes a record; the end signals. The
exit from Banked at the event is assumption 27. -/
def Obligations.EngineJobs : Prop :=
  ∀ (k : Fin 12) (s : State),
    let x := s.stack k.val
    let e := x.eng
    let sets (i : Instr) (y : Engine) : Prop := MakesStack i k.val s { x with eng := y }
    let rings (y : Engine) : Prop := ∃ m, exec (.ueDoorbell k) s = .next m ∧ (m.engine k.val) = y ∧
      (s.dim.banked = false → OnlyStack k.val { s with dim := { s.dim with busyM := s.time.toNat } } m ∧ m.stack k.val = { x with eng := y }) ∧
      (s.dim.banked = true → s.start.lmcWait = false → m.dim.banked = false)
    (s.responds = true →
    (64 ≤ e.queue.length → rings { e with doorbell := 2 }) ∧
    (e.queue.length < 64 → ∃ j : Job, (∀ i, i < 48 → jobWord j i = (sget 0 i e.jobRegs).toNat) ∧
      rings { e with queue := e.queue ++ [j], doorbell := if e.halted then 3 else 1 }) ∧
    (∀ v, (e.phase ≠ 0 → sets (.ueProgDataWrite k v) e) ∧
      (e.phase = 0 → ∃ m, exec (.ueProgDataWrite k v) s = .next m ∧ OnlyStack k.val s m ∧
        { m.stack k.val with eng := { (m.engine k.val) with prog := e.prog, progAddr := e.progAddr } } = x ∧
        (m.engine k.val).progAddr = e.progAddr + 1 ∧ sget 0 e.progAddr.toNat (m.engine k.val).prog = v ∧
        ∀ i, i ≠ e.progAddr.toNat → sget 0 i (m.engine k.val).prog = sget 0 i e.prog)) ∧
    (e.phase ≠ 0 → MakesStack (.clrWsq k) k.val s x ∧ MakesStack (.clrX k) k.val s x) ∧
    (e.phase = 0 → MakesStack (.clrWsq k) k.val s { x with wsq := {} } ∧ sets (.clrX k) { e with xs := [] }) ∧
    sets (.snap k) { e with wsqF64 := BitVec.ofNat 64 (roundF fp64 .rne x.wsq.value) } ∧
    (e.halted = true → sets (.ueAbort k) { e with queue := [], halted := false } ∧ sets (.ueResume k) { e with halted := false }) ∧
    (e.halted = false → MakesStack (.ueAbort k) k.val s x ∧ MakesStack (.ueResume k) k.val s x)) ∧
    (e.queue = [] ∨ e.halted = true ∨ 2 ≤ e.phase ∨ s.dim.banked = true → exec (.ueJobStart k) s = .next s) ∧
    (∀ j r, e.queue = j :: r → e.halted = false → s.dim.banked = false →
      let part := x.owner.getD 0
      let obj (v : Nat) : Nat := (s.translate part v).getD 0
      let begun (y : Engine) : Prop := y.phase = 2 ∧ y.ip = jobEntry j ∧ y.group = (if e.phase = 0 then 0 else e.group) ∧
        y.queue = e.queue ∧ (∀ r l, y.lane r l = 0) ∧ (∀ i, i < 16 → y.p i = jobWord j (10 + i)) ∧
        y.key = deriveKey (jobSeed j) (jobStream j) ∧ y.xs = e.xs ∧ y.prog = e.prog
      (∀ c, e.phase = 0 → jobFault s k.val j = some c → ∃ m, exec (.ueJobStart k) s = .next m ∧
        OnlyStack k.val { s with events := m.events } m ∧
        m.stack k.val = { x with eng := { e with
          group := 0, queue := r, phase := 0, writes := [], reducing := none, total := none, halted := true, faultValid := true
          faultCode := BitVec.ofNat 8 c, faultGroup := 0 } } ∧
        ∃ v ∈ m.events, v.source = 4 ∧ v.code = c ∧ v.unit = k.val) ∧
      (jobWaitEn j = true → s.translate part (jobWaitVid j) = none → jobFault s k.val j = some 3) ∧
      (jobSigEn j = true → s.translate part (jobSigVid j) = none → jobFault s k.val j = some 3) ∧
      (hasRed e (jobEntry j) = false → (jobWaitEn j = true → s.translate part (jobWaitVid j) ≠ none) →
        (jobSigEn j = true → s.translate part (jobSigVid j) ≠ none) → progOf e (jobEntry j) = none → jobFault s k.val j = some 1) ∧
      (e.phase = 0 → jobFault s k.val j = none →
        let o := obj (jobWaitVid j)
        let waits : Prop := jobWaitEn j = true ∧ 2 ^ 31 ≤ ((s.obj o).value - jobTarget j).toNat
        (waits → sets (.ueJobStart k) { e with
          group := 0, phase := 1, waitObj := o, sigObj := obj (jobSigVid j), redObj := obj (jobRedVid j)
          redLamp := (s.xlateEntry part (jobRedVid j)).getLsbD 30 }) ∧
        (¬ waits → ∃ m, exec (.ueJobStart k) s = .next m ∧ OnlyStack k.val s m ∧ begun (m.engine k.val))) ∧
      (e.phase = 1 →
        (jobWaitEn j = true → 2 ^ 31 ≤ ((s.obj e.waitObj).value - jobTarget j).toNat → exec (.ueJobStart k) s = .next s) ∧
        (((s.obj e.waitObj).value - jobTarget j).toNat < 2 ^ 31 → ∃ m, exec (.ueJobStart k) s = .next m ∧ OnlyStack k.val s m ∧
          begun (m.engine k.val)))) ∧
    (e.queue = [] ∨ e.phase ≠ 4 → exec (.ueJobEnd k) s = .next s) ∧
    (∀ j r, e.queue = j :: r → e.phase = 4 → ∃ m, exec (.ueJobEnd k) s = .next m ∧ OnlyStack k.val { s with incs := m.incs } m ∧
      m.stack k.val = { x with eng := { e with queue := r, phase := 0 } } ∧
      m.incs = s.incs ++ (if jobSigEn j then [{ obj := e.sigObj, amt := 1, unit := .engine k.val }] else []))

/-- The words of a microprogram on the engine's registers, and a group of the body (R370, R374–R376, Table 12-6). A word runs when it is
the next word of a running job that waits for no total; a lane word writes e[D] in the active lanes alone; the next word follows.
UE_GROUP runs the words of the body one after another until the group ends, the job stops or a RED waits. -/
def Obligations.EngineWords : Prop :=
  ∀ (k : Fin 12) (s : State) (j : Job) (r : List Job), (s.engine k.val).queue = j :: r →
    let x := s.stack k.val
    let e := x.eng
    let w := sget 0 e.ip e.prog
    let act := min 64 (jobNelem j - 64 * e.group)
    let words : List (Instr × Nat) := [(.ueNop k, 0), (.ueBody k, 1), (.ueEnd k, 2), (.lds k, 3), (.sts k, 4), (.ueMov k, 5), (.ueAdd k, 6),
      (.ueSub k, 7), (.ueMul k, 8), (.ueFma k, 9), (.ueDiv k, 10), (.ueSqrt k, 11), (.ueMin k, 12), (.ueMax k, 13), (.ueAbs k, 14),
      (.ueNeg k, 15), (.ueSel k, 16), (.cmp k, 17), (.accsq k, 18), (.xclr k, 19), (.red k, 20), (.sop k, 21)]
    let a (l : Nat) : Fx := f32 (e.lane (uA w) l)
    let rb (l : Nat) : Nat := if uBS w then e.p (uB w) else e.lane (uB w) l
    let rc (l : Nat) : Nat := if uCS w then e.p (uC w) else e.lane (uC w) l
    let lanes (i : Instr) (op : Nat) (f : Nat → Nat) : Prop := uOp w = op → ∃ m, exec i s = .next m ∧ OnlyStack k.val s m ∧
      { m.stack k.val with eng := { (m.engine k.val) with es := e.es, ip := e.ip } } = x ∧ (m.engine k.val).ip = e.ip + 1 ∧
      (∀ l, l < act → (m.engine k.val).lane (uD w) l = f l % 2 ^ 32) ∧
      ∀ q l, l < 64 → (q ≠ uD w ∨ act ≤ l) → (m.engine k.val).lane q l = e.lane q l
    let sets (i : Instr) (y : Engine) : Prop := MakesStack i k.val s { x with eng := y }
    (∀ c ∈ words, (e.phase ≠ 2 ∧ e.phase ≠ 3 ∨ e.reducing ≠ none ∨ uOp w ≠ c.2) → exec c.1 s = .next s) ∧
    ((e.phase = 2 ∨ e.phase = 3) → e.reducing = none →
      lanes (.ueMov k) 5 rb ∧ lanes (.ueAdd k) 6 (fun l => r32 ((a l).add (f32 (rb l)))) ∧
      lanes (.ueSub k) 7 (fun l => r32 ((a l).sub (f32 (rb l)))) ∧ lanes (.ueMul k) 8 (fun l => r32 ((a l).mul (f32 (rb l)))) ∧
      lanes (.ueFma k) 9 (fun l => r32 (((a l).mul (f32 (rb l))).add (f32 (rc l)))) ∧
      lanes (.ueDiv k) 10 (fun l => r32 ((a l).div (f32 (rb l)))) ∧ lanes (.ueSqrt k) 11 (fun l => r32 (a l).sqrt) ∧
      lanes (.ueMin k) 12 (fun l => r32 ((a l).minNum (f32 (rb l)))) ∧ lanes (.ueMax k) 13 (fun l => r32 ((a l).maxNum (f32 (rb l)))) ∧
      lanes (.ueAbs k) 14 (fun l => r32 (a l).abs) ∧ lanes (.ueNeg k) 15 (fun l => r32 (a l).neg) ∧
      lanes (.ueSel k) 16 (fun l => if (a l).isZero then rc l else rb l) ∧
      lanes (.cmp k) 17 (fun l => if (match uMode w with
        | 0 => (a l).eq (f32 (rb l))
        | 1 => (a l).lt (f32 (rb l))
        | 2 => (a l).lt (f32 (rb l)) || (a l).eq (f32 (rb l))
        | _ => !(a l).eq (f32 (rb l))) then 0x3F800000 else 0) ∧
      (uOp w = 0 → sets (.ueNop k) { e with ip := e.ip + 1 }) ∧
      (uOp w = 18 → ∃ m, exec (.accsq k) s = .next m ∧ OnlyStack k.val s m ∧
        { m.stack k.val with eng := { (m.engine k.val) with xs := e.xs, ip := e.ip } } = x ∧ (m.engine k.val).ip = e.ip + 1 ∧
        (m.engine k.val).x (uS w) = (List.range act).foldl (fun y l => y.addSq (a l)) (e.x (uS w)) ∧
        ∀ q, q ≠ uS w → (m.engine k.val).x q = e.x q) ∧
      (uOp w = 19 → ∃ m, exec (.xclr k) s = .next m ∧ OnlyStack k.val s m ∧
        { m.stack k.val with eng := { (m.engine k.val) with xs := e.xs, ip := e.ip } } = x ∧ (m.engine k.val).ip = e.ip + 1 ∧
        (m.engine k.val).x (uS w) = {} ∧ ∀ q, q ≠ uS w → (m.engine k.val).x q = e.x q) ∧
      (uOp w = 21 → ∃ m, exec (.sop k) s = .next m ∧ OnlyStack k.val s m ∧
        { m.stack k.val with eng := { (m.engine k.val) with ps := e.ps, ip := e.ip } } = x ∧ (m.engine k.val).ip = e.ip + 1 ∧
        (let pa := e.p (uA w)
         let pb := e.p (uB w)
         (m.engine k.val).p (uD w) = (match uMode w with
           | 0 => r32 ((f32 pa).add (f32 pb))
           | 1 => r32 ((f32 pa).sub (f32 pb))
           | 2 => r32 ((f32 pa).mul (f32 pb))
           | 3 => r32 ((f32 pa).div (f32 pb))
           | 4 => r32 (f32 pa).sqrt
           | 5 => r32 ((f32 pa).minNum (f32 pb))
           | _ => r32 ((f32 pa).maxNum (f32 pb))) % 2 ^ 32) ∧
        ∀ q, q ≠ uD w → (m.engine k.val).p q = e.p q) ∧
      (uOp w = 1 → sets (.ueBody k) { e with
        ip := e.ip + 1, bodyIp := e.ip + 1, phase := if jobNelem j = 0 then 4 else 3, group := 0 })) ∧
    (e.phase ≠ 3 → exec (.ueGroup k) s = .next s) ∧
    (e.phase = 3 → ∃ m l, exec (.ueGroup k) s = .next m ∧ runAll l s = .next m ∧ l.length ≤ 256 ∧ (∀ i ∈ l, i ∈ words.map (·.1)) ∧
      ((m.engine k.val).phase ≠ 3 ∨ (m.engine k.val).group ≠ e.group ∨ (m.engine k.val).reducing ≠ none ∨ l.length = 256 ∨
        l.getLast? = some (.ueEnd k)))

/-- LDS, STS and END (R351, R372, R374, R376–R378). While the stack is being re-keyed, LDS and END hold. LDS gives the group's elements as FP32, +0 in inactive lanes, or stops the job at a poisoned
unit; STS adds converted bytes to the group's writes; END applies them all at once, or none of them where a read-merge is poisoned, and
goes on to the next group or to the end of the job.

RED and RED_RESULT (R358, R360, R361, R363, R375). A RED contributes WSQ, which it clears, or X[S], and waits; when every stack of the
partition has contributed, the exact sum rounded once to FP64 returns to them, or becomes the module total that enters the Lampline.
T writes P[D] by its mode, and the last result adds 1 to the object. -/
def Obligations.EngineMemoryAndReductions : Prop :=
  (∀ (k : Fin 12) (s : State) (j : Job) (r : List Job), (s.engine k.val).queue = j :: r →
     let x := s.stack k.val
     let e := x.eng
     let w := sget 0 e.ip e.prog
     let act := min 64 (jobNelem j - 64 * e.group)
     let fmt := strFmt j (uS w)
     let size := if fmt = 1 then 4 else 2
     let at0 := strAddr j (uS w) + (if fmt = 0xD then 130 * e.group else size * (64 * e.group))
     let len := if fmt = 0xD then 130 else size * act
     let stopped (m : State) : Prop := (m.engine k.val).halted = true ∧ (m.engine k.val).phase = 0 ∧ (m.engine k.val).writes = [] ∧
       (m.engine k.val).queue = r ∧ (m.engine k.val).faultValid = true ∧ (m.engine k.val).faultCode = 4 ∧
       (m.engine k.val).faultGroup = BitVec.ofNat 32 e.group ∧ (∀ a, (m.stack k.val).byte k.val a = x.byte k.val a) ∧ m.incs = s.incs
     (x.rekeying = true → exec (.lds k) s = .next s ∧ exec (.ueEnd k) s = .next s) ∧
     ((e.phase = 2 ∨ e.phase = 3) → e.reducing = none → x.rekeying = false → Undisturbed s →
     (∀ loc, uOp w = 3 → s.hbmMap (x.owner.getD 0) at0 = some (k.val, loc) →
       ((∃ u ∈ unitsOf loc len, sget false u x.poison = true) → ∃ m, exec (.lds k) s = .next m ∧ stopped m) ∧
       (x.bad = [] → x.poison = [] → (∀ i, i < len → overlapped j (at0 + i) = false) →
         let b := (List.range len).map (fun i => x.byte k.val (loc + i))
         ∃ m, exec (.lds k) s = .next m ∧ (m.engine k.val).ip = e.ip + 1 ∧ (m.engine k.val).writes = e.writes ∧
           (∀ l, l < 64 → act ≤ l → (m.engine k.val).lane (uD w) l = 0) ∧
           (∀ l, l < act → (m.engine k.val).lane (uD w) l = (if fmt = 0xD then r32 ((g16From b).value l)
             else if fmt = 1 then leNat ((b.drop (4 * l)).take 4)
             else r32 (elemFx fmt (leNat ((b.drop (2 * l)).take 2)))) % 2 ^ 32) ∧
           (∀ q l, l < 64 → q ≠ uD w → (m.engine k.val).lane q l = e.lane q l) ∧
           (∀ a, (m.stack k.val).byte k.val a = x.byte k.val a) ∧
           (m.engine k.val).hole = (if fmt = 0xD ∧ (g16From b).flags.testBit 0 = true then satInc e.hole else e.hole) ∧
           (m.engine k.val).late = (if fmt = 0xD ∧ (g16From b).flags.testBit 1 = true then satInc e.late else e.late) ∧
           (m.engine k.val).satblk = (if fmt = 0xD ∧ (g16From b).flags.testBit 2 = true then satInc e.satblk else e.satblk))) ∧
     (∀ loc, uOp w = 4 → fmt ≠ 0xD → s.hbmMap (x.owner.getD 0) at0 = some (k.val, loc) →
       (∀ i, i < len → overlapped j (at0 + i) = false) →
       let code (l : Nat) : Nat := if fmt = 1 then e.lane (uA w) l
         else toElem fmt (stsRnd e (uRM w) (jobElem0 j + 64 * e.group + l)) (f32 (e.lane (uA w) l))
       ∃ m ws, exec (.sts k) s = .next m ∧ OnlyStack k.val s m ∧
         m.stack k.val = { x with eng := { e with writes := e.writes ++ ws, ip := e.ip + 1 } } ∧
         ∀ a b, (a, b) ∈ ws ↔ ∃ l i, l < act ∧ i < size ∧ a = loc + size * l + i ∧ (leBytes size (code l))[i]? = some b) ∧
     (uOp w = 2 → e.phase = 2 → exec (.ueEnd k) s = .next s) ∧
     (uOp w = 2 → e.phase = 3 →
       ((∃ u ∈ partialUnits e.writes, sget false u x.poison = true) → ∃ m, exec (.ueEnd k) s = .next m ∧ stopped m) ∧
       (x.bad = [] → (∀ u ∈ partialUnits e.writes, sget false u x.poison = false) →
         let more : Prop := e.group + 1 < (jobNelem j + 63) / 64
         ∃ m, exec (.ueEnd k) s = .next m ∧ (m.engine k.val).writes = [] ∧ (m.engine k.val).elems = e.elems + BitVec.ofNat 64 act ∧
           (more → (m.engine k.val).group = e.group + 1 ∧ (m.engine k.val).ip = e.bodyIp ∧ (m.engine k.val).phase = 3) ∧
           (¬ more → (m.engine k.val).phase = 4) ∧ (m.engine k.val).queue = e.queue ∧
           (∀ a, (∀ c ∈ e.writes, c.1 ≠ a) → (m.stack k.val).byte k.val a = x.byte k.val a) ∧
           (∀ l a b t, e.writes = l ++ (a, b) :: t → (∀ c ∈ t, c.1 ≠ a) → (m.stack k.val).byte k.val a = b) ∧
           (∀ i, i ≠ k.val → m.stack i = s.stack i) ∧ ∀ t, m.tile t = s.tile t)))) ∧
  (∀ (k : Fin 12) (s : State) (j : Job) (r : List Job), (s.engine k.val).queue = j :: r →
     let x := s.stack k.val
     let e := x.eng
     let w := sget 0 e.ip e.prog
     let p := x.owner.getD 0
     let o := e.redObj
     let src := if (uMode w).testBit 2 then x.wsq else e.x (uS w)
     let parts := (s.red o).parts ++ [(k.val, src)]
     let all : Prop := ∀ i, i < 12 → (s.stack i).owner = some p → ∃ c ∈ parts, c.1 = i
     let total : BitVec 64 := BitVec.ofNat 64 (roundF fp64 .rne ((parts.map (·.2)).foldl XAcc.sum {}).value)
     let lamp := e.redLamp
     ((e.phase = 2 ∨ e.phase = 3) → e.reducing = none → uOp w = 0x14 → x.owner = some p →
       ∃ m, exec (.red k) s = .next m ∧
         (let y := m.stack k.val
          y.wsq = (if (uMode w).testBit 2 then {} else x.wsq) ∧ y.eng.reducing = some w ∧ y.eng.ip = e.ip ∧ y.eng.xs = e.xs) ∧
         (¬ all → (m.red o).parts = parts ∧ OnlyStack k.val { s with reds := m.reds } m) ∧
         (all → lamp = true → m.red o = { parts := [], total := some total, waiting := parts.map (·.1) }) ∧
         (all → lamp = false → (m.red o).parts = [] ∧ (m.red o).total = none ∧ (m.red o).waiting = parts.map (·.1) ∧
           ∀ c ∈ parts, (m.engine c.1).total = some total)) ∧
     (e.reducing = none ∨ e.total = none → exec (.redResult k) s = .next s) ∧
     ∀ v t, e.reducing = some v → e.total = some t →
       let left := (s.red o).waiting.filter (· ≠ k.val)
       let b := f32 (e.p (uB v))
       ∃ m, exec (.redResult k) s = .next m ∧ (m.engine k.val).reducing = none ∧ (m.engine k.val).total = none ∧
         (m.engine k.val).ip = e.ip + 1 ∧ (∀ q, q ≠ uD v → (m.engine k.val).p q = e.p q) ∧ (m.red o).waiting = left ∧
         (left ≠ [] → m.objs = s.objs) ∧
         (left = [] → (s.obj o).bound = false → (m.obj o).value = (s.obj o).value + 1) ∧
         (let pd := (m.engine k.val).p (uD v)
          let tv := decodeF fp64 t.toNat
          (uMode v % 4 = 0 → pd = r32 tv % 2 ^ 32) ∧ (uMode v % 4 = 1 → pd = r32 (decodeF fp64 (roundF fp64 .rne tv.sqrt)) % 2 ^ 32) ∧
          (uMode v % 4 = 2 → tv.isNan = true ∨ b.isNan = true → pd = 0x7FC00000) ∧
          (uMode v % 4 = 2 → tv.isNan = false → b.isNan = false → tv.isZero = true → pd = 0x3F800000) ∧
          (uMode v % 4 = 2 → b.isNan = false → tv = .inf false → pd = 0) ∧
          (uMode v % 4 = 2 → tv.isNan = false → b.isNan = false → tv.isZero = false → tv ≠ .inf false →
            pd = r32 ((Fx.fin false 1 0).minNum (decodeF fp64 (roundF fp64 .rne
              (b.div (decodeF fp64 (roundF fp64 .rne tv.sqrt)))))) % 2 ^ 32)))

/-! ### The Sideboard -/

/-- SB_ENABLE, SB_DISABLE, SB_SUBQ_TAIL, SB_CPLQ_HEAD, COMPLETION_RECORD_WRITE, PART_SYNC_WRITE and PART_RECMAX_WRITE (R431, R440, R451,
R467, R470, R505, R506). Enabling checks the configuration and empties both queues. A held record is written at the tail, PHASE inverts
as the tail wraps, and a write that fails loses its record. A sync range is applied while the partition runs nothing and where it meets
no other. That an empty range at base 0 counts as legal and that a limit above 262,144 is ignored are the model's choices (assumption
12). -/
def Obligations.SideboardQueues : Prop :=
  ∀ (p : BitVec 5) (s : State),
    let q := s.part p.toNat
    let b := q.sb
    let makes (i : Instr) (y : Part) : Prop := ∃ m, exec i s = .next m ∧ { m with parts := s.parts } = s ∧
      m.part p.toNat = y ∧ ∀ j, j ≠ p.toNat → m.part j = s.part j
    let legal : Prop := b.subqBase.toNat % 4096 = 0 ∧ b.cplqBase.toNat % 4096 = 0 ∧ b.nblBase.toNat % 65536 = 0 ∧
      4 ≤ b.subqSize.toNat ∧ b.subqSize.toNat ≤ 16 ∧ 6 ≤ b.cplqSize.toNat ∧ b.cplqSize.toNat ≤ 20
    let after : BitVec 20 := BitVec.ofNat 20 ((b.cplqTail.toNat + 1) % 2 ^ b.cplqSize.toNat)
    (s.responds = true →
    (b.enable = true → exec (.sbEnable p) s = .next s) ∧
    (b.enable = false → legal → makes (.sbEnable p) { q with sb := { b with
      enable := true, cfgErr := false, subqHead := 0, subqTail := 0, cplqHead := 0, cplqTail := 0, phase := true } }) ∧
    (b.enable = false → ¬ legal → makes (.sbEnable p) { q with sb := { b with cfgErr := true } }) ∧
    makes (.sbDisable p) { q with sb := { b with enable := false } } ∧
    (∀ i, (2 ^ b.subqSize.toNat ≤ i.toNat → exec (.sbSubqTail p i) s = .next s) ∧
      (i.toNat < 2 ^ b.subqSize.toNat → makes (.sbSubqTail p i) { q with sb := { b with subqTail := i } }) ∧
      (2 ^ b.cplqSize.toNat ≤ i.toNat → exec (.sbCplqHead p i) s = .next s) ∧
      (i.toNat < 2 ^ b.cplqSize.toNat → makes (.sbCplqHead p i) { q with sb := { b with cplqHead := i } }))) ∧
    (∀ ok, b.held = [] ∨ s.cxl.ready = false ∨ after = b.cplqHead → exec (.completionRecordWrite p ok) s = .next s) ∧
    (∀ c r, b.held = c :: r → s.cxl.ready = true → after ≠ b.cplqHead →
      let a := b.cplqBase.toNat + 32 * b.cplqTail.toNat
      let rec_ := leBytes 32 (c ||| (if b.phase then 1#256 <<< 191 else 0)).toNat
      let ats := sget false (p.toNat + 1) s.cxl.ats
      let sent (l : List HostReq) : Prop := ∃ m, exec (.completionRecordWrite p true) s = .next m ∧
        { m with parts := s.parts, hostOut := s.hostOut, msix := s.msix, flags := s.flags } = s ∧
        m.part p.toNat = { q with sb := { b with
          held := r ++ b.stall.take 1, stall := b.stall.drop 1, cplqTail := after
          phase := if after = 0 then !b.phase else b.phase } } ∧
        (∀ j, j ≠ p.toNat → m.part j = s.part j) ∧ m.msix = s.msix ++ [(0, 4 + p.toNat), (p.toNat + 1, 0)] ∧
        (sget 0 (32 * p.toNat) m.flags).getLsbD 0 = true ∧ m.hostOut = s.hostOut ++ l
      let lost (l : List HostReq) : Prop := ∃ m, exec (.completionRecordWrite p false) s = .next m ∧ m.hostOut = s.hostOut ++ l ∧
        m.msix = s.msix ∧ m.part p.toNat = { q with sb := { b with held := r ++ b.stall.take 1, stall := b.stall.drop 1 } } ∧
        m.cxl.xlateErr = satInc s.cxl.xlateErr ∧ ∃ e ∈ m.events, e.source = 6 ∧ e.code = 1 ∧ e.unit = 0
      (ats = false → s.ioLost (p.toNat + 1) = false → sent [⟨p.toNat + 1, .memWr, a, rec_⟩]) ∧
      (ats = false → lost [⟨p.toNat + 1, .memWr, a, rec_⟩]) ∧
      (ats = true → lost []) ∧
      ∀ page, ats = true → s.cxl.cmFailed = false → s.cxl.cachedPage (p.toNat + 1) (a / 4096) = some page →
        sent [⟨p.toNat + 1, .wowrInv (BitVec.ofNat 64 ((2 ^ 32 - 1) * 2 ^ (a % 64))), 4096 * page + a % 4096 / 64 * 64, rec_⟩]) ∧
    ∀ v : BitVec 32, s.responds = true →
      let base := bits v.toNat 30 16
      let count := bits v.toNat 15 0
      let meets : Prop := ∃ j, j < 32 ∧ j ≠ p.toNat ∧ 0 < count ∧ 0 < (s.part j).syncCount.toNat ∧
        base < (s.part j).syncBase.toNat + (s.part j).syncCount.toNat ∧ (s.part j).syncBase.toNat < base + count
      let fits : Prop := (base = 0 ∧ count = 0) ∨ (16384 ≤ base ∧ count ≤ 16384 ∧ base + count ≤ 32768)
      (s.runsOf p.toNat ≠ [] ∨ meets ∨ ¬ fits → exec (.partSyncWrite p v) s = .next { s with rebind := { s.rebind with result := 3 } }) ∧
      (s.runsOf p.toNat = [] → ¬ meets → fits → ∃ m, exec (.partSyncWrite p v) s = .next m ∧
        { m with parts := s.parts, objs := s.objs } = s ∧ (∀ j, j ≠ p.toNat → m.part j = s.part j) ∧
        m.part p.toNat = { q with syncBase := v.extractLsb' 16 15, syncCount := v.extractLsb' 0 16 } ∧
        ∀ o, (base ≤ o → o < base + count → (o < q.syncBase.toNat ∨ q.syncBase.toNat + q.syncCount.toNat ≤ o) → m.obj o = {}) ∧
          ((o < base ∨ base + count ≤ o ∨ (q.syncBase.toNat ≤ o ∧ o < q.syncBase.toNat + q.syncCount.toNat)) →
            m.obj o = s.obj o)) ∧
      (v.toNat % 2 ^ 19 ≤ 262144 → makes (.partRecmaxWrite p v) { q with recMax := v.extractLsb' 0 19 }) ∧
      (262144 < v.toNat % 2 ^ 19 → exec (.partRecmaxWrite p v) s = .next s)

/-- GRAPH_ADMISSION (R29, R439–R441, R467). The Sideboard serves nothing while it is disabled, the link is down, a warning or the start
holds it, the queue is empty or 16 graphs run; one in Banked wakes the module first (R540). A graph whose records do not fit waits, and so
does one whose prepared NBL lies on a stack that is being re-keyed (R351); one above PART_RECMAX, or whose descriptor or
records break R441, or that could not be read, is refused: its head entry passes, GRAPH_VID is signalled where it is mapped, its record
says REFUSED and no task of it is taken. Any other graph is taken whole. What a refused graph's record holds in ATTEMPT, BLOCK and
REL_ID is free (assumption 20); the exit from Banked at the event is assumption 27. -/
def Obligations.GraphAdmission : Prop :=
  ∀ (p : BitVec 5) (d : BitVec 512) (tasks : List (BitVec 512)) (edges : List (BitVec 16)) (s : State),
    let q := s.part p.toNat
    let b := q.sb
    let n := bits d.toNat 255 239
    let nedges := bits d.toNat 223 192
    let vid := bits d.toNat 235 224
    let serves : Prop := b.enable = true ∧ s.cxl.ready = true ∧ s.pins.warn = false ∧ s.pins.warnOff ≤ s.time.toNat ∧
      s.start.phase = 0xFF ∧ s.start.exhausted = false ∧ b.subqHead ≠ b.subqTail ∧
      (s.graphs.filter (fun g => g.part = p.toNat)).length < 16
    let passed : BitVec 20 := BitVec.ofNat 20 ((b.subqHead.toNat + 1) % 2 ^ b.subqSize.toNat)
    let fits : Prop := s.recUsed p.toNat + n ≤ q.recMax.toNat ∧ s.recAll + n ≤ 262144
    let bad (i : Nat) (w : BitVec 512) : Prop :=
      let nbl := bits w.toNat 63 32
      let np := bits w.toNat 191 176
      (∃ u ∈ predsOf edges w, i ≤ u) ∨ (8 < np ∧ nedges < bits w.toNat 159 128 + (np - 8)) ∨
      (nbl ≠ 0 ∧ ∀ e, s.nblEntry p.toNat nbl = some e →
        let f := (s.prep p.toNat e).file
        bits w.toNat 31 28 ≠ nblW f ∨ bits w.toNat 27 25 ≠ nblH f ∨
          (nblArgsLen f ≠ 0 ∧ s.psize p.toNat < bits w.toNat 127 64 + nblArgsLen f)) ∨
      s.translate p.toNat (bits w.toNat 21 10) = none ∨ s.stageWindow p.toNat < 65536 * bits w.toNat 9 0 ∨
      bits w.toNat 175 160 ≠ 0 ∨ bits w.toNat 511 448 ≠ 0
    let broken : Prop := bits d.toNat 238 236 ≠ 0 ∨ bits d.toNat 511 256 ≠ 0 ∨ s.translate p.toNat vid = none ∨
      ∃ i w, tasks[i]? = some w ∧ bad i w
    let held : Prop := ∃ w ∈ tasks, bits w.toNat 63 32 ≠ 0 ∧ s.nblHeld p.toNat (bits w.toNat 63 32) = true
    let refused (unread : BitVec 2) : Prop := ∃ m c, exec (.graphAdmission p d tasks edges unread true) s = .next m ∧
      m.graphs = s.graphs ∧ (m.part p.toNat).sb = { b with subqHead := passed, held := [c] } ∧
      bits c.toNat 63 0 = bits d.toNat 63 0 ∧ bits c.toNat 127 64 = 0 ∧ bits c.toNat 190 188 = 2 ∧ bits c.toNat 187 184 = 5 ∧
      bits c.toNat 183 176 = 0 ∧ bits c.toNat 255 192 = n ∧
      (∀ o, s.translate p.toNat vid = some o → m.incs = s.incs ++ [{ obj := o, amt := 1 }]) ∧
      (s.translate p.toNat vid = none → m.incs = s.incs) ∧ (∀ t, m.tile t = s.tile t) ∧
      m.cxl.xlateErr = (if unread = 0 then s.cxl.xlateErr else satInc s.cxl.xlateErr)
    (¬ serves → ∀ unread ok, exec (.graphAdmission p d tasks edges unread ok) s = .next s) ∧
    (serves → s.dim.banked = true → ∀ unread ok, exec (.graphAdmission p d tasks edges unread ok) s = .next s.wakeModule) ∧
    (s.dim.banked = true → s.start.lmcWait = false → s.wakeModule.dim.banked = false) ∧
    (serves → s.dim.banked = false → sget false (p.toNat + 1) s.cxl.ats = false → s.ioLost (p.toNat + 1) = false → Undisturbed s →
      tasks.length = n → edges.length = nedges →
      (n ≤ q.recMax.toNat → ¬ fits ∨ held → ∀ unread ok, unread ≠ 1 → (fits → unread = 0) → ∃ m, exec (.graphAdmission p d tasks edges unread ok) s = .next m ∧
        { m with hostOut := s.hostOut } = s) ∧
      (b.held = [] → BitVec.ofNat 20 ((b.cplqTail.toNat + 1) % 2 ^ b.cplqSize.toNat) = b.cplqHead →
        (q.recMax.toNat < n → refused 0) ∧ (fits → n ≤ q.recMax.toNat → ¬ held → broken → refused 0) ∧ (fits → n ≤ q.recMax.toNat → refused 2)) ∧
      (fits → n ≤ q.recMax.toNat → ¬ held → ¬ broken → n ≠ 0 → ∀ ok, ∃ m, exec (.graphAdmission p d tasks edges 0 ok) s = .next m ∧
        { m with parts := s.parts, graphs := s.graphs, graphNum := s.graphNum, hostOut := s.hostOut, hbm := s.hbm, bisnp := s.bisnp
                 events := s.events, cxlEvts := s.cxlEvts, msix := s.msix } = s ∧ WritesBytes s m 0 0 [] ∧
        (∃ l, m.hostOut = s.hostOut ++ l ∧ ∀ r ∈ l, r.fn = p.toNat + 1 ∧ r.op = .memRd) ∧
        m.part p.toNat = { q with sb := { b with subqHead := passed } } ∧ (∀ j, j ≠ p.toNat → m.part j = s.part j) ∧
        m.graphNum = s.graphNum + 1 ∧
        m.graphs = s.graphs ++ [⟨s.graphNum, p.toNat, d, tasks.map (fun w => { word := w, preds := predsOf edges w })⟩]))

/-- PLACEMENT_PASS (R443–R445, R450). While a warning or the start holds placement no footprint is taken. The first task in order that
is ready is placed at the lowest admissible free position, with the lowest free staging offset, under the next task serial; one that
finds no position, as on a lantern (R421), is passed over and counts it; one whose prepared NBL a re-key holds stays as it is (R351).
A placement wakes the module and the blocks of its footprint, unless the Lamplighter is restarting (R540, R551). A ready empty task ends OK without being placed, and its graph with it. -/
def Obligations.Placement : Prop :=
  ∀ (ok : Bool) (s : State),
    (∀ (g : Graph) (t : TaskRec) (more : List Graph) (rest : List TaskRec),
      s.graphs = g :: more → g.tasks = t :: rest → t.st = 0 → t.preds = [] → (∀ h ∈ more, h.num ≠ g.num) →
      (∀ h ∈ s.graphs, ∀ u ∈ h.tasks, h.ready u = true → bits u.word.toNat 63 32 ≠ 0) → Undisturbed s →
      (s.pins.warn = true ∨ s.time.toNat < s.pins.warnOff ∨ s.start.phase ≠ 0xFF → exec (.placementPass ok) s = .next s) ∧
      (s.pins.warn = false → s.pins.warnOff ≤ s.time.toNat → s.start.phase = 0xFF → (s.part g.part).sb.held.length < 256 →
        s.nblHeld g.part t.nbl = true → ∃ m h, exec (.placementPass ok) s = .next m ∧ m.graph g.num = some h ∧ h.tasks[0]? = some t) ∧
      (s.pins.warn = false → s.pins.warnOff ≤ s.time.toNat → s.start.phase = 0xFF → (s.part g.part).sb.held.length < 256 →
        s.nblHeld g.part t.nbl = false → (∀ c ∈ s.runs, sget false c.1 s.live = true → c.2.by0 + c.2.h ≤ 4) →
        let free (b : Nat) : Prop := s.admissible g.part t b = true ∧
          ∀ i j, i < t.w → j < t.h →
            (∀ c ∈ s.runs, sget false c.1 s.live = true →
              ¬ (c.2.bx0 ≤ b / 4 + i ∧ b / 4 + i < c.2.bx0 + c.2.w ∧ c.2.by0 ≤ b % 4 + j ∧ b % 4 + j < c.2.by0 + c.2.h)) ∧
            s.rebinding (4 * (b / 4 + i) + b % 4 + j) = false
        let fits (o : Nat) : Prop := o + t.stage ≤ s.stageWindow g.part ∧
          ∀ c ∈ s.runs, sget false c.1 s.live = true → c.2.part = g.part → t.stage = 0 ∨ c.2.stgSize = 0 ∨
            o + t.stage ≤ c.2.stgOff ∨ c.2.stgOff + c.2.stgSize ≤ o
        (∀ b o, s.lantern = false → b < 32 → free b → (∀ a, a < b → ¬ free a) → fits o → (∀ a, a < o → ¬ fits a) →
          ∃ m, exec (.placementPass ok) s = .next m ∧ sget false (s.serial + 1) m.live = true ∧
            m.run (s.serial + 1) = { part := g.part, graph := g.num, index := 0, nbl := t.nbl, bx0 := b / 4, by0 := b % 4,
                                     w := t.w, h := t.h, stgOff := o, stgSize := t.stage } ∧
            (∃ h, m.graph g.num = some h ∧ h.tasks[0]? = some { t with st := 1, skips := 0, serial := s.serial + 1 }) ∧
            (s.start.lmcWait = true ∨ (s.dim.banked = false ∧ s.dim.pilot = 0) → m.tiles = s.tiles) ∧
            (s.start.lmcWait = false → m.dim.banked = false ∧ ∀ i j, i < t.w → j < t.h →
              m.dim.pilot.getLsbD (4 * (b / 4 + i) + b % 4 + j) = false) ∧
            WritesBytes s m 0 0 [] ∧ m.objs = s.objs) ∧
        ((∀ b, b < 32 → ¬ free b) ∨ s.lantern = true → t.skips < 64 →
          ∃ m h, exec (.placementPass ok) s = .next m ∧ m.graph g.num = some h ∧
            h.tasks[0]? = some { t with skips := t.skips + 1 }))) ∧
    ∀ (g : Graph) (t : TaskRec),
      let b := (s.part g.part).sb
      s.graphs = [g] → g.tasks = [t] → t.st = 0 → t.preds = [] → bits t.word.toNat 63 32 = 0 → b.held = [] →
      BitVec.ofNat 20 ((b.cplqTail.toNat + 1) % 2 ^ b.cplqSize.toNat) = b.cplqHead →
      ∃ m c e, exec (.placementPass true) s = .next m ∧ m.graphs = [] ∧ (m.part g.part).sb = { b with
          tasks := b.tasks + 1, held := [c, e] } ∧ m.tiles = s.tiles ∧ m.live = s.live ∧
        bits c.toNat 63 0 = bits t.word.toNat 383 320 ∧ bits c.toNat 190 176 = 0b001_0000_00000000 ∧ bits c.toNat 151 144 = 0xFF ∧
        bits e.toNat 63 0 = bits g.desc.toNat 63 0 ∧ bits e.toNat 190 176 = 0b010_0000_00000000 ∧ bits e.toNat 255 192 = 0 ∧
        (∀ o u, s.translate g.part (bits t.word.toNat 21 10) = some o → s.translate g.part (bits g.desc.toNat 235 224) = some u →
          m.incs = s.incs ++ [{ obj := o, amt := 1 }, { obj := u, amt := 1 }])

/-- TASK_END (R24, R27, R288, R289, R447, R448, R450, R451). A task that is not over stays. One that is over leaves its record, OK, FAULT
with the code and relative ID of its first fault, LINK_LOSS, REVOKED, or RERUN for an attempt that is made again; it signals CPL_VID
unless it runs again, its footprint is released, and tasks that wait for a failed one end CANCELLED. A residue raises SYNC_RESIDUE.
While 256 records are held the task keeps its footprint. -/
def Obligations.TaskEnds : Prop :=
  ∀ (k : Nat) (s : State),
    let r := s.run k
    (∀ ok, s.taskOver k = false → exec (.taskEnd k ok) s = .next s) ∧
    ∀ (g : Graph) (t : TaskRec), s.taskOver k = true → s.graph r.graph = some g → g.tasks[r.index]? = some t → r.signalled = false →
      let b := (s.part g.part).sb
      let clean : Prop := r.stop = none ∧ r.fault = none ∧ ∀ y ∈ r.syncs, y.check = true →
        (s.obj y.obj).arrived = 0 ∧ (s.obj y.obj).value = y.start + y.net
      let max := (s.part g.part).rerunMax.toNat
      let rerun : Prop := t.word.getLsbD 23 = true ∧ t.attempts ≤ max
      let ends (status code rel : Nat) (tile : TileId) (signals : Bool) (m : State) : Prop := ∃ c l, (m.part g.part).sb.held = c :: l ∧
        bits c.toNat 63 0 = bits t.word.toNat 383 320 ∧ bits c.toNat 127 64 = k % 2 ^ 64 ∧ bits c.toNat 190 188 = 1 ∧
        bits c.toNat 187 184 = status ∧ bits c.toNat 183 176 = code ∧ bits c.toNat 175 160 = r.index % 65536 ∧
        bits c.toNat 159 152 = t.attempts % 256 ∧ bits c.toNat 151 144 = (4 * r.bx0 + r.by0) % 256 ∧
        (status = 1 → bits c.toNat 143 133 = rel) ∧ bits c.toNat 255 192 = (s.tile tile).sstep.toNat ∧
        sget false k m.live = false ∧ m.run k = {} ∧
        (∀ i, i < r.size → (s.tile (r.tileAt i)).task = k → (m.tile (r.tileAt i)).st = 0) ∧
        (∀ o, s.translate g.part (bits t.word.toNat 21 10) = some o →
          (signals = true → ∃ more, m.incs = s.incs ++ ({ obj := o, amt := 1 } :: more)) ∧ (signals = false → m.incs = s.incs))
      let cancels (m : State) : Prop := ∀ h, m.graph g.num = some h → ∀ j u, g.tasks[j]? = some u → u.st = 0 → r.index < j →
        r.index ∈ u.preds → ∃ v, h.tasks[j]? = some v ∧ v.st = 3 ∧ v.status = 4
      let back : TaskRec := { t with st := 0, skips := 0, serial := 0, saved := none }
      let again (m : State) : Prop := m.graph g.num = some { g with tasks := g.tasks.set r.index back } ∧
        ∀ y ∈ r.syncs, y.check = true → (m.obj y.obj).arrived = 0 ∧ (m.obj y.obj).cnt = 0 ∧ (m.obj y.obj).value = (s.obj y.obj).value
      (b.held = [] → BitVec.ofNat 20 ((b.cplqTail.toNat + 1) % 2 ^ b.cplqSize.toNat) = b.cplqHead →
        (clean → ∃ m, exec (.taskEnd k true) s = .next m ∧ ends 0 0 0 (r.tileAt 0) true m ∧
          ∀ h, m.graph g.num = some h → ∃ v, h.tasks[r.index]? = some v ∧ v.st = 3 ∧ v.status = 0) ∧
        (∀ c rel, r.stop = none → r.fault = some (c, rel) → ¬ (rerun ∧ (c.toNat = tileUE ∨ c.toNat = sealFAULT ∨ c.toNat = sentinelFAULT)) →
          ∃ m, exec (.taskEnd k true) s = .next m ∧ ends 1 c.toNat rel.toNat (r.tileAt rel.toNat) true m ∧ cancels m) ∧
        (∀ c rel, r.stop = none → r.fault = some (c, rel) → rerun → c.toNat = tileUE ∨ c.toNat = sealFAULT ∨ c.toNat = sentinelFAULT →
          ∃ m, exec (.taskEnd k true) s = .next m ∧ ends 6 0 0 (r.tileAt rel.toNat) false m ∧ again m) ∧
        (r.stop = some 3 ∨ (r.stop = some 2 ∧ ¬ rerun) → ∃ m, exec (.taskEnd k true) s = .next m ∧
          ends (r.stop.getD 0) 0 0 (r.tileAt 0) true m ∧ cancels m) ∧
        (r.stop = some 2 → rerun → ∃ m, exec (.taskEnd k true) s = .next m ∧ ends 6 0 0 (r.tileAt 0) false m ∧ again m) ∧
        (∀ y, r.stop = none → r.fault = none → r.syncs = [y] → y.check = true → (s.obj y.obj).arrived ≠ 0 → 1 ≤ r.w → 1 ≤ r.h →
          (s.tile (r.tileAt 0)).st = 5 → (s.tile (r.tileAt 0)).task = k → (s.tile (r.tileAt 0)).rel = 0 →
          ∃ m, exec (.taskEnd k true) s = .next m ∧ ends 1 syncRESIDUE 0 (r.tileAt 0) true m ∧ cancels m)) ∧
      (256 ≤ b.held.length → clean → ∀ ok, ∃ m, exec (.taskEnd k ok) s = .next m ∧ m.tiles = s.tiles ∧ m.live = s.live ∧
        m.graphs = s.graphs ∧ m.parts = s.parts ∧ (m.run k).signalled = true)

/-- NBL_LOAD (R301, R312, R314, R442). The loader stops at the first refusal of its checks, in the order of R314, and answers with its
code. An accepted NBL is written as a prepared image with its dispatch-time records behind it, and its entry names them, ADMIT, BIND_ID
and HDR_CRC; the handle is the entry's index plus 1. A load whose bytes or whose entry lie on a stack that is being re-keyed holds
(R351). The layout of the prepared image is the model's choice (assumption 17), and so are the refusals of records that break a rule
without a status (assumption 72). -/
def Obligations.NblLoading : Prop :=
  ∀ (p : BitVec 5) (slot : Nat) (f : List Byte) (addr : BitVec 64) (regions : List (BitVec 16 × BitVec 64)) (syms : List (BitVec 12))
    (s : State),
    let answers (n : Nat) : Prop := exec (.nblLoad p slot f addr regions syms) s = .next { s with reply := [BitVec.ofNat 64 n, 0] }
    let a1 : Prop := nblFormatOk f = true
    let a2 : Prop := a1 ∧ bits (fld f 6 2) 15 4 = 0x004
    let a3 : Prop := a2 ∧ nblSealOk f = true
    let a4 : Prop := a3 ∧ nblShapeOk f = true
    let a5 : Prop := a4 ∧ nblExchOk f = true
    let a6 : Prop := a5 ∧ nblRingOk f = true
    let a7 : Prop := a6 ∧ nblSyncOk f = true
    let a8 : Prop := a7 ∧ nblRelocOk f regions = true
    let a9 : Prop := a8 ∧ bindOk s p.toNat f syms = true
    let admits := admitMask s p.toNat f
    let img := imageBytes f regions syms
    let late := lateBytes f
    let tab := (s.part p.toNat).sb.nblBase.toNat + 64 * slot
    (f.length < 64 ∨ fld f 0 4 ≠ 0x4C424E4B ∨ fld f 5 1 ≠ 1 ∨ fld f 40 24 ≠ 0 → answers 0x11) ∧ (¬ a1 → answers 0x11) ∧
    (a1 → ¬ a2 → answers 0x10) ∧ (a2 → ¬ a3 → answers 0x12) ∧
    (a3 → nblW f = 0 ∨ 8 < nblW f ∨ nblH f = 0 ∨ 4 < nblH f ∨ nblEntryPc f % 16 ≠ 0 ∨ 4096 < nblArgsLen f → answers 0x13) ∧
    (a3 → ¬ a4 → answers 0x13) ∧ (a4 → ¬ a5 → answers 0x20) ∧ (a5 → ¬ a6 → answers 0x16) ∧ (a6 → ¬ a7 → answers 0x17) ∧
    (a7 → ¬ a8 → answers 0x15) ∧ (a8 → ¬ a9 → answers 0x17) ∧ (a9 → admits = 0 → answers 0x14) ∧
    (a9 → admits ≠ 0 → slot < 1024 → s.inPart p.toNat addr.toNat (img.length + late.length) = true → s.inPart p.toNat tab 64 = true →
      (s.heldRange p.toNat addr.toNat (img.length + late.length) = true ∨ s.heldRange p.toNat tab 64 = true →
        exec (.nblLoad p slot f addr regions syms) s = .next s) ∧
      (s.heldRange p.toNat addr.toNat (img.length + late.length) = false → s.heldRange p.toNat tab 64 = false → Undisturbed s →
      ∀ j l i n, j < 12 → i < 12 → (∀ o, o < img.length + late.length → s.hbmMap p.toNat (addr.toNat + o) = some (j, l + o)) →
        (∀ o, o < 64 → s.hbmMap p.toNat (tab + o) = some (i, n + o)) →
        (i ≠ j ∨ n + 64 ≤ l ∨ l + (img.length + late.length) ≤ n) →
        ∃ m, exec (.nblLoad p slot f addr regions syms) s = .next m ∧
          m.reply = [(if fld f 6 2 = (if s.steppingB0 then 0x42 else 0x41) then 0 else 1) + (if fld f 24 4 = 0 then 0 else 2), BitVec.ofNat 64 (slot + 1)] ∧
          (∀ o b, (img ++ late)[o]? = some b → (m.stack j).byte j (l + o) = b) ∧
          (let e (o k : Nat) : Nat := leNat ((List.range k).map (fun q => (m.stack i).byte i (n + o + q)))
           e 0 8 = addr.toNat ∧ e 8 8 = (img.length * 2 ^ 32 + admits) % 2 ^ 64 ∧ e 16 8 = (addr.toNat + img.length) % 2 ^ 64 ∧
             e 24 8 = (late.length / 16 * 2 ^ 32 + (crc32c (bindBytes regions syms)).toNat) % 2 ^ 64 ∧
             e 32 8 = nblHdrCrc f ∧ e 40 24 = 0) ∧
          (∀ k a, (k ≠ j ∨ a < l ∨ l + (img.length + late.length) ≤ a) → (k ≠ i ∨ a < n ∨ n + 64 ≤ a) →
            (m.stack k).byte k a = (s.stack k).byte k a) ∧ (∀ t, m.tile t = s.tile t)))

/-- TASK_DISPATCH of an NBL without relocations, host streams and rings (R20, R23, R55, R288, R309, R315, Table 2-4). Every tile of the
footprint takes its load records, its start values, its task, relative ID and ENTRY, and enters COMPUTE; START records VALUE, and the
task keeps the Rounding and Integrity modes in force. A task that no footprint waits for is not dispatched, nor is one of whose prepared
NBL or argument block a stack is being re-keyed (R351).

TASK_DISPATCH of an NBL with relocations, rings and host streams (R307, R309, R315, R477, R478). A relocation record patches one field
of a loaded word in the tiles that REL names, with the value that the submission bound or with its BASE at this placement; the rings
that RING records name are as these say, and every other ring is closed; the k-th CXL attach takes descriptor k, and a descriptor that
breaks Table 16-5 raises TILE_ADDR in its router's tile before any bundle runs. The layout of the prepared image is assumption 17. -/
def Obligations.TaskStarts : Prop :=
  (∀ (k : Nat) (s : State),
     let r := s.run k
     let mode := (s.part r.part).modeAct
     (s.placed k = none → exec (.taskDispatch k) s = .next s) ∧
     ∀ (g : Graph) (t : TaskRec) (e : NblEntry) (pr : Prep), s.placed k = some (g, t, e, pr) → t.restores = false →
       let f := pr.file
       let heldBack : Bool := s.nblHeld r.part r.nbl || s.heldRange r.part t.args (nblArgsLen f)
       (heldBack = true → exec (.taskDispatch k) s = .next s) ∧
       (heldBack = false →
       let vid (y : SyncSym) : Nat := pr.vids.getD y.sym 0
       nblSect f 7 = none → e.nlate = 0 → cxlRecs f = [] → ringRecs f = [] → r.fault = none → r.bx0 + r.w ≤ 8 → r.by0 + r.h ≤ 4 →
       allApart loadRecsMeet (loadRecs f) = true → (∀ l ∈ loadRecs f, l.rel1 < r.size) →
       (∀ y ∈ syncSyms f, (s.translate r.part (vid y)).isSome = true) →
       (nblArgsLen f ≠ 0 → s.psize r.part < t.args + nblArgsLen f → 1 ≤ r.size →
         ∃ m, exec (.taskDispatch k) s = .next m ∧ (m.tile (r.tileAt 0)).st = 7 ∧ (m.tile (r.tileAt 0)).fCode.toNat = tileADDR ∧
           (m.tile (r.tileAt 0)).fAddr = 0 ∧ (m.run k).fault = some (BitVec.ofNat 8 tileADDR, 0)) ∧
       (nblArgsLen f = 0 → ∃ m, exec (.taskDispatch k) s = .next m ∧
         (∀ i, i < r.size →
           let x := m.tile (r.tileAt i)
           x.st = 2 ∧ x.task = k ∧ x.rel.toNat = i ∧ x.pc = BitVec.ofNat 32 (nblEntryPc f) ∧ x.sstep = 0 ∧ x.gs = [] ∧ x.ps = 0 ∧
           x.vs = [] ∧ x.accs = [] ∧ x.fTaken = false ∧ x.hold = none ∧ x.queue = [] ∧ x.exch.last = false ∧
           x.foot.toNat = 4096 * r.w + 256 * r.h + 16 * r.bx0 + r.by0 ∧
           ∀ l ∈ loadRecs f, l.rel0 ≤ i → i ≤ l.rel1 → ∀ j b, (l.bytes f)[j]? = some b → readByte x.shelf (l.addr + j) = b) ∧
         m.run k = { r with
           stoch := mode.getLsbD 25, sr3 := mode.getLsbD 25 && mode.getLsbD 24
           sentD := if bits mode.toNat 28 27 = 1 then 64 else if bits mode.toNat 28 27 = 2 then 16 else 0
           streams := []
           syncs := (syncSyms f).map (fun y =>
             let o := (s.translate r.part (vid y)).getD 0
             { vid := vid y, check := y.check, net := BitVec.ofNat 32 y.net, obj := o, start := (s.obj o).value }) } ∧
         (∃ h, m.graph g.num = some h ∧ h.tasks[r.index]? = some { t with st := 2, attempts := t.attempts + 1 }) ∧
         (∀ u, r.has u = false → m.tile u = s.tile u) ∧ m.objs = s.objs ∧ m.incs = s.incs))) ∧
  (∀ (k : Nat) (s : State) (g : Graph) (t : TaskRec) (e : NblEntry) (pr : Prep), s.placed k = some (g, t, e, pr) → t.restores = false →
     let r := s.run k
     let f := pr.file
     let n := nblArgsLen f
     let args := s.peek r.part t.args n
     let keeps (i : Nat) : Prop := fld args (32 * i) 8 % 64 = 0 ∧ fld args (32 * i + 8) 8 % 64 = 0 ∧ fld args (32 * i + 16) 4 % 64 = 0 ∧
       fld args (32 * i + 20) 4 % 64 = 0 ∧ fld args (32 * i + 24) 8 = 0
     s.nblHeld r.part r.nbl = false → s.heldRange r.part t.args n = false → r.fault = none → Undisturbed s → r.bx0 + r.w ≤ 8 →
     r.by0 + r.h ≤ 4 → t.args + n ≤ s.psize r.part → (∀ o, o < n → s.hbmMap r.part (t.args + o) ≠ none) →
     (∀ c ∈ cxlRecs f, ¬ keeps c.2 → (∀ d ∈ cxlRecs f, d.2 < c.2 → keeps d.2) → r.has (r.router c.1) = true → 32 * c.2 < 2 ^ 32 →
       ∃ m, exec (.taskDispatch k) s = .next m ∧
         let x := m.tile (r.router c.1)
         x.st = 7 ∧ x.fCode.toNat = tileADDR ∧ x.fAddr.toNat = 32 * c.2 ∧
         (m.run k).fault = some (BitVec.ofNat 8 tileADDR, BitVec.ofNat 11 (r.relOf (r.router c.1))) ∧
         ∀ i, i < r.size → (m.tile (r.tileAt i)).st ≠ 2) ∧
     ((∀ c ∈ cxlRecs f, keeps c.2) → (∀ y ∈ syncSyms f, (s.translate r.part (pr.vids.getD y.sym 0)).isSome = true) →
       ∃ m, exec (.taskDispatch k) s = .next m ∧
         (∀ q ∈ ringRecs f, q.rel < r.size → (∀ q' ∈ ringRecs f, q'.rel = q.rel → q'.ring = q.ring → q' = q) →
           let y := (m.tile (r.tileAt q.rel)).ring q.ring
           y.isOpen = q.isOpen ∧ y.size64.toNat = q.size ∧ y.base64.toNat = q.base ∧ y.head = 0 ∧ y.tail = 0) ∧
         (∀ i j, i < r.size → j < 8 → (∀ q ∈ ringRecs f, q.rel ≠ i ∨ q.ring ≠ j) →
           let y := (m.tile (r.tileAt i)).ring j
           y.isOpen = false ∧ y.size64 = 0 ∧ y.base64 = 0 ∧ y.head = 0 ∧ y.tail = 0) ∧
         (∀ c ∈ cxlRecs f, (∀ d ∈ cxlRecs f, r.router d.1 = r.router c.1 → d = c) →
           (m.run k).streams.find? (fun z => z.1 = (r.router c.1).toNat) = some ((r.router c.1).toNat,
             { inAddr := BitVec.ofNat 64 (fld args (32 * c.2) 8), outAddr := BitVec.ofNat 64 (fld args (32 * c.2 + 8) 8)
               outLen := fld args (32 * c.2 + 16) 4, inLen := fld args (32 * c.2 + 20) 4 })) ∧
         ∀ (l : LoadRec) (q : RelocRec) (i : Nat), loadRecs f = [l] → l.rel1 < r.size → (l.bytes f).length = l.len →
           l.addr + l.len ≤ 0x400000 → l.rel0 ≤ i → i ≤ l.rel1 → l.addr ≤ q.addr → q.addr + 8 ≤ l.addr + l.len → q.pos + q.wm1 < 64 →
           let was := leNat (((l.bytes f).drop (q.addr - l.addr)).take 8)
           let now := readLE (m.tile (r.tileAt i)).shelf q.addr 8
           let named : Prop := q.rel = 0xFFF ∨ q.rel = i
           let top := q.pos + q.wm1
           let takes (v : Int) : Prop :=
             (bits now top q.pos : Int) = ((if q.add then (bits was top q.pos : Int) else 0) + v) % 2 ^ (q.wm1 + 1) ∧
             ∀ b, b < 64 → b < q.pos ∨ top < b → now.testBit b = was.testBit b
           let base (b : Nat) : Prop := (q.kind = 3 ∧ b = fld args (8 * q.index) 8) ∨ (q.kind = 4 ∧ b = (r.tileAt q.index).toNat) ∨
             (q.kind = 5 ∧ ∃ a, (attachRecs f)[q.index]? = some a ∧ attachOf (r.router a) = some (.memory b)) ∨
             (q.kind = 6 ∧ ∃ a, (attachRecs f)[q.index]? = some a ∧ attachOf (r.router a) = some (.lamp b)) ∨
             (q.kind = 7 ∧ b = r.stgOff)
           (∀ v, relocRecs f = [q] → q.kind = 1 ∨ q.kind = 2 → pr.vals = [v] → e.nlate = 0 →
             (named → takes v.toNat) ∧ (¬ named → now = was)) ∧
           ((relocRecs f).all (fun z => z.kind ≠ 1 && z.kind ≠ 2) = true → s.lateRecs r.part e = [q] →
             (∀ b, base b → named → takes (toSigned 64 ((((b : Int) + q.addend) % 2 ^ 64).toNat) / 2 ^ q.shift)) ∧
             (¬ named → now = was))))

/-- CONTEXT_SAVE and CONTEXT_RESTORE (R50, R452–R458, Table 15-12). A context is saved only at a save point of a re-bind that saves the
task: its header is written, the task goes back to the ready set with its context, and its footprint is released without a record. A
restore whose context does not match ends the task with CTX_SHAPE, CTX_BIND, CTX_SEAL or CTX_SYNC; one that matches (here for a task
with one checked sync record and no dispatch-time relocation) continues in the superstep after the save, with the saved shelves and
registers, the saved VALUE and the saved START. A stack of theirs that is being re-keyed holds both (R351). Which code comes first where several
checks fail, and the tail of the header, are the model's reading (assumption 19). -/
def Obligations.Contexts : Prop :=
  ∀ (k : Nat) (s : State),
    let r := s.run k
    (∀ e, s.nblEntry r.part r.nbl = some e →
      (s.savePoint k = false ∨ s.rebind.busy = false ∨ s.nblHeld r.part r.nbl = true ∨ (∀ c ∈ s.rebind.saving, c.1 ≠ k) →
        exec (.contextSave k) s = .next s) ∧
      (∀ a, s.rebind.saving.find? (fun c => c.1 = k) = some (k, a) → s.heldRange r.part a (ctxBytes r.size) = true →
        exec (.contextSave k) s = .next s) ∧
      ∀ (g : Graph) (t : TaskRec) (a j l : Nat), s.rebind.saving.find? (fun c => c.1 = k) = some (k, a) → s.savePoint k = true →
        s.rebind.busy = true → s.graph r.graph = some g → g.tasks[r.index]? = some t → j < 12 → r.syncs.length ≤ 4096 →
        s.nblHeld r.part r.nbl = false → s.heldRange r.part a (ctxBytes r.size) = false →
        (∀ o, o < 64 → s.hbmMap r.part (a + o) = some (j, l + o)) →
        (∀ o i, 64 ≤ o → o < ctxBytes r.size → i < 64 → s.hbmMap r.part (a + o) ≠ some (j, l + i)) →
        ∃ m, exec (.contextSave k) s = .next m ∧ sget false k m.live = false ∧ m.run k = {} ∧
          (∃ h, m.graph g.num = some h ∧ h.tasks[r.index]? = some { t with st := 0, skips := 0, serial := 0, saved := some a }) ∧
          (∀ i, i < r.size → (m.tile (r.tileAt i)).st = 0) ∧ (∀ c ∈ m.rebind.saving, c.1 ≠ k) ∧ m.rebind.phase = 2 ∧
          m.incs = s.incs ∧ (∀ q, (m.part q).sb = (s.part q).sb) ∧ m.hostOut = s.hostOut ∧
          let h (o n : Nat) : Nat := leNat ((List.range n).map (fun i => (m.stack j).byte j (l + o + i)))
          h 0 4 = 0x5843564B ∧ h 4 2 = 1 ∧ h 6 1 = r.w % 256 ∧ h 7 1 = r.h % 256 ∧ h 0x10 4 = r.nbl % 2 ^ 32 ∧
            h 0x14 4 = e.hdr % 2 ^ 32 ∧ h 0x18 4 = e.bind % 2 ^ 32 ∧ h 0x1C 4 = r.syncs.length % 2 ^ 32 ∧ h 0x20 8 = k % 2 ^ 64 ∧
            h 0x28 8 = (s.tile (r.tileAt 0)).sstep.toNat ∧ h 0x30 1 = (4 * r.bx0 + r.by0) % 256 ∧ h 0x34 4 = r.stgOff % 2 ^ 32) ∧
    (s.waitsFor k = none → ∀ ok, exec (.contextRestore k ok) s = .next s) ∧
    ∀ (g : Graph) (t : TaskRec) (e : NblEntry), s.waitsFor k = some (g, t) → s.nblEntry r.part r.nbl = some e → Undisturbed s →
      let b := (s.part g.part).sb
      let pr := s.prep r.part e
      let f := pr.file
      let a := t.saved.getD (bits t.word.toNat 447 384)
      let head := s.peek r.part a 0x10000
      let shape : Prop := fld head 8 4 = 0x10002058 ∧ fld head 6 1 = r.w ∧ fld head 7 1 = r.h
      let bind : Prop := fld head 16 4 = r.nbl ∧ fld head 20 4 = e.hdr ∧ fld head 24 4 = e.bind
      let seals : Prop := s.inPart r.part a (ctxBytes r.size) = true ∧ s.sealsOk r.part a (ctxBytes r.size) = true
      let arrived : Prop := ∃ y ∈ syncSyms f, y.check = true ∧ ∃ o, s.translate r.part (pr.vids.getD y.sym 0) = some o ∧ (s.obj o).arrived ≠ 0
      let refused (code : Nat) : Prop := ∃ m c q, exec (.contextRestore k true) s = .next m ∧ (m.part g.part).sb.held = c :: q ∧
        bits c.toNat 63 0 = bits t.word.toNat 383 320 ∧ bits c.toNat 127 64 = k % 2 ^ 64 ∧ bits c.toNat 190 176 = 0x1100 + code ∧
        sget false k m.live = false ∧ (∀ u, m.tile u = s.tile u) ∧
        (∀ o, s.translate g.part (bits t.word.toNat 21 10) = some o → ∃ more, m.incs = s.incs ++ ({ obj := o, amt := 1 } :: more)) ∧
        ∀ h, m.graph g.num = some h → ∃ v, h.tasks[r.index]? = some v ∧ v.st = 3 ∧ v.status = 1 ∧ v.code.toNat = code
      let heldBack : Bool := s.nblHeld r.part r.nbl || s.heldRange r.part a (ctxBytes r.size) || s.heldRange r.part t.args (nblArgsLen f)
      (t.restores = false ∨ heldBack = true → ∀ ok, exec (.contextRestore k ok) s = .next s) ∧
      (t.restores = true → heldBack = false → (∀ u, (s.tile u).task ≠ k) → b.held = [] →
        BitVec.ofNat 20 ((b.cplqTail.toNat + 1) % 2 ^ b.cplqSize.toNat) = b.cplqHead →
        (¬ shape → refused 0x40) ∧ (shape → ¬ bind → refused 0x41) ∧ (shape → bind → ¬ seals → refused 0x42) ∧
        (shape → bind → seals → arrived → refused 0x43)) ∧
      (t.restores = true → heldBack = false → nblW f = r.w → nblH f = r.h → shape → bind → seals → ¬ arrived → e.nlate = 0 → cxlRecs f = [] → nblArgsLen f = 0 → r.fault = none →
        r.bx0 + r.w ≤ 8 → r.by0 + r.h ≤ 4 → ∀ y o, syncSyms f = [y] → y.check = true →
        s.translate r.part (pr.vids.getD y.sym 0) = some o → (s.obj o).bound = false → ∀ ok,
        ∃ m, exec (.contextRestore k ok) s = .next m ∧
          (∀ i, i < r.size →
            let x := m.tile (r.tileAt i)
            let img := s.peek r.part (a + 0x10000 + 0x414000 * i) 0x414000
            x.st = 2 ∧ x.task = k ∧ x.rel.toNat = i ∧ x.sstep = BitVec.ofNat 64 (fld head 0x28 8 + 1) ∧
            x.pc.toNat = fld img 0x4130FC 4 ∧ x.hist.toNat = fld img 0x4131E0 4 ∧
            (∀ n : BitVec 5, n ≠ 0 → (x.g n).toNat = fld img (0x413000 + 8 * (n.toNat - 1)) 8) ∧
            (∀ n : BitVec 5, (x.v n).toNat = fld img (0x410000 + 128 * n.toNat) 128) ∧
            ∀ q v, q < 0x400000 → img[q]? = some v → readByte x.shelf q = v) ∧
          (m.obj o).value.toNat = fld head 0x100 4 ∧
          (∃ z, (m.run k).syncs = [z] ∧ z.obj = o ∧ z.start.toNat = fld head 0x104 4) ∧
          ∃ h, m.graph g.num = some h ∧ ∃ v, h.tasks[r.index]? = some v ∧ v.st = 2 ∧ v.saved = none)

/-! ### Partitions and resets -/

/-- REBIND_WAIT, REBIND_PREEMPT, REBIND_KILL and REBIND_HANDOVER (R433–R436, R226, R267, R351, R453, R470, Table 15-3). A request is
refused as BUSY or INVALID, is done at once when TO owns the resources, or starts; PREEMPT saves the preemptible tasks whose contexts
fit, else RESULT reads NOSPACE, and KILL stops every task that uses the resources; none is placed meanwhile on a block of the mask or
of a task on it. When no work of the old owner is left PHASE shows erasing, and the resources are erased and change hands, ports at
their next revolution boundary, stacks once their re-key has begun; a hand-over of another kind than the request's changes nothing. PART_REBIND_TIME counts from the quiesce point. That TO 32–62 is INVALID, and that a port that no
marker passes needs no boundary, are the model's choices (assumption 21); what the read-back of zeroed shelves finds is a free value
(assumption 29).

REBIND_KILL of ports (R434, Table 15-2): every descriptor of the ports is torn down, one in the middle of a step ends with FAULT 0x04,
what they hold is discarded and counted, and the request, which no work then holds up, comes to its erase; other ports stay.

Windows as a re-bind takes stacks and as a partition is reset (R351, R435, R530). The first REBIND_HANDOVER of a request for stacks closes
at once the windows of the old owner that cover one, with GEN + 1 and without markers, and holds new accesses to the stacks, whose bytes
and owners stay as they are until the second; a partition reset closes every window of its partition. That the erase of a stack takes
two commands is the model's choice (assumption 31). -/
def Obligations.Rebinds : Prop :=
  (∀ (kind : BitVec 2) (dst : BitVec 6) (s : State),
     let rb := s.rebind
     let owner (n : Nat) : Option Nat := s.ownerOf kind.toNat n
     let named (n : Nat) : Prop := n < 32 ∧ rb.mask.getLsbD n = true
     let count : Nat := if kind = 0 then 32 else if kind = 1 then 12 else 8
     let invalid (mode : Nat) : Prop := rb.mask = 0 ∨ kind = 3 ∨ (32 ≤ dst.toNat ∧ dst.toNat ≠ 63) ∨ (∃ n, named n ∧ count ≤ n) ∨
       (∃ n j, named n ∧ named j ∧ owner n ≠ owner j) ∨ (kind = 1 ∧ mode = 1)
     let word (mode : Nat) : BitVec 32 := BitVec.ofNat 32 (kind.toNat * 2 ^ 30 + mode * 2 ^ 28 + dst.toNat * 2 ^ 22)
     let new : Option Nat := if dst = 63 then none else some dst.toNat
     let runs (p : Nat) : List (Nat × Run) := s.runs.filter (fun c => sget false c.1 s.live && decide (c.2.part = p))
     let uses (c : Nat × Run) : Prop := kind = 1 ∨ ∃ b i j, named b ∧ i < c.2.w ∧ j < c.2.h ∧ b = 4 * (c.2.bx0 + i) + c.2.by0 + j
     (s.responds = true → ∀ mode i, (mode, i) ∈ ([(0, .rebindWait kind dst), (1, .rebindPreempt kind dst), (2, .rebindKill kind dst)] : List (Nat × Instr)) →
       (rb.busy = true → exec i s = .next { s with rebind := { rb with result := 2 } }) ∧
       (rb.busy = false → invalid mode → exec i s = .next { s with rebind := { rb with reg := word mode, result := 3 } }) ∧
       (rb.busy = false → ¬ invalid mode → (∀ n, named n → owner n = new) → exec i s = .next
         { s with rebind := { rb with reg := word mode, result := 1, phase := 4, us := 0 }, msix := s.msix ++ [(0, 3)] })) ∧
     (s.responds = true → ∀ n p, rb.busy = false → named n → owner n = some p → some p ≠ new →
       let held : BitVec 32 := s.blocksOf kind.toNat p rb.mask
       let started (mode result : Nat) (saving : List (Nat × Nat)) : Rebind := { rb with
         reg := word mode, busy := true, phase := 1, result := BitVec.ofNat 4 result, us := 0, act := word mode, actMask := rb.mask
         owner := p, saving := saving, involved := held, quietAt := none, revsAt := [] }
       let begun (m : State) (x : Rebind) : Rebind := if m.quiet kind.toNat p rb.mask then { x with
         phase := 3, quietAt := some s.time.toNat, revsAt := (List.range 8).map (fun j => (j, (s.port j).revs)) } else x
       (kind ≠ 0 → held = 0) ∧
       (kind = 0 → ∀ b, b < 32 → (held.getLsbD b = true ↔ rb.mask.getLsbD b = true ∨ ∃ c ∈ runs p, uses c ∧
         ∃ i j, i < c.2.w ∧ j < c.2.h ∧ b = 4 * (c.2.bx0 + i) + c.2.by0 + j)) ∧
       (¬ invalid 0 → exec (.rebindWait kind dst) s = .next { s with rebind := begun s (started 0 0 []) }) ∧
       (¬ invalid 1 → kind = 2 → exec (.rebindPreempt kind dst) s = .next { s with rebind := begun s (started 1 0 []) }) ∧
       (∀ k g t, ¬ invalid 1 → kind = 0 → runs p = [(k, s.run k)] → uses (k, s.run k) → s.graph (s.run k).graph = some g →
         g.tasks[(s.run k).index]? = some t →
         (∀ h ∈ s.graphs, h.part = p → ∀ u ∈ h.tasks, u.saved = none) →
         let size := 65536 * (s.part p).ctxSize.toNat
         (t.word.getLsbD 24 = true → ctxBytes (s.run k).size ≤ size →
           exec (.rebindPreempt kind dst) s = .next { s with rebind := started 1 0 [(k, 65536 * (s.part p).ctxAddr.toNat)] }) ∧
         (t.word.getLsbD 24 = true → size < ctxBytes (s.run k).size →
           exec (.rebindPreempt kind dst) s = .next { s with rebind := started 1 4 [] }) ∧
         (t.word.getLsbD 24 = false → exec (.rebindPreempt kind dst) s = .next { s with rebind := started 1 0 [] })) ∧
       (¬ invalid 2 → kind ≠ 2 → ∃ m, exec (.rebindKill kind dst) s = .next m ∧ m.rebind = begun m (started 2 0 []) ∧
         (∀ c ∈ runs p, uses c → (s.run c.1).stop = none → (s.run c.1).fault = none → s.run c.1 = c.2 →
           (m.run c.1).stop = some 3 ∧
           ∀ t, c.2.has t = true → c.2.bx0 + c.2.w ≤ 8 → c.2.by0 + c.2.h ≤ 4 → (s.tile t).task = c.1 → (m.tile t).st = 7) ∧
         (kind = 1 → ∀ k, named k → k < 12 → (m.stack k).eng.queue = [] ∧ m.incs = s.incs))) ∧
     (let k := bits rb.act.toNat 31 30
       let d := bits rb.act.toNat 27 22
       let to' : Option Nat := if d = 63 then none else some d
       let moved (n : Nat) : Prop := n < 32 ∧ rb.actMask.getLsbD n = true
       let q := s.quiet k rb.owner rb.actMask
       let met (j : Nat) : Prop := let y := s.port j
         (y.link ≠ 2 ∧ y.link ≠ 3) ∨ y.lastEmit = none ∨ ∃ c ∈ rb.revsAt, c.1 = j ∧ c.2 ≠ y.revs
       let K := BitVec.ofNat 2 k
       (∀ c : BitVec 2, c.toNat ≠ k → exec (.rebindHandover c) s = .next s) ∧
       (rb.busy = false ∨ (rb.phase ≠ 3 ∧ q = false) → exec (.rebindHandover K) s = .next s) ∧
       (rb.busy = true → rb.phase ≠ 3 → q = true → exec (.rebindHandover K) s = exec (.rebindHandover K) { s with rebind := { rb with
         phase := 3, quietAt := some s.time.toNat, revsAt := (List.range 8).map (fun j => (j, (s.port j).revs)) } }) ∧
       (rb.busy = true → rb.phase = 3 → k = 2 → (∃ j, moved j ∧ ¬ met j) → exec (.rebindHandover K) s = .next s) ∧
       (∀ t0, rb.busy = true → rb.phase = 3 → rb.quietAt = some t0 → k ≠ 2 ∨ (∀ j, moved j → met j) →
         k ≠ 1 ∨ (∀ j, moved j → (s.stack j).rekeying = true) → ∃ m, exec (.rebindHandover K) s = .next m ∧
         m.rebind = { rb with busy := false, phase := 4, result := if rb.result = 4 then 4 else 1
                              us := BitVec.ofNat 32 ((s.time.toNat - t0) / 1000), saving := [], involved := 0, quietAt := none
                              revsAt := [] } ∧
         (0, 3) ∈ m.msix ∧ (k ≠ 1 → s.start.lmcWait = false → m.elSeq = s.elSeq + 1 ∧ bits (sget 0 (s.elSeq.toNat % 4096) m.el).toNat 127 120 = 3) ∧
         (k = 0 →
           (∀ p b, p < 32 → b < 32 → (m.part p).blocks.getLsbD b =
             (if rb.actMask.getLsbD b then decide (to' = some p) else (s.part p).blocks.getLsbD b)) ∧
           (∀ t, moved (blockOf t) →
             let x := m.tile t
             x.st = 0 ∧ x.shelf = [] ∧ (∀ w, x.mark w = if w ∈ s.readBack t then 3 else 0) ∧ x.gs = [] ∧ x.ps = 0 ∧ x.vs = [] ∧
               x.accs = [] ∧ ∀ w ∈ s.readBack t, ∃ e ∈ m.events, e.source = 2 ∧ e.code = 2 ∧ e.unit = t.toNat) ∧
           (∀ t, ¬ moved (blockOf t) → m.tile t = s.tile t) ∧
           (∀ o, moved (o / 512) → m.obj o = {}) ∧ (∀ o, ¬ moved (o / 512) → m.obj o = s.obj o) ∧ m.hbm = s.hbm ∧ m.ports = s.ports) ∧
         (k = 1 → s.wins = [] → ∀ j, moved j → j < 12 →
           let y := m.stack j
           y.owner = to' ∧ y.rekeying = false ∧ y.keyValid = true ∧ y.rekeys = (s.stack j).rekeys + 1 ∧
           (∀ a, y.byte j a = Config.unwritten j ((s.stack j).rekeys + 1) a) ∧ y.seals = [] ∧ y.eng.queue = [] ∧
           ∀ p, (p = rb.owner ∧ p < 32) ∨ to' = some p →
             let mask := ((List.range 12).map (fun i => if (m.stack i).owner = some p then 2 ^ i else 0)).foldl (· + ·) 0
             sget 0 0 (m.part p).iwinAct = (if mask = 0 then 0 else BitVec.ofNat 32 (2 ^ 31 + 96 * 2 ^ 24 + mask)) ∧
             (∀ i, i ≠ 0 → sget 0 i (m.part p).iwinAct = 0) ∧ (m.part p).iwin = (m.part p).iwinAct ∧
             ∀ i, i < 12 → (m.stack i).owner = some p → (m.stack i).stgBase = 0 ∧ (m.stack i).stgSize = 0x180) ∧
         (k = 2 → ∀ j, moved j → j < 8 → (m.port j).owner = to' ∧ (m.port j).colls = [] ∧ (m.port j).transit = [] ∧
           (m.port j).redo = [] ∧ (m.port j).ringAct = (s.port j).ringAct)))) ∧
  (∀ (dst : BitVec 6) (p : Nat) (s : State),
     let rb := s.rebind
     let named (n : Nat) : Prop := n < 8 ∧ rb.mask.getLsbD n = true
     s.responds = true → rb.busy = false → rb.mask ≠ 0 → rb.mask.toNat < 256 → (dst.toNat < 32 ∨ dst.toNat = 63) →
     (∀ n, named n → (s.port n).owner = some p ∧ Sparse.wf {} (s.port n).colls) →
     (if dst = 63 then none else some dst.toNat) ≠ some p →
     ∃ m, exec (.rebindKill 2 dst) s = .next m ∧ m.live = s.live ∧ m.graphs = s.graphs ∧
       m.rebind.busy = true ∧ m.rebind.owner = p ∧ m.rebind.phase = 3 ∧ m.rebind.quietAt = some s.time.toNat ∧
       (∀ n, ¬ named n → m.port n = s.port n) ∧
       ∀ n, named n →
         (m.port n).discard = satAdd (s.port n).discard
           (((s.port n).colls.map (fun c => if c.2.state = 2 ∨ c.2.valid = true then c.2.held.length * c.2.blocks else 0)).foldl (· + ·) 0) ∧
         ∀ j,
           let d := s.coll n j
           let c := m.coll n j
           (d.state = 2 → c.state = 3 ∧ c.fault = 4 ∧ c.held = [] ∧ c.w0 = d.w0 ∧ c.w4 = d.w4) ∧
           (d.state ≠ 2 → d.valid = true → c = { w0 := d.w0 &&& 0x7FFFFFFF, w1 := d.w1, w2 := d.w2, w3 := d.w3, w4 := d.w4 }) ∧
           (d.state ≠ 2 → d.valid = false → c = d)) ∧
  (∀ (p : BitVec 5) (s : State), s.winUnits = [] → Sparse.wf {} s.wins →
     let rb := s.rebind
     let moved (j : Nat) : Prop := j < 12 ∧ rb.actMask.getLsbD j = true
     let closed (m : State) (n : Nat) : Prop := m.win n = { s.win n with state := 0, gen := (s.win n).gen + 1, drains := [] }
     (rb.busy = true → rb.phase = 3 → bits rb.act.toNat 31 30 = 1 → rb.actMask.toNat < 4096 →
       (∃ j, moved j ∧ (s.stack j).rekeying = false) →
       ∃ m, exec (.rebindHandover 1) s = .next m ∧ m.rebind = rb ∧
         (∀ j, moved j → m.stack j = { s.stack j with rekeying := true }) ∧ (∀ j, ¬ moved j → m.stack j = s.stack j) ∧
         ∀ n,
           let w := s.win n
           let covers : Prop := ∃ j i l, moved j ∧ (s.stack j).owner = some w.part.toNat ∧ i < w.len.toNat ∧
             s.hbmMap w.part.toNat (w.base.toNat + 4096 * i) = some (j, l)
           (w.state ≠ 0 → covers → closed m n) ∧ (w.state = 0 ∨ ¬ covers → m.win n = w)) ∧
     (s.start.kind = 0 → s.start.lmcWait = false → s.start.recovery = false → s.pins.power = true → s.pins.snuffed = false →
       ∃ m, exec (.partitionReset p) s = .next m ∧ ∀ n,
         let w := s.win n
         (w.state ≠ 0 → w.part = p → closed m n) ∧ (w.state = 0 ∨ w.part ≠ p → m.win n = w)))

/-- PARTITION_RESET, FUNCTION_LEVEL_RESET, TILE_RESET, WARM_RESTART_REQUEST, LMC_RESTART and LMC_WATCHDOG (R502–R504, R547, R548, R551,
Table 19-7). A request finds another in progress and is refused. A partition reset stops the tasks, discards queues, descriptors,
graphs and held records, and returns the SIDEBOARD registers with the halves held for them, the FLAG region and the virtual function's
mailbox to their defaults; it changes no ownership and no HBM byte. A warm restart drops every task and graph and begins with step 1.
That a start, a Lamplighter restart, recovery and a module without power refuse the four requests is the model's choice (assumption 21),
and so is that a warm restart begins, and drops its tasks, at once (assumption 26). -/
def Obligations.Resets : Prop :=
  ∀ (p : BitVec 5) (t : TileId) (s : State),
    let busy : Prop := s.start.kind ≠ 0 ∨ s.start.lmcWait = true ∨ s.start.recovery = true ∨ s.pins.power = false ∨ s.pins.snuffed = true
    let cleared (m : State) : Prop :=
      (∀ g ∈ m.graphs, g.part ≠ p.toNat) ∧ (m.part p.toNat).sb = {} ∧
      (∀ w j, w < 34 → j < 3 → sget none (loKeyOf w j p.toNat) m.los = none) ∧ (∀ o, o < 32 → sget 0 (32 * p.toNat + o) m.flags = 0) ∧
      sget ({} : FrBox) p.toNat m.frVf = {} ∧ m.hostOut = s.hostOut ∧
      (∀ k, (m.stack k).owner = (s.stack k).owner ∧ (m.stack k).cells = (s.stack k).cells ∧
        ((s.stack k).owner = some p.toNat → k < 12 → (m.stack k).eng.queue = []) ∧
        (m.stack k).eng.xs = (s.stack k).eng.xs ∧ (m.stack k).eng.prog = (s.stack k).eng.prog) ∧
      (∀ n, (m.port n).owner = (s.port n).owner ∧ ((s.port n).owner = some p.toNat → n < 8 → (m.port n).colls = [])) ∧
      (∀ q, (m.part q).blocks = (s.part q).blocks ∧ (m.part q).syncBase = (s.part q).syncBase ∧ (m.part q).mode = (s.part q).mode) ∧
      (∀ u, (s.part p.toNat).blocks.getLsbD (blockOf u) = true → (m.tile u).shelf = (s.tile u).shelf ∧ (m.tile u).gs = [] ∧
        (m.tile u).accs = []) ∧
      (∀ c ∈ s.runs, sget false c.1 s.live = true → c.2.part = p.toNat → s.run c.1 = c.2 → c.2.stop = none → c.2.fault = none →
        (m.run c.1).stop = some 3)
    (s.winUnits = [] →
      (¬ busy → ∃ m, exec (.partitionReset p) s = .next m ∧ cleared m ∧ m.start = { s.start with part := p, partResult := 1 }) ∧
      ∃ m, exec (.functionLevelReset p) s = .next m ∧ cleared m ∧ sget false (p.toNat + 1) m.cxl.ats = false ∧
        ∀ e ∈ m.cxl.atc, e.1 ≠ p.toNat + 1) ∧
    (busy → exec (.partitionReset p) s = .next { s with start := { s.start with partResult := 2 } } ∧
      exec (.tileReset t) s = .next { s with start := { s.start with tileResult := 2 } } ∧
      exec .warmRestartRequest s = .next { s with start := { s.start with ctlResult := 2 } } ∧
      exec .lmcRestart s = .next { s with start := { s.start with ctlResult := 2 } }) ∧
    (¬ busy → (s.tile t).st ≠ 0 → exec (.tileReset t) s = .next { s with start := { s.start with tile := t, tileResult := 2 } }) ∧
    (¬ busy → (s.tile t).st = 0 → ∃ m, exec (.tileReset t) s = .next m ∧
      { m with tiles := s.tiles } = { s with start := { s.start with tile := t, tileResult := 1 } } ∧
      (∀ u, u ≠ t → m.tile u = s.tile u) ∧
      let x := m.tile t
      let y := s.tile t
      x.st = 0 ∧ x.gs = [] ∧ x.ps = 0 ∧ x.vs = [] ∧ x.accs = [] ∧ x.stat = {} ∧ x.shadow = {} ∧ x.vu = {} ∧ x.dr = {} ∧
        x.shelf = y.shelf ∧ x.bad = y.bad ∧ x.freezeFeed = y.freezeFeed ∧ x.freezeDrain = y.freezeDrain ∧ x.shelfCe = y.shelfCe ∧
        x.shelfUe = y.shelfUe ∧ x.scrubPass = y.scrubPass) ∧
    (¬ busy →
      exec .lmcRestart s = .next { s with start := { s.start with ctlResult := 1, lmcWait := true } } ∧
      ∃ m, exec .warmRestartRequest s = .next m ∧ m.start.kind = 2 ∧ m.start.phase = 1 ∧ m.start.began = s.time.toNat ∧
        m.start.ctlResult = 1 ∧ m.start.cause = (s.start.cause ||| 0x20000000) ∧ m.graphs = [] ∧ m.msgs = [] ∧ m.hostOut = s.hostOut ∧
        (∀ c ∈ s.runs, sget false c.1 s.live = true → sget false c.1 m.live = false) ∧
        (∀ k, k < 12 → (m.stack k).eng.queue = [] ∧ (m.stack k).cells = (s.stack k).cells ∧ (m.stack k).owner = (s.stack k).owner) ∧
        ∀ n, n < 8 → (m.port n).colls = [] ∧ (m.port n).link = (s.port n).link) ∧
    (s.pins.power = false ∨ s.pins.snuffed = true ∨ s.start.recovery = true → exec .lmcWatchdog s = .next s) ∧
    (s.pins.power = true → s.pins.snuffed = false → s.start.recovery = false → s.start.kind = 0 →
      ∃ m, exec .lmcWatchdog s = .next m ∧ { m with events := s.events } = { s with start := { s.start with
          lmcWait := true, cause := s.start.cause ||| 0x10000000 } } ∧ ∃ e ∈ m.events, e.source = 8 ∧ e.code = 3)

/-! ### Starting, power and the board -/

/-- COLD_START, WARM_START, START_TIMEOUT and RECOVERY (R57, R61, R350, R432, R532, R545, R546, R548–R550, R566, R572, Table 19-5). The
running step completes and the next begins: step 1 verifies the image and samples the class, step 3 repairs at most one column a die,
step 4 draws fresh keys after a loss of power, step 5 zeroes the shelves that lost it, those of a Banked module among them, step 6 waits for PERST_N, and step 7 ends the
start. A failed warm start is followed by a cold start, a failed cold start by another, and the fourth in a row leads to recovery. What
each step leaves in the registers in the middle of a start, and when a failed one falls back, is the model's choice (assumption 26); what
the read-back of zeroed shelves finds is a free value (assumption 29). -/
def Obligations.Starts : Prop :=
  ∀ (o : StartObs) (s : State),
    let st := s.start
    let cold : Prop := st.kind = 1
    let wiped : Prop := st.kind = 1 ∨ st.fromSnuffed = true
    let zeroed : Prop := st.kind = 1 ∨ st.fromSnuffed = true ∨ s.dim.banked = true
    let run (m : State) : Prop := (st.kind = 1 → exec (.coldStart o) s = .next m) ∧ (st.kind = 2 → exec (.warmStart o) s = .next m)
    let active : Prop := st.kind = 1 ∨ st.kind = 2
    let failed (m : State) : Prop :=
      (st.kind = 2 → m.start.kind = 1 ∧ m.start.phase = 1 ∧ m.start.fellBack = true) ∧
      (st.kind = 1 → st.fails ≠ 3 → m.start.kind = 1 ∧ m.start.phase = 1 ∧ m.start.fails = st.fails + 1) ∧
      (st.kind = 1 → st.fails = 3 → m.start.kind = 0 ∧ m.start.recovery = true ∧ m.start.last = 4) ∧
      (∃ e ∈ m.events, e.source = 8 ∧ e.code = 2) ∧ m.lmc.flash = s.lmc.flash ∧ m.graphs = [] ∧
      (∀ k, k < 12 → (m.stack k).owner = some 0 ∧ (m.stack k).cells = [])
    let shown (n : BitVec 8) : State := { s with start := { st with phase := n } }
    (st.kind ≠ 1 → exec (.coldStart o) s = .next s) ∧ (st.kind ≠ 2 → exec (.warmStart o) s = .next s) ∧
    (active → o.lost = true ∨ (st.phase = 1 ∧ imageVerdict s.lmc.flashBytes s.lmc.minSvn ≠ 0) ∨ (st.phase = 4 ∧ o.trained = false) →
      ∃ m, run m ∧ failed m) ∧
    (active → o.lost = false →
      (st.phase = 1 → imageVerdict s.lmc.flashBytes s.lmc.minSvn = 0 →
        run { s with
          start := { st with phase := 2 }, lmc := { s.lmc with running := s.lmc.flash, runningLen := s.lmc.flashLen }
          dim := if st.kind = 1 then { s.dim with cls := if o.strap = 3 then 0 else o.strap, badStrap := decide (o.strap = 3) } else s.dim }) ∧
      (st.phase = 2 → run (shown 3)) ∧
      (st.phase = 3 → ¬ cold → run (shown 4)) ∧
      (st.phase = 3 → cold → ∀ w e : BitVec 33,
        (o.defectsW = 0 → o.defectsE = 0 → run { s with start := { st with phase := 4, exhausted := false, repairW := 32, repairE := 32 } }) ∧
        (∀ i j, i < 33 → j < 33 → w = 1#33 <<< i → e = 1#33 <<< j → o.defectsW = w → o.defectsE = e →
          run { s with start := { st with phase := 4, exhausted := false, repairW := i, repairE := j } }) ∧
        (∀ i j, i < j → j < 33 → (o.defectsW.getLsbD i = true ∧ o.defectsW.getLsbD j = true) ∨
            (o.defectsE.getLsbD i = true ∧ o.defectsE.getLsbD j = true) →
          ∃ m, run m ∧ m.start = { st with phase := 4, exhausted := true } ∧ ∃ v ∈ m.events, v.source = 8 ∧ v.code = 1)) ∧
      (st.phase = 4 → o.trained = true → ¬ wiped → run (shown 5)) ∧
      (st.phase = 4 → o.trained = true → wiped → ∃ m, run m ∧ m.start = { st with phase := 5 } ∧ ∀ k, k < 12 →
        ((s.stack k).owner = none → (m.stack k).cells = (s.stack k).cells ∧ (m.stack k).rekeys = (s.stack k).rekeys) ∧
        ((s.stack k).owner ≠ none → (m.stack k).keyValid = true ∧ (m.stack k).rekeys = (s.stack k).rekeys + 1 ∧
          ∀ a, (m.stack k).byte k a = Config.unwritten k ((s.stack k).rekeys + 1) a)) ∧
      (st.phase = 5 → zeroed → cold ∨ o.mapBad = false → ∃ m, run m ∧
        m.start = { st with phase := 6, holdAt := s.time.toNat } ∧ m.hbm = s.hbm ∧ m.parts = s.parts ∧
        ∀ t, let x := m.tile t
          x.shelf = [] ∧ (∀ w, x.mark w = if w ∈ s.readBack t then 3 else 0) ∧
          x.shelfUe = satAdd (s.tile t).shelfUe (s.readBack t).length ∧
          { x with shelf := [], bad := [], shelfUe := 0, shelfUeAddr := 0 } =
            { s.tile t with shelf := [], bad := [], shelfUe := 0, shelfUeAddr := 0 } ∧
          ∀ w ∈ s.readBack t, ∃ e ∈ m.events, e.source = 2 ∧ e.code = 2 ∧ e.unit = t.toNat) ∧
      (st.phase = 5 → ¬ zeroed → o.mapBad = false → run { s with start := { st with phase := 6, holdAt := s.time.toNat } }) ∧
      (st.phase = 5 → ¬ zeroed → o.mapBad = true → ∃ m, run m ∧ m.start.phase = 6 ∧ (m.part 0).blocks = 0xFFFFFFFF ∧
        (m.part 0).syncBase = 16384 ∧ (m.part 0).syncCount = 16384 ∧ (m.part 0).recMax = 262144 ∧
        (∀ p, 0 < p → p < 32 → (m.part p).blocks = 0 ∧ (m.part p).syncCount = 0) ∧
        (∀ k, k < 12 → (m.stack k).owner = some 0 ∧ ((s.stack k).owner ≠ some 0 → (m.stack k).cells = [])) ∧
        (∀ n, n < 8 → (m.port n).owner = some 0) ∧
        (let base := (s.part 0).syncBase.toNat
         let count := (s.part 0).syncCount.toNat
         let enters (o : Nat) : Prop := (o < 16384 ∧ (s.part 0).blocks.getLsbD (o / 512) = false) ∨
           (16384 ≤ o ∧ o < 32768 ∧ (o < base ∨ base + count ≤ o))
         ∀ o, (enters o → m.obj o = {}) ∧ (¬ enters o → m.obj o = s.obj o)) ∧
        ∀ t, m.tile t = if (s.part 0).blocks.getLsbD (blockOf t) then s.tile t else (s.tile t).zeroShelves (s.readBack t)) ∧
      (st.phase = 6 → s.pins.warn = false → s.pins.power = true → s.pins.snuffed = false → st.ports = false → ∃ m, run m ∧ m.start.ports = true ∧
        m.start.phase = (if s.pins.perst then 6 else 7) ∧ m.tiles = s.tiles ∧ m.hbm = s.hbm ∧
        ∀ p, p < 8 → ((s.port p).link = 2 ∨ (s.port p).link = 3 ∨ bestLanes (o.lanes[p]?.getD 0) = 0 → m.port p = s.port p) ∧
          ((s.port p).link ≠ 2 → (s.port p).link ≠ 3 → bestLanes (o.lanes[p]?.getD 0) ≠ 0 → (m.port p).link = 2)) ∧
      (st.phase = 7 → ∃ m, run m ∧ m.start.kind = 0 ∧ m.start.phase = 0xFF ∧ m.start.fails = 0 ∧ m.start.fellBack = false ∧
        m.start.last = (if st.fellBack then 3 else if st.kind = 1 then 1 else 2) ∧
        m.start.ms = BitVec.ofNat 16 (min ((s.time.toNat - st.began) / 1000000) 0xFFFF) ∧
        (s.start.lmcWait = false → m.elSeq = s.elSeq + 1 ∧ bits (sget 0 (s.elSeq.toNat % 4096) m.el).toNat 127 120 = 2) ∧
        (cold → m.tiles = s.tiles ∧ m.parts = s.parts ∧ m.hbm = s.hbm ∧ m.ports = s.ports) ∧
        (¬ cold → (st.fromSnuffed = false → ∀ n, n < 4096 → m.win n = { s.win n with state := 0, gen := (s.win n).gen + 1, drains := [] }) ∧
          (st.fromSnuffed = true → m.wins = s.wins) ∧ m.flags = [] ∧
          m.frVf = [] ∧ (∀ p, (m.part p).sb = {} ∧ (m.part p).blocks = (s.part p).blocks ∧ (m.part p).mode = (s.part p).mode) ∧
          (∀ k, (m.stack k).cells = (s.stack k).cells ∧ (m.stack k).owner = (s.stack k).owner ∧ (m.stack k).ce = 0 ∧ (m.stack k).rd = 0 ∧
            (m.stack k).narrowQ = []) ∧
          (let d := m.dim
           d.banked = false ∧ d.pilot = 0 ∧ d.dimW = false ∧ d.dimE = false ∧ d.rateW = s.dim.litW ∧ d.rateE = s.dim.litE ∧
           d.throttle = 0 ∧ d.energy = 0 ∧ d.busyM = s.time.toNat) ∧
          (∀ t, (m.tile t).st = 0 ∧ (m.tile t).gs = [] ∧ (m.tile t).shelf = (s.tile t).shelf ∧ (m.tile t).shelfCe = 0 ∧
            (m.tile t).conflicts = []) ∧
          (st.fromSnuffed = false → m.objs = s.objs) ∧ (st.fromSnuffed = true → m.objs = []) ∧ m.xlate = s.xlate))) ∧
    (let ns := s.time.toNat - st.began - st.heldNs - (if st.phase = 6 ∧ s.pins.perst = true then s.time.toNat - st.holdAt else 0)
     (st.kind = 0 ∨ ns < 30000000000 → exec .startTimeout s = .next s) ∧
     (active → 30000000000 ≤ ns → ∃ m, exec .startTimeout s = .next m ∧ failed m)) ∧
    (∀ l, st.recovery = false → exec (.recovery l) s = .next s) ∧
    ∀ l : LinkObs, st.recovery = true →
      (s.pins.refclk = false ∨ s.pins.perst = true ∨ s.pins.power = false ∨ s.pins.snuffed = true → exec (.recovery l) s = .next s) ∧
      (s.pins.refclk = true → s.pins.perst = false → s.pins.power = true → s.pins.snuffed = false →
        (4 ≤ l.width → 5 ≤ l.rate → exec (.recovery l) s = .next { s with cxl := { s.cxl with
          rate := if 7 ≤ l.rate then 7 else l.rate, width := if 16 ≤ l.width then 16 else if 8 ≤ l.width then 8 else 4
          reversed := l.reversed, ready := false } }) ∧
        (l.width < 4 ∨ l.rate < 5 → exec (.recovery l) s = .next { s with cxl := { s.cxl with
          rate := 0, width := 0, reversed := false, ready := false, ideIo := 0, ideCm := false, skid := false, cmFailed := false
          ioFailed := 0 } }))

/-- POWER_GOOD, VIN_UNDERVOLTAGE, VIN_OVERVOLTAGE, PRSNT_BREAK, PERST_ASSERT, PERST_DEASSERT, PWR_WARN_ASSERT, PWR_WARN_DEASSERT,
REFCLK_LOSS and REFCLK_RESUME (R546, R548, R556, R558, R559, R561, R563, R566–R568, Table 20-7). Rails come on above 43 V with a cold
start and go off below 41 V or above 60 V, with the loss of everything that flash does not keep. PERST_N resets the CXL configuration
and restarts a start in progress; its release lets step 6b go on, or begins a warm start. A warning coasts the rings and holds admission
until 10 ms after it ends. That PERST_N resets CXL at once while the warm start waits for its deassertion, and that tasks stop at once, is the
model's choice (assumption 26). -/
def Obligations.PowerInput : Prop :=
  ∀ (mv : BitVec 17) (s : State),
    let off (m : State) : Prop := m.pins.power = false ∧ m.pins.snuffed = false ∧ m.pins.smbAlert = false ∧ m.start.kind = 0 ∧ m.start.phase = 0 ∧ m.tiles = [] ∧
      m.graphs = [] ∧ m.objs = [] ∧ m.cxl = {} ∧ m.wins = [] ∧ m.lmc.flash = s.lmc.flash ∧ m.lmc.minSvn = s.lmc.minSvn ∧
      m.start.repairW = s.start.repairW ∧ (∀ k, k < 12 → (m.stack k).cells = [] ∧ (m.stack k).owner = none) ∧
      ∀ p, (m.port p).link = 0 ∧ (m.port p).colls = []
    let noted : State := { s with pins := { s.pins with millivolt := mv.toNat } }
    (s.pins.power = true ∨ mv.toNat ≤ 43000 ∨ 60000 < mv.toNat → exec (.powerGood mv) s = .next s) ∧
    (s.pins.power = false → 43000 < mv.toNat → mv.toNat ≤ 60000 → ∃ m, exec (.powerGood mv) s = .next m ∧ m.pins.power = true ∧
      m.pins.prsnt = true ∧ m.pins.millivolt = mv.toNat ∧ m.start.kind = 1 ∧ m.start.phase = 1 ∧ m.start.fails = 0 ∧
      m.start.cause = 0x80000000 ∧ (m.part 0).blocks = 0xFFFFFFFF ∧ m.graphs = [] ∧ ∀ k, k < 12 → (m.stack k).cells = []) ∧
    (41000 ≤ mv.toNat → exec (.vinUndervoltage mv) s = .next noted) ∧
    (mv.toNat < 41000 → ∃ m, exec (.vinUndervoltage mv) s = .next m ∧ off m) ∧
    (mv.toNat ≤ 60000 → exec (.vinOvervoltage mv) s = .next noted) ∧
    (60000 < mv.toNat → ∃ m, exec (.vinOvervoltage mv) s = .next m ∧ off m) ∧
    (∃ m, exec .prsntBreak s = .next m ∧ off m ∧ m.pins.prsnt = false) ∧
    (s.pins.perst = true → exec .perstAssert s = .next s) ∧
    (s.pins.perst = false → ∃ m, exec .perstAssert s = .next m ∧ m.pins.perst = true ∧
      (s.pins.power = true → s.pins.snuffed = false → m.cxl = {} ∧ m.start.cause = (s.start.cause ||| 0x40000000) ∧
        m.start.fails = s.start.fails ∧ (s.start.kind = 1 ∨ s.start.kind = 2 → m.start.kind = s.start.kind ∧ m.start.phase = 1) ∧
        (s.start.kind = 0 → m.start.kind = 0 ∧ m.graphs = s.graphs ∧ m.tiles = s.tiles))) ∧
    (s.pins.perst = false → exec .perstDeassert s = .next s) ∧
    (s.pins.perst = true → ∃ m, exec .perstDeassert s = .next m ∧ m.pins.perst = false ∧ m.pins.wakeN = false ∧
      (s.pins.power = true → s.start.recovery = false →
        (s.pins.snuffed = true → m.pins.snuffed = false ∧ m.start.fromSnuffed = true ∧ m.start.kind = 2 ∧ m.start.phase = 1) ∧
        (s.pins.snuffed = false → s.start.kind = 0 → m.start.kind = 2 ∧ m.start.phase = 1 ∧ m.graphs = [] ∧
          ∀ c ∈ s.runs, sget false c.1 s.live = true → sget false c.1 m.live = false) ∧
        (s.pins.snuffed = false → s.start.kind ≠ 0 → m.start = { s.start with
          heldNs := s.start.heldNs + (if s.start.phase = 6 then s.time.toNat - s.start.holdAt else 0) } ∧ m.graphs = s.graphs))) ∧
    (s.pins.warn = true → exec .pwrWarnAssert s = .next s ∧
      exec .pwrWarnDeassert s = .next { s with pins := { s.pins with warn := false, warnOff := s.time.toNat + 10000000 } }) ∧
    (s.pins.warn = false → exec .pwrWarnDeassert s = .next s) ∧
    (s.pins.warn = false → s.pins.power = false ∨ s.pins.snuffed = true →
      exec .pwrWarnAssert s = .next { s with pins := { s.pins with warn := true } }) ∧
    (s.pins.warn = false → s.pins.power = true → s.pins.snuffed = false → ∃ m, exec .pwrWarnAssert s = .next m ∧ m.pins.warn = true ∧
      (s.start.lmcWait = false → m.elSeq = s.elSeq + 1) ∧ m.tiles = s.tiles ∧ m.graphs = s.graphs ∧ ∀ p, p < 8 →
        let up (n : Nat) : Prop := (s.port n).link = 2 ∨ (s.port n).link = 3
        (up p ∨ up (pairPort p) → (s.port (pairPort p)).coastMine = (s.port p).coastMine → (m.port p).coastMine = true) ∧
        (¬ up p → ¬ up (pairPort p) → (m.port p).coastMine = (s.port p).coastMine)) ∧
    exec .refclkLoss s = .next { s with
      pins := { s.pins with refclk := false }
      cxl := { s.cxl with
        rate := 0, width := 0, reversed := false, ready := false, ideIo := 0, ideCm := false, skid := false, cmFailed := false
        ioFailed := 0 } } ∧
    exec .refclkResume s = .next { s with pins := { s.pins with refclk := true } }

/-- CONTROL_PERIOD, SEAM_RATIO_WINDOW, POWER_STATE_ENTRY, WAKE_EVENT, WAKE_BUDGET_WRITE and SNUFFED_ENTRY (R259, R421, R533–R541, R551, R557,
Tables 0-3, 19-1, 19-2, 19-7). The Dimmer never exceeds its target and keeps the guaranteed minimum where R535 holds it; a unit that has
been idle past its threshold enters the state of its scope that the budget allows, and a wake event takes it out of it, with every shelf
zeroed on leaving Banked, but no state is entered or left while the Lamplighter restarts: its return at a control period serves the wake
events that came meanwhile. A Dimmed die runs at most at the rate of its
lowest voltage; LIMITED is set where a condition of R535 fails or a rate lies below the target; while a running task straddles the
seam, no die runs below the other unless power or heat demands it. Snuffed keeps only the settings of Table 19-7. What the limits allow
a die is measured: an operand; how the rate follows from it is the model's choice (assumption 27), and so are BREAK in force at the exit from PILOT
(assumption 50), the moment at which a change of DIM_CTL is logged (assumption 23) and that a Lamplighter restart ends at a control period
(assumption 26). What the read-back of zeroed shelves finds is a free value (assumption 29). -/
def Obligations.Dimming : Prop :=
  ∀ s : State,
    let d := s.dim
    let perf := bits d.ctl.toNat 31 30
    let cap := d.ctl.toNat % 4096
    let dead : Prop := s.pins.power = false ∨ s.pins.snuffed = true
    let idleDie (east : Bool) : Prop := ∀ c ∈ s.runs, sget false c.1 s.live = true → ∀ t ∈ c.2.tiles, onDieE t ≠ east
    let held : Prop := s.start.phase ≠ 0xFF ∨ s.start.lmcWait = true ∨ d.banked = true
    let rate (dimmed : Bool) (lit : BitVec 8) := if dimmed = true ∧ Config.dimRate < lit then Config.dimRate else lit
    (∀ o h, dead → exec (.controlPeriod o) s = .next s ∧ exec (.seamRatioWindow h) s = .next s) ∧
    (∀ o : DimObs, ¬ dead → s.cxl.mbox = [] →
      let env := if d.cls = 1 then 1600 else if d.cls = 2 then 2400 else 1000
      let low := if d.cls = 1 then 170 else if d.cls = 2 then 200 else 130
      let target := if d.cls = 1 then (if perf = 2 then 190 else 180) else if d.cls = 2 then (if perf = 2 then 220 else 210)
        else if perf = 2 then 150 else 140
      let byPower : Prop := perf = 0 ∧ (d.cls = 1 ∨ d.cls = 2)
      let eco := if d.cls = 1 then 1200 else 1800
      let hot : Prop := 95 < o.tj.toNat
      let hold : Prop := (cap = 0 ∨ env ≤ cap) ∧ (perf = 1 ∨ perf = 2 ∨ (perf = 0 ∧ d.cls = 0)) ∧
        44000 ≤ o.millivolt.toNat ∧ o.millivolt.toNat ≤ 58000
      let capped := if cap = 0 then env else min env cap
      let power := if byPower then min capped eco else capped
      let limit := if o.millivolt.toNat < 44000 then min power (env * o.millivolt.toNat / 44000) else power
      let excess : Prop := limit < o.watts.toNat
      let top := if byPower then 255 else target
      let next (lit allowed : BitVec 8) : Nat :=
        let r := if excess ∨ 105 < o.tj.toNat then min (min top allowed.toNat) (lit.toNat - 1) else if hot then min top allowed.toNat
          else max (min top allowed.toNat) (min top (if o.watts.toNat < limit then lit.toNat + 1 else lit.toNat))
        if hold ∧ ¬ hot then max low r else r
      let a := next d.litW o.rateW
      let b := next d.litE o.rateE
      let straddle : Prop := ∃ c ∈ s.runs, sget false c.1 s.live = true ∧ c.2.bx0 < 4 ∧ 4 < c.2.bx0 + c.2.w ∧
        ∃ t ∈ c.2.tiles, (s.tile t).task = c.1 ∧ (s.tile t).assigned = true
      ∃ m, exec (.controlPeriod o) s = .next m ∧ m.dim.ctlAct = d.ctl ∧ m.dim.watts = o.watts ∧ m.dim.tj = o.tj ∧
        m.dim.energy = d.energy + o.mj.zeroExtend 64 ∧ m.dim.belowMin = decide (95 < o.tj.toNat) ∧ m.start.lmcWait = false ∧
        m.pins.millivolt = o.millivolt.toNat ∧
        (¬ straddle ∨ excess → m.dim.litW.toNat = a ∧ m.dim.litE.toNat = b) ∧
        (straddle → ¬ excess → hot → m.dim.litW.toNat = min a b ∧ m.dim.litE.toNat = min a b) ∧
        (straddle → ¬ excess → ¬ hot → m.dim.litW.toNat = max a b ∧ m.dim.litE.toNat = max a b) ∧
        m.dim.rateW = rate m.dim.dimW m.dim.litW ∧ m.dim.rateE = rate m.dim.dimE m.dim.litE ∧
        (m.dim.limited = true ↔ ¬ hold ∨ (¬ byPower ∧ (m.dim.litW.toNat < target ∨ m.dim.litE.toNat < target))) ∧
        m.dim.throttle = (if m.dim.limited then satInc d.throttle else d.throttle) ∧
        m.hbm = s.hbm ∧ (s.start.lmcWait = false → m.elSeq = (if d.ctl = d.ctlAct then s.elSeq else s.elSeq + 1)) ∧
        (s.start.lmcWait = true → m.elWait = [] ∧
          m.elSeq = s.elSeq + BitVec.ofNat 64 (s.elWait.length + if d.ctl = d.ctlAct then 0 else 1)) ∧
        (s.start.lmcWait = false → m.tiles = s.tiles ∧ m.dim.banked = d.banked ∧ m.dim.pilot = d.pilot ∧ m.dim.dimW = d.dimW ∧
          m.dim.dimE = d.dimE) ∧
        (s.start.lmcWait = true → m.dim.dimW = (d.dimW && decide (5 ≤ d.budget.toNat) && !d.owedDies.getLsbD 0) ∧
          m.dim.dimE = (d.dimE && decide (5 ≤ d.budget.toNat) && !d.owedDies.getLsbD 1) ∧
          m.dim.banked = (d.banked && decide (2500 ≤ d.budget.toNat) && !d.owedBanked) ∧
          m.dim.pilot = (if s.lantern then d.pilot else (if d.budget.toNat < 80 then 0 else d.pilot) &&& ~~~d.owedBlocks) ∧
          m.dim.owedDies = 0 ∧ m.dim.owedBlocks = 0 ∧ m.dim.owedBanked = false ∧
          (2500 ≤ d.budget.toNat → d.owedBanked = false → d.owedBlocks = 0 → m.tiles = s.tiles) ∧
          (let op := bits s.lmc.cmd.toNat 31 24
           s.lmc.busy = true → op ≠ 1 → op ≠ 2 → op ≠ 3 → m.lmc.busy = false ∧ m.lmc.result = 3)) ∧
        ∀ p, p ≠ 6 → p ≠ 7 → m.port p = s.port p) ∧
    (∀ h : BitVec 32, ¬ dead → s.time.toNat < d.seamAt + 1000 → exec (.seamRatioWindow h) s = .next s) ∧
    (∀ h : BitVec 32, ¬ dead → d.seamAt + 1000 ≤ s.time.toNat →
      let w := s.beatsW - d.seamW
      let e := s.beatsE - d.seamE
      exec (.seamRatioWindow h) s = .next { s with dim := { d with
        seamRatio := BitVec.ofNat 32 ((if w < e then 2 ^ 31 else 0) + (if w = e then 0xFFFF else min 0xFFFF (min w e * 65536 / max w e)))
        seamW := s.beatsW, seamE := s.beatsE, seamAt := s.time.toNat, seamHold := d.seamHold + h.zeroExtend 64 } }) ∧
    (∀ u n, held → exec (.powerStateEntry u n) s = .next s) ∧
    (¬ held →
      (∀ east,
        let ok : Prop := idleDie east ∧ 5 ≤ d.budget.toNat ∧
          (if east then d.busyE else d.busyW) + 1000 * bits d.thresh.toNat 31 24 ≤ s.time.toNat
        let w := d.dimW || !east
        let e := d.dimE || east
        (ok → exec (.powerStateEntry .die (if east then 1 else 0)) s =
          .next { s with dim := { d with dimW := w, dimE := e, rateW := rate w d.litW, rateE := rate e d.litE } }) ∧
        (¬ ok → exec (.powerStateEntry .die (if east then 1 else 0)) s = .next s)) ∧
      (∀ n : BitVec 5, 2 ≤ n.toNat → exec (.powerStateEntry .die n) s = .next s) ∧
      (∀ b : BitVec 5,
        let ok : Prop := (∀ t, blockOf t = b.toNat → (s.tile t).st = 0) ∧
          ((80 ≤ d.budget.toNat ∧ sget 0 b.toNat d.busyB + 10000 * bits d.thresh.toNat 23 12 ≤ s.time.toNat) ∨ s.lantern = true)
        (ok → ∃ m, exec (.powerStateEntry .block b) s = .next m ∧
          { m with tiles := s.tiles } = { s with dim := { d with pilot := d.pilot ||| BitVec.ofNat 32 (2 ^ b.toNat) } } ∧
          ∀ t, m.tile t = if blockOf t = b.toNat then { s.tile t with
            st := 8, pilotAt := some (if onDieE t then s.beatsE else s.beatsW), pilotScrub := s.scrubs t } else s.tile t) ∧
        (¬ ok → exec (.powerStateEntry .block b) s = .next s)) ∧
      (let ok : Prop := s.moduleIdle = true ∧ d.ctlAct.getLsbD 29 = true ∧ 2500 ≤ d.budget.toNat ∧
         d.busyM + 1000000 * bits d.thresh.toNat 11 0 ≤ s.time.toNat
       (∀ n, ok → exec (.powerStateEntry .module n) s = .next { s with dim := { d with banked := true } }) ∧
       (∀ n, ¬ ok → exec (.powerStateEntry .module n) s = .next s))) ∧
    (s.start.lmcWait = true → (∀ dies blocks, exec (.wakeEvent dies blocks) s = .next { s with dim := { d with
        owedDies := d.owedDies ||| dies, owedBlocks := d.owedBlocks ||| blocks, owedBanked := d.owedBanked || d.banked } }) ∧
      ∀ v : BitVec 32, s.responds = true → exec (.wakeBudgetWrite v) s = .next { s with dim := { d with budget := v.extractLsb' 0 24 } }) ∧
    (s.start.lmcWait = false → ∀ (dies : BitVec 2) (blocks : BitVec 32), ∃ m, exec (.wakeEvent dies blocks) s = .next m ∧ m.dim.banked = false ∧
      m.dim.dimW = (d.dimW && !dies.getLsbD 0) ∧ m.dim.dimE = (d.dimE && !dies.getLsbD 1) ∧
      m.dim.rateW = rate m.dim.dimW d.litW ∧ m.dim.rateE = rate m.dim.dimE d.litE ∧
      m.dim.pilot = (if s.lantern then d.pilot else d.pilot &&& ~~~blocks) ∧
      ∀ t,
        let x : Tile := if d.banked then (s.tile t).zeroShelves (s.readBack t) else s.tile t
        let die := if onDieE t then s.beatsE else s.beatsW
        (s.lantern = false → (blocks &&& d.pilot).getLsbD (blockOf t) = true → x.st = 8 →
          m.tile t = { x with st := 0, brkAct := x.brk, pilotAt := none, pilotScrub := false, lost := x.lost + (die - x.pilotAt.getD die) }) ∧
        (s.lantern = true ∨ (blocks &&& d.pilot).getLsbD (blockOf t) = false ∨ x.st ≠ 8 → m.tile t = x)) ∧
    (s.responds = false → ∀ v, exec (.wakeBudgetWrite v) s = .next s) ∧
    (s.start.lmcWait = false → s.responds = true → ∀ v : BitVec 32, ∃ m, exec (.wakeBudgetWrite v) s = .next m ∧ m.dim.budget = v.extractLsb' 0 24 ∧
      (let us := v.toNat % 2 ^ 24
       m.dim.banked = (d.banked && decide (2500 ≤ us)) ∧ m.dim.pilot = (if us < 80 ∧ s.lantern = false then 0 else d.pilot) ∧
       m.dim.dimW = (d.dimW && decide (5 ≤ us)) ∧ m.dim.dimE = (d.dimE && decide (5 ≤ us)) ∧
       (us < 5 → m.dim.rateW = d.litW ∧ m.dim.rateE = d.litE) ∧ (5 ≤ us → m.dim.rateW = d.rateW ∧ m.dim.rateE = d.rateE) ∧
       (d.banked = true → us < 2500 → ∀ t, (m.tile t).shelf = [] ∧
         ∀ w, (m.tile t).mark w = if w ∈ s.readBack t then 3 else 0) ∧ (2500 ≤ us → m.tiles = s.tiles))) ∧
    (dead → exec .snuffedEntry s = .next s) ∧
    (¬ dead → ∃ m, exec .snuffedEntry s = .next m ∧ m.pins.snuffed = true ∧ m.start.kind = 0 ∧ m.start.phase = 0 ∧
      (∀ t, let x := m.tile t
        x.st = 0 ∧ x.shelf = [] ∧ x.bad = [] ∧ x.gs = [] ∧ x.vs = [] ∧ x.accs = [] ∧ x.brk = (s.tile t).brk ∧ x.selTile = (s.tile t).selTile ∧
        x.selHost = (s.tile t).selHost ∧ x.selLmc = (s.tile t).selLmc ∧ x.shelfUeAddr = (s.tile t).shelfUeAddr) ∧
      (∀ n, n < 4096 → m.win n = { s.win n with state := 0, gen := (s.win n).gen + 1, drains := [] }) ∧
      m.graphs = [] ∧ m.objs = [] ∧ m.flags = [] ∧ m.frVf = [] ∧ m.cxl = {} ∧ m.xlate = s.xlate ∧ m.elSeq = s.elSeq ∧ m.frPf = s.frPf ∧
      m.dim.ctl = d.ctl ∧ m.dim.budget = d.budget ∧ m.dim.thresh = d.thresh ∧
      m.dim.rateW = 0 ∧ m.dim.rateE = 0 ∧
      (∀ p, (m.part p).blocks = (s.part p).blocks ∧ (m.part p).mode = (s.part p).mode ∧ (m.part p).sb = {} ∧
        (m.part p).iwinAct = (s.part p).iwinAct) ∧
      (∀ k, (m.stack k).cells = [] ∧ (m.stack k).keyValid = false ∧ (m.stack k).owner = (s.stack k).owner ∧ (m.stack k).stgSize = (s.stack k).stgSize ∧
        (m.stack k).ctl = (s.stack k).ctl ∧ (m.stack k).eng.prog = [] ∧
        (m.stack k).eng.progAddr = (s.stack k).eng.progAddr) ∧
      ∀ p, (m.port p).link = 0 ∧ (m.port p).owner = (s.port p).owner ∧ (m.port p).ring = (s.port p).ring ∧
        (m.port p).ringAct = (s.port p).ring ∧ (m.port p).map = (s.port p).map ∧ (m.port p).mapAct = (s.port p).map ∧
        (m.port p).ctl = ((s.port p).ctl &&& 0xBFFFFFFF) ∧ (m.port p).ctlAct = (m.port p).ctl ∧ (m.port p).colls = [])

/-- MCTP_CONTROL, PLDM_SENSOR_READ, MCTP_WAKE_REQUEST and SMBUS_ARP (R562, R563), CXL_LINK_TRAIN, CXL_LINK_DOWN, IDE_KM and
IDE_INTEGRITY_FAILURE (R461, R462, R483, R487). The sideband answers whenever the module has power; in Snuffed every sensor is
unavailable and a wake request asserts WAKE_N. The link trains at the highest supported rate and the widest width, never below x4, and
without 256-byte flits with CXL.io only; a training that does not reach x4 or finds no common rate leaves the link down. An integrity
failure makes a secure stream insecure, and its traffic is discarded until a new key. What an MCTP control message answers is a free
value (assumption 25).

IMAGE_CHUNK, IMAGE_VERIFY, IMAGE_ACTIVATE, TRANSFER_FW and ACTIVATE_FW (R486, R549, R550, Table 19-9). A command runs only while
LMC_CMD holds it; a chunk goes to its image offset and an image must be verified before it is activated; verification refuses a bad
signature before a low SVN. An activated image goes to flash, and in recovery a cold start follows. Whether a signature verifies, the
SVN and the size limit are free values, and a chunk at offset 0 begins a new image (assumption 24). While the Lamplighter restarts the mailbox
commands only join the queue of those that wait, and a Lamplighter without power runs none (R541, R551). -/
def Obligations.LinkSidebandFirmware : Prop :=
  (∀ s : State,
     (∀ code a x, s.pins.power = false → exec (.mctpControl code) s = .next s ∧ exec (.smbusArp a) s = .next s ∧
       exec (.pldmSensorRead x) s = .next s) ∧
     (s.pins.power = true → (∀ code : BitVec 8, exec (.mctpControl code) s = .next { s with reply := [Config.answer 0 code.toNat 0] }) ∧
       (∀ a, exec (.smbusArp a) s = .next { s with pins := { s.pins with smb := a } }) ∧
       (∀ x, s.pins.snuffed = true → exec (.pldmSensorRead x) s = .next { s with reply := [1] }) ∧
       (s.pins.snuffed = false → exec (.pldmSensorRead .power) s = .next { s with reply := [0, s.dim.watts.zeroExtend 64] } ∧
         exec (.pldmSensorRead .junction) s = .next { s with reply := [0, s.dim.tj.zeroExtend 64] } ∧
         ∃ v, exec (.pldmSensorRead .hbm) s = .next { s with reply := [0, v] } ∧ (∀ k, ((s.stack k).temp.toNat : Nat) ≤ v.toNat))) ∧
     (s.pins.snuffed = true → exec .mctpWakeRequest s = .next { s with pins := { s.pins with wakeN := true } }) ∧
     (s.pins.snuffed = false → exec .mctpWakeRequest s = .next s) ∧
     (∀ o : LinkObs,
       let ok : Prop := s.start.kind = 0 ∧ s.pins.refclk = true ∧ s.pins.perst = false ∧ s.pins.power = true ∧ s.pins.snuffed = false
       let reaches : Prop := 4 ≤ o.width.toNat ∧ 5 ≤ o.rate.toNat
       (¬ ok → exec (.cxlLinkTrain o) s = .next s) ∧ (ok → ¬ reaches → exec (.cxlLinkTrain o) s = exec .cxlLinkDown s) ∧
       (ok → reaches → exec (.cxlLinkTrain o) s = .next { s with cxl := { s.cxl with
         rate := if 7 ≤ o.rate.toNat then 7 else o.rate
         width := if 16 ≤ o.width.toNat then 16 else if 8 ≤ o.width.toNat then 8 else 4
         reversed := o.reversed, ready := o.flit && !s.start.recovery } })) ∧
     exec .cxlLinkDown s = .next { s with cxl := { s.cxl with
       rate := 0, width := 0, reversed := false, ready := false, ideIo := 0, ideCm := false, skid := false, cmFailed := false
       ioFailed := 0 } } ∧
     (∀ cm skid n, s.cxl.rate = 0 ∨ s.start.recovery = true → exec (.ideKm cm skid n) s = .next s) ∧
     (s.cxl.rate ≠ 0 → s.start.recovery = false → ∀ (skid : Bool) (n : BitVec 2),
       exec (.ideKm true skid n) s = .next { s with cxl := { s.cxl with ideCm := true, skid := skid, cmFailed := false } } ∧
       exec (.ideKm false skid n) s = .next { s with cxl := { s.cxl with
         ideIo := s.cxl.ideIo ||| BitVec.ofNat 4 (2 ^ n.toNat), ioFailed := s.cxl.ioFailed &&& ~~~(BitVec.ofNat 4 (2 ^ n.toNat)) } }) ∧
     ∀ n : BitVec 2,
       (s.cxl.ideCm = true → exec (.ideIntegrityFailure true n) s = .next { s with cxl := { s.cxl with
         ideCm := false, cmFailed := true, aer := s.cxl.aer + 1 } }) ∧
       (s.cxl.ideCm = false → exec (.ideIntegrityFailure true n) s = .next s) ∧
       (s.cxl.ideIo.getLsbD n.toNat = true → exec (.ideIntegrityFailure false n) s = .next { s with cxl := { s.cxl with
         ideIo := s.cxl.ideIo &&& ~~~(BitVec.ofNat 4 (2 ^ n.toNat)), ioFailed := s.cxl.ioFailed ||| BitVec.ofNat 4 (2 ^ n.toNat)
         aer := s.cxl.aer + 1 } }) ∧
       (s.cxl.ideIo.getLsbD n.toNat = false → exec (.ideIntegrityFailure false n) s = .next s)) ∧
  (∀ s : State,
     let l := s.lmc
     let n := l.cmd.toNat % 65536
     let runs (op : Nat) : Prop := l.busy = true ∧ bits l.cmd.toNat 31 24 = op ∧ s.start.lmcWait = false ∧
       s.pins.power = true ∧ s.pins.snuffed = false
     let ends (i : Instr) (r : BitVec 8) : Prop := exec i s = .next { s with lmc := { l with busy := false, result := r } }
     let img := readBytes l.image 0 l.imageLen
     let svn := if Config.imageRaises img then max l.minSvn (Config.imageSvn img) else l.minSvn
     let verdict (b : List Byte) : Nat := if Config.imageSigned b = false then 1 else if Config.imageSvn b < l.minSvn then 2 else 0
     let reached : Prop := s.ioUp 0 = true ∧ s.start.recovery = false ∧ s.start.phase = 0xFF
     let mbox : Prop := reached ∧ s.start.lmcWait = false
     let holds (m : Lmc) (off : Nat) (b : List Byte) : Prop := m.verified = false ∧
       (∀ i v, b[i]? = some v → readByte m.image (off + i) = v) ∧
       (off ≠ 0 → (∀ a, (a < off ∨ off + b.length ≤ a) → readByte m.image a = readByte l.image a) ∧
         m.imageLen = max l.imageLen (off + b.length)) ∧
       (off = 0 → m.imageLen = b.length) ∧ m.flash = l.flash ∧ m.flashLen = l.flashLen ∧ m.minSvn = l.minSvn ∧ m.running = l.running
     (¬ runs 1 → exec .imageChunk s = .next s) ∧ (¬ runs 2 → exec .imageVerify s = .next s) ∧ (¬ runs 3 → exec .imageActivate s = .next s) ∧
     (runs 1 → (61440 < n ∨ Config.imageMax < l.arg.toNat + n → ends .imageChunk 3) ∧
       (n ≤ 61440 → l.arg.toNat + n ≤ Config.imageMax → ∃ m, exec .imageChunk s = .next m ∧ { m with lmc := l } = s ∧
         m.lmc.busy = false ∧ m.lmc.result = 0 ∧ holds m.lmc l.arg.toNat (readBytes l.buf 0 n))) ∧
     (runs 2 → exec .imageVerify s = .next { s with lmc := { l with
       busy := false, result := BitVec.ofNat 8 (verdict img), verified := decide (verdict img = 0) } }) ∧
     (runs 3 → l.verified = false → ends .imageActivate 3) ∧
     (runs 3 → l.verified = true → s.start.recovery = false → exec .imageActivate s = .next { s with lmc := { l with
       busy := false, result := 0, flash := l.image, flashLen := l.imageLen, minSvn := svn } }) ∧
     (runs 3 → l.verified = true → s.start.recovery = true → ∃ m, exec .imageActivate s = .next m ∧ m.lmc.flash = l.image ∧
       m.lmc.flashLen = l.imageLen ∧ m.lmc.minSvn = svn ∧ m.start.kind = 1 ∧ m.start.phase = 1 ∧ m.start.fails = 0 ∧
       m.start.recovery = false) ∧
     (∀ off b final, ¬ reached → exec (.transferFw off b final) s = .next s ∧ exec .activateFw s = .next s) ∧
     (reached → s.start.lmcWait = true → ∀ off b final,
       exec (.transferFw off b final) s = .next { s with cxl := { s.cxl with mbox := s.cxl.mbox ++ [.transferFw off b final] } } ∧
       exec .activateFw s = .next { s with cxl := { s.cxl with mbox := s.cxl.mbox ++ [.activateFw] } }) ∧
     (mbox → (∀ (off : BitVec 32) b final, Config.imageMax < off.toNat + b.length →
         exec (.transferFw off b final) s = .next { s with msix := s.msix ++ [(0, 0)], reply := [2] }) ∧
       (∀ (off : BitVec 32) b, off.toNat + b.length ≤ Config.imageMax →
         ∃ m, exec (.transferFw off b false) s = .next m ∧ { m with lmc := l } = { s with msix := s.msix ++ [(0, 0)], reply := [0] } ∧
           holds m.lmc off.toNat b) ∧
       (∀ b : List Byte, b.length ≤ Config.imageMax → ∃ m, exec (.transferFw 0 b true) s = .next m ∧
         m.lmc.verified = decide (verdict b = 0) ∧ m.reply = [if verdict b = 0 then 0 else 0x0B]) ∧
       (l.verified = false → exec .activateFw s = .next { s with msix := s.msix ++ [(0, 0)], reply := [2] }) ∧
       (l.verified = true → exec .activateFw s = .next { s with
         msix := s.msix ++ [(0, 0)], reply := [0], lmc := { l with flash := l.image, flashLen := l.imageLen, minSvn := svn } })))

/-- DOE_DISCOVERY, GET_CERTIFICATE, GET_MEASUREMENTS, CDAT_TABLE_ACCESS and the commands of the Memory Device mailbox (R460, R484–R486,
R521, R552, Tables 16-3, 16-6, 16-7, 19-6). The DOE answers while the link is up, outside recovery; the mailbox once the start is
complete, with a return code and MSI-X vector 0, and Unsupported for every other command; while the Lamplighter restarts its
commands wait in their order, and its return at a control period serves them (R551). A measurement is a SHA-512 digest of eight
words with a signature of seventeen words behind it. Sanitize and Secure Erase re-key every stack. Certificates, signatures and
logs are free values; object numbers, return codes and formats come from the standards (assumption 25), and the restart ends at a control
period (assumption 26). -/
def Obligations.Responders : Prop :=
  ∀ s : State,
    let doe : Prop := s.ioUp 0 = true ∧ s.start.recovery = false
    let reached : Prop := doe ∧ s.start.phase = 0xFF
    let mbox : Prop := reached ∧ s.start.lmcWait = false
    let gives (i : Instr) (r : List (BitVec 64)) : Prop := exec i s = .next { s with reply := r }
    let signs (e : BitVec 8) (d : List (BitVec 64)) : Prop := exec (.getMeasurements e) s = .next { s with
      undef := s.undef + 1, reply := d ++ (List.range 17).map (Config.signature s.undef) }
    let done (i : Instr) (r : List (BitVec 64)) : Prop := exec i s = .next { s with msix := s.msix ++ [(0, 0)], reply := r }
    (¬ doe → ∀ a b c d e f, ∀ i ∈ ([.doeDiscovery a, .getCertificate b c d, .getMeasurements e, .cdatTableAccess f] : List Instr),
      exec i s = .next s) ∧
    (doe → gives (.doeDiscovery 0) [0x01000001] ∧ gives (.doeDiscovery 1) [0x02010001] ∧ gives (.doeDiscovery 2) [0x03020001] ∧
      gives (.doeDiscovery 3) [0x00021E98] ∧ (∀ a : BitVec 8, 4 ≤ a.toNat → gives (.doeDiscovery a) [0xFFFFFF]) ∧
      (∀ c d : BitVec 16, gives (.getCertificate 0 c d) ((List.range d.toNat).map (fun i => Config.answer 1 0 (c.toNat + i)))) ∧
      sha512 [] = [0xCF83E1357EEFB8BD, 0xF1542850D66D8007, 0xD620E4050B5715DC, 0x83F4A921D36CE9CE, 0x47D0D13C5D85F2B0, 0xFF8318D2877EEC2F,
        0x63B931BD47417A81, 0xA538327AF927DA3E] ∧
      signs 2 (sha512 (readBytes s.lmc.running 0 s.lmc.runningLen)) ∧
      signs 6 (sha512 (leBytes 4 s.dim.ctlAct.toNat ++ (List.range 32).flatMap (fun p => leBytes 4 (s.part p).modeAct.toNat))) ∧
      (∀ e : BitVec 8, 1 ≤ e.toNat → e.toNat ≤ 6 → signs e (sha512 (s.measured e.toNat))) ∧
      (∀ e : BitVec 8, e.toNat = 0 ∨ 6 < e.toNat → exec (.getMeasurements e) s = .next s) ∧
      gives (.cdatTableAccess 0) [0, 0, 0, 0, 1152 * 2 ^ 30] ∧ gives (.cdatTableAccess 1) [1, 0, 1, 420] ∧
      gives (.cdatTableAccess 2) [1, 0, 2, 450] ∧ gives (.cdatTableAccess 3) [1, 0, 4, 230] ∧ gives (.cdatTableAccess 4) [1, 0, 5, 230] ∧
      gives (.cdatTableAccess 5) [4, 0, 1, 1152 * 2 ^ 30] ∧ ∀ f : BitVec 16, 6 ≤ f.toNat → gives (.cdatTableAccess f) []) ∧
    (∀ n v a b op, ∀ z ∈ ([(.identifyMemoryDevice, .identify), (.getEventRecords, .getEvents), (.clearEventRecords n, .clearEvents n),
        (.getEventInterruptPolicy, .getPolicy), (.setEventInterruptPolicy v, .setPolicy v), (.getSupportedLogs, .getLogs),
        (.getLog a b, .getLog a b), (.getPoisonList, .getPoison), (.sanitize, .sanitize), (.secureErase, .secureErase),
        (.getFwInfo, .getFwInfo), (.unsupportedCommand op, .other op)] : List (Instr × Mbox)),
      (¬ reached → exec z.1 s = .next s) ∧
      (reached → s.start.lmcWait = true → exec z.1 s = .next { s with cxl := { s.cxl with mbox := s.cxl.mbox ++ [z.2] } }) ∧
      (∀ o, reached → s.start.lmcWait = true → s.pins.power = true → s.pins.snuffed = false → s.cxl.mbox = [z.2] →
        exec (.controlPeriod o) s = match exec (.controlPeriod o) { s with cxl := { s.cxl with mbox := [] } } with
          | .next m => exec z.1 m
          | r => r)) ∧
    (mbox →
      done .identifyMemoryDevice [0, 1152 * 4, 1152 * 4, 0] ∧
      (∃ r, done .getEventRecords (0 :: r) ∧ r.length = 3 * s.cxlEvts.length ∧ ∀ i e, s.cxlEvts[i]? = some e →
        r[3 * i]? = some (BitVec.ofNat 64 (e.dpa + if e.dram then 0 else 1)) ∧ r[3 * i + 1]? = some (BitVec.ofNat 64 e.count) ∧
        r[3 * i + 2]? = some (BitVec.ofNat 64 e.tstamp)) ∧
      (∀ n : BitVec 8, (s.cxlEvts.length < n.toNat → done (.clearEventRecords n) [2]) ∧
        (n.toNat ≤ s.cxlEvts.length → exec (.clearEventRecords n) s = .next { s with
          cxlEvts := s.cxlEvts.drop n.toNat, msix := s.msix ++ [(0, 0)], reply := [0] })) ∧
      done .getEventInterruptPolicy [0, s.cxl.policy.zeroExtend 64] ∧
      (∀ v, exec (.setEventInterruptPolicy v) s = .next { s with
        cxl := { s.cxl with policy := v }, msix := s.msix ++ [(0, 0)], reply := [0] }) ∧
      done .getSupportedLogs [0, 1, Config.answer 2 0 0, Config.answer 2 0 1] ∧
      (∀ a b : BitVec 32, done (.getLog a b) (0 :: (List.range b.toNat).map (fun i => Config.answer 2 1 (a.toNat + i)))) ∧
      (∃ r, done .getPoisonList (0 :: r) ∧ ∀ k u, k < 12 → (u, true) ∈ (s.stack k).found → sget false u (s.stack k).poison = true →
        BitVec.ofNat 64 (96 * 2 ^ 30 * k + 64 * u) ∈ r) ∧
      (∀ i ∈ ([.sanitize, .secureErase] : List Instr), ∃ m, exec i s = .next m ∧ m.reply = [0] ∧ (0, 0) ∈ m.msix ∧
        ∀ k, k < 12 → (m.stack k).rekeys = (s.stack k).rekeys + 1 ∧ (m.stack k).owner = (s.stack k).owner ∧
          ∀ a, (m.stack k).byte k a = Config.unwritten k ((s.stack k).rekeys + 1) a) ∧
      done .getFwInfo [0, BitVec.ofNat 64 (Config.imageSvn (readBytes s.lmc.running 0 s.lmc.runningLen)),
        BitVec.ofNat 64 (Config.imageSvn (readBytes s.lmc.flash 0 s.lmc.flashLen))] ∧
      ∀ op, done (.unsupportedCommand op) [3])

/-! ### The whole block -/

/-- A step runs the command at the front of the queue on the state with the queue's rest. On an empty queue the beat in progress ends,
10 ns of the time stamp pass, and both dies complete the beats of their rates to a tenth; no tile register changes, and where nothing
stands at the beat's end and no error strikes, nothing but the time, the beats and the marks of what was busy changes (R114, R259; that
the block ticks so when no command waits is the model's choice, assumption 5).

No command stops the block: from every state every number of steps ends in a state (R26 and the faults of a tile are its state). -/
def Obligations.StepRunsFront : Prop :=
  ((∀ (c : Instr) (r : List Instr) (s : State), s.pending = c :: r → step s = exec c { s with pending := r }) ∧
   ∀ s : State, s.pending = [] → ∃ m, step s = .next m ∧ m.time = s.time + 10 ∧ m.pending = [] ∧
     (let w := s.dim.fracW + s.dim.rateW.toNat
      let e := s.dim.fracE + s.dim.rateE.toNat
      m.beatsW = s.beatsW + w / 10 ∧ m.dim.fracW = w % 10 ∧ m.beatsE = s.beatsE + e / 10 ∧ m.dim.fracE = e % 10) ∧
     (∀ t r, (m.tile t).g r = (s.tile t).g r) ∧
     ((∀ c ∈ s.runs, c.2.fault = none ∨ c.2.halted = true) → (∀ o, (s.obj o).coming = []) →
       (∀ t h, (s.tile t).hold = some h → h.otherCnt = false) → (∀ k, (s.stack k).narrowQ = []) → (∀ p, (s.port p).link ≠ 3) →
       s.rebind.busy = false → Config.upsets (s.time + 10).toNat = [] → Config.lostRows (s.time + 10).toNat = [] →
       { m with time := s.time, beatsW := s.beatsW, beatsE := s.beatsE, dim := s.dim } = s)) ∧
  ((∀ (c : Instr) (s : State), ∃ m, exec c s = .next m) ∧ ∀ s, SafeRun s)

/-- After reset (R12, R267, R285, R432, R440, R505, R522, R542, Tables 2-5, 15-11, 17-6, 19-4, 19-8): partition 0 owns all blocks, stacks,
ports and sync objects above block level and may hold 262,144 task records, the others own nothing; tiles are UNASSIGNED, sync objects
zero and virtual IDs unmapped; queues, graphs, windows, logs and mailboxes are empty; every MODE reads 0x0800_0000, DIM_CTL Balanced.
That this is the state after a completed cold start, with the link still down, is the model's choice (assumption 12). -/
def Obligations.ResetState : Prop :=
  let s := State.reset
  s.pending = [] ∧ (s.part 0).blocks = 0xFFFFFFFF ∧ (s.part 0).syncBase = 16384 ∧ (s.part 0).syncCount = 16384 ∧
  (s.part 0).recMax = 262144 ∧ sget 0 0 (s.part 0).iwinAct = 0xE0000FFF ∧
  (∀ p, p ≠ 0 → (s.part p).blocks = 0 ∧ (s.part p).syncCount = 0 ∧ (s.part p).recMax = 0 ∧ (s.part p).iwinAct = []) ∧
  (∀ p, (s.part p).mode = 0x08000000 ∧ (s.part p).modeAct = 0x08000000 ∧ (s.part p).rerunMax = 2 ∧ (s.part p).sb = {} ∧
    (s.part p).wdog = 0x4000) ∧
  (∀ k, k < 12 → (s.stack k).owner = some 0 ∧ (s.stack k).keyValid = true ∧ (s.stack k).stgSize = 0x180 ∧ (s.stack k).cells = [] ∧
    (s.stack k).eng.queue = []) ∧
  (∀ p, p < 8 → (s.port p).owner = some 0 ∧ (s.port p).link = 0 ∧ (s.port p).colls = []) ∧
  (∀ t, (s.tile t).st = 0 ∧ (s.tile t).fValid = false ∧ ∀ r, (s.tile t).g r = 0) ∧ (∀ o, s.obj o = {}) ∧
  (∀ p v, s.translate p v = none) ∧ s.graphs = [] ∧ s.arms = [] ∧ s.events = [] ∧ s.elSeq = 0 ∧ s.elRd = 0 ∧ s.frPf = {} ∧ s.frVf = [] ∧
  s.flags = [] ∧ (∀ n, (s.win n).state = 0) ∧ s.rebind = {} ∧ s.msgs = [] ∧ s.incs = [] ∧ s.runs = [] ∧
  (∀ k, (s.stack k).narrowQ = [] ∧ (s.stack k).rekeying = false ∧ (s.stack k).poison = []) ∧ s.dim.ctl = 0x40000000 ∧ s.dim.budget = 5 ∧ s.dim.thresh = 0x14064064 ∧
  s.start.phase = 0xFF ∧ s.start.last = 1 ∧ s.cxl.rate = 0 ∧ s.cxl.ready = false

/-- The invariant of the event log holds at reset: at most 4,096 of its entries are unread (R522). -/
def Obligations.ResetKeepsLog : Prop :=
  (State.reset.elSeq - State.reset.elRd).toNat ≤ 4096

/-- Every step keeps the invariant of the event log: at most 4,096 of its entries are unread (R522), whatever command is at the front of
the queue: a record, a re-bind, a start, a change of mode, a closed window, a warning, a write of EL_RD or a restart. -/
def Obligations.StepKeepsLog : Prop :=
  ∀ s n : State, (s.elSeq - s.elRd).toNat ≤ 4096 → step s = .next n → (n.elSeq - n.elRd).toNat ≤ 4096

/-- Commands leave the queue of waiting commands alone: no command drops, adds or reorders one, and a run of as many steps as commands
wait executes them first in, first out, however many they are. -/
def Obligations.QueueOrder : Prop :=
  (∀ (c : Instr) (s n : State), exec c s = .next n → n.pending = s.pending) ∧
  (∀ (c d : Instr) (s n m : State), s.pending = [c, d] → exec c { s with pending := [d] } = .next n →
    exec d { n with pending := [] } = .next m →
    Host.Core.run { State := State, Fault := Fault, Refusal := Refusal, step := step, reset := State.reset } 2 s = .next m) ∧
  ∀ (l : List Instr) (s : State), s.pending = l →
    Host.Core.run { State := State, Fault := Fault, Refusal := Refusal, step := step, reset := State.reset } l.length s = runQueued l s ∧
    ∃ m, runQueued l s = .next m ∧ m.pending = []

/-- The faults of a bundle as a whole (R26, R45, R66, R87, R93, R94, R103, R447, R519, shown for ADD): a PC beyond Shelf N raises
TILE_ADDR, a line that reads uncorrectable TILE_UE, a reserved word in the other slot BAD_OP, once the older words of the tile's matrix
queue are done. No word takes effect; the tile keeps code, PC and address, and the task its first fault, among those of one beat that of
the lowest relative ID. At the end of the beat the other working tiles of the task stop with PEER_STOP, and the task's fault causes a
fault record (the beat's end is where the model puts the halt: assumption 52). -/
def Obligations.BundleFaults : Prop :=
  (∀ (t : TileId) (h : Hdr) (o : OpR) (other : Word) (s : State),
    let x := s.tile t
    let r := s.runOf t
    x.canIssue = true → x.fTaken = false →
    let named (code : Nat) : Option (BitVec 8 × BitVec 11) := some (BitVec.ofNat 8 code, x.rel)
    let stops (y : Tile) (code addr : Nat) : Prop :=
      (x.drained = false → MakesTile (.add t h o other) t s y) ∧
      (x.drained = true → ∃ m, exec (.add t h o other) s = .next m ∧ { m with tiles := s.tiles, runs := s.runs } = s ∧
        (∀ u, u ≠ t → m.tile u = s.tile u) ∧
        m.tile t = { y with
          st := 7, hold := none, fTaken := true, fValid := true, fMulti := false, fCode := BitVec.ofNat 8 code, fPc := x.pc
          fAddr := BitVec.ofNat 32 addr } ∧
        (r.fault = none → (m.run x.task).fault = named code ∧ (m.run x.task).faultAt = s.time) ∧
        (∀ f, r.fault = some f → (m.run x.task).fault =
          if r.halted = false ∧ r.faultAt = s.time ∧ x.rel.toNat < f.2.toNat then named code else some f))
    (0x100000 ≤ x.pc.toNat → stops x tileADDR x.pc.toNat) ∧
    (x.pc.toNat < 0x100000 → (∀ a, (fetched s t).fetchBad = some a → stops (fetched s t) tileUE a) ∧
      ((fetched s t).fetchBad = none → (decB other).bad = true → stops (fetched s t) badOP 0))) ∧
  ∀ (s : State) (k : Nat) (r : Run) (f : BitVec 8 × BitVec 11), s.pending = [] → (k, r) ∈ s.runs → sget false k s.live = true →
    r.fault = some f → r.halted = false → ∃ m, step s = .next m ∧ (m.run k).halted = true ∧
      (∃ e ∈ m.events, e.source = 1 ∧ e.code = f.1.toNat ∧ e.unit = (r.tileAt f.2.toNat).toNat) ∧
      ∀ u ∈ r.tiles, (s.tile u).task = k → (s.tile u).assigned = true → (s.tile u).st ≠ 7 →
        (m.tile u).st = 7 ∧ (m.tile u).gs = (s.tile u).gs ∧ ((s.tile u).fTaken = false → (m.tile u).fCode = 0x0F)
end

