-- ==== Sys2Proof/Laws/Sparse.lean ====
section
/-!
SUPPORT. What the operations on sparse maps and byte memories do: reading after writing, and the canonical form that every
write keeps.
-/
namespace Sys2Proof.Machine

/-! ### Reading after writing -/

/-- What a read finds: the default, or the value of a listed entry of its key. -/
theorem sget_cases {α : Type} (d : α) (k : Nat) (m : Sparse α) : sget d k m = d ∨ ∃ c ∈ m, c.1 = k ∧ sget d k m = c.2 := by
  induction m with
  | nil => exact .inl rfl
  | cons c m ih =>
    by_cases h : c.1 = k
    · exact .inr ⟨c, List.mem_cons_self, h, by simp [sget, h]⟩
    · have e : sget d k (c :: m) = sget d k m := by simp [sget, h]
      rw [e]
      exact ih.imp_right fun ⟨x, hx, y⟩ => ⟨x, List.mem_cons_of_mem _ hx, y⟩

theorem sget_sins_same {α : Type} (d : α) (k : Nat) (v : α) (m : Sparse α) : sget d k (sins k v m) = v := by
  induction m with
  | nil => simp [sins, sget]
  | cons c r ih =>
    obtain ⟨j, x⟩ := c
    by_cases h1 : k < j
    · simp [sins, sget, h1]
    · by_cases h2 : j = k
      · simp [sins, sget, h2]
      · simp [sins, sget, h1, h2, ih]

theorem sget_sins_other {α : Type} (d : α) {i k : Nat} (h : i ≠ k) (v : α) (m : Sparse α) :
    sget d i (sins k v m) = sget d i m := by
  induction m with
  | nil => simp [sins, sget, h.symm]
  | cons c r ih =>
    obtain ⟨j, x⟩ := c
    by_cases h1 : k < j
    · simp [sins, sget, h1, h.symm]
    · by_cases h2 : j = k
      · subst h2; simp [sins, sget, h.symm]
      · simp [sins, sget, h1, h2, ih]

theorem sget_sdel_same {α : Type} (d : α) (k : Nat) (m : Sparse α) : sget d k (sdel k m) = d := by
  induction m with
  | nil => rfl
  | cons c r ih =>
    obtain ⟨j, x⟩ := c
    by_cases h : j = k
    · simpa [sdel, h] using ih
    · simpa [sdel, sget, h] using ih

theorem sget_sdel_other {α : Type} (d : α) {i k : Nat} (h : i ≠ k) (m : Sparse α) :
    sget d i (sdel k m) = sget d i m := by
  induction m with
  | nil => rfl
  | cons c r ih =>
    obtain ⟨j, x⟩ := c
    by_cases h1 : j = k
    · subst h1; simpa [sdel, sget, h.symm] using ih
    · by_cases h2 : j = i
      · subst h2; simp [sdel, sget, h]
      · simpa [sdel, sget, h1, h2] using ih

/-- A key reads as what was last written to it. -/
@[simp] theorem sget_sput_same {α : Type} [DecidableEq α] (d : α) (k : Nat) (v : α) (m : Sparse α) :
    sget d k (sput d k v m) = v := by
  by_cases h : v = d
  · simp [sput, h, sget_sdel_same]
  · simp [sput, h, sget_sins_same]

/-- A write leaves every other key alone. -/
theorem sget_sput_other {α : Type} [DecidableEq α] (d : α) {i k : Nat} (h : i ≠ k) (v : α) (m : Sparse α) :
    sget d i (sput d k v m) = sget d i m := by
  by_cases h1 : v = d
  · simp [sput, h1, sget_sdel_other d h]
  · simp [sput, h1, sget_sins_other d h]

/-- Both at once. -/
theorem sget_sput {α : Type} [DecidableEq α] (d : α) (i k : Nat) (v : α) (m : Sparse α) :
    sget d i (sput d k v m) = if i = k then v else sget d i m := by
  by_cases h : i = k
  · simp [h]
  · simp [h, sget_sput_other d h]

/-! ### The canonical form -/

/-- Removing a key keeps the canonical form. -/
theorem wf_sdel {α : Type} {d : α} {m : Sparse α} (k : Nat) (h : Sparse.wf d m) : Sparse.wf d (sdel k m) :=
  ⟨h.1.sublist List.filter_sublist, fun c hc => h.2 c (List.mem_of_mem_filter hc)⟩

/-- Removing a range of keys keeps it. -/
theorem wf_filter {α : Type} {d : α} {m : Sparse α} (p : Nat × α → Bool) (h : Sparse.wf d m) :
    Sparse.wf d (m.filter p) :=
  ⟨h.1.sublist List.filter_sublist, fun c hc => h.2 c (List.mem_of_mem_filter hc)⟩

theorem mem_sins {α : Type} {k : Nat} {v : α} {m : Sparse α} {c : Nat × α} (h : c ∈ sins k v m) :
    c = (k, v) ∨ c ∈ m := by
  induction m with
  | nil => exact .inl (by simpa [sins] using h)
  | cons b r ih =>
    obtain ⟨j, x⟩ := b
    simp only [sins] at h
    split at h
    · rcases List.mem_cons.1 h with h | h
      · exact .inl h
      · exact .inr h
    · split at h
      · rcases List.mem_cons.1 h with h | h
        · exact .inl h
        · exact .inr (List.mem_cons_of_mem _ h)
      · rcases List.mem_cons.1 h with h | h
        · exact .inr (h ▸ List.mem_cons_self)
        · rcases ih h with h | h
          · exact .inl h
          · exact .inr (List.mem_cons_of_mem _ h)

theorem rising_sins {α : Type} {m : Sparse α} (k : Nat) (v : α) (h : m.Pairwise (fun a b => a.1 < b.1)) :
    (sins k v m).Pairwise (fun a b => a.1 < b.1) := by
  induction m with
  | nil => simp [sins]
  | cons b r ih =>
    obtain ⟨j, x⟩ := b
    obtain ⟨hb, hr⟩ := List.pairwise_cons.1 h
    simp only [sins]
    split
    · rename_i hk
      refine List.pairwise_cons.2 ⟨fun c hc => ?_, h⟩
      rcases List.mem_cons.1 hc with rfl | hc
      · exact hk
      · exact Nat.lt_trans hk (hb c hc)
    · split
      · rename_i _ hk
        subst hk
        exact List.pairwise_cons.2 ⟨hb, hr⟩
      · rename_i h1 h2
        refine List.pairwise_cons.2 ⟨fun c hc => ?_, ih hr⟩
        rcases mem_sins hc with rfl | hc
        · show j < k
          omega
        · exact hb c hc

/-- Writing keeps the canonical form. -/
theorem wf_sput {α : Type} [DecidableEq α] {d : α} {m : Sparse α} (k : Nat) (v : α) (h : Sparse.wf d m) :
    Sparse.wf d (sput d k v m) := by
  unfold sput
  split
  · exact wf_sdel k h
  · rename_i hv
    refine ⟨rising_sins k v h.1, fun c hc => ?_⟩
    rcases mem_sins hc with rfl | hc
    · exact hv
    · exact h.2 c hc

/-- The empty map has the canonical form. -/
theorem wf_nil {α : Type} (d : α) : Sparse.wf d ([] : Sparse α) := ⟨List.Pairwise.nil, by simp⟩

/-! ### Byte memories -/

@[simp] theorem readByte_writeByte_same (m : Memory) (a : Nat) (b : Byte) : readByte (writeByte m a b) a = b :=
  sget_sput_same 0 a b m

theorem readByte_writeByte_other {m : Memory} {a i : Nat} (b : Byte) (h : i ≠ a) :
    readByte (writeByte m a b) i = readByte m i :=
  sget_sput_other 0 h b m

/-- Writing a byte keeps the canonical form. -/
theorem wf_writeByte {m : Memory} (a : Nat) (b : Byte) (h : m.wf) : (writeByte m a b).wf := wf_sput a b h

theorem wf_writeLE {m : Memory} (a n v : Nat) (h : m.wf) : (writeLE m a n v).wf := by
  induction n generalizing m a v with
  | zero => exact h
  | succ n ih => exact ih _ _ (wf_writeByte _ _ h)

theorem wf_writeBytes {m : Memory} (a : Nat) (l : List Byte) (h : m.wf) : (writeBytes m a l).wf := by
  induction l generalizing m a with
  | nil => exact h
  | cons b r ih => exact ih _ (wf_writeByte _ _ h)

theorem wf_zeroRange {m : Memory} (a n : Nat) (h : m.wf) : (zeroRange m a n).wf := wf_filter _ h

theorem wf_sdelRange {α : Type} {d : α} {m : Sparse α} (a n : Nat) (h : Sparse.wf d m) :
    Sparse.wf d (sdelRange a n m) := wf_filter _ h

/-- A list of byte writes keeps the canonical form. -/
theorem wf_foldl_writeByte {m : Memory} (l : List (Nat × Byte)) (h : m.wf) :
    (l.foldl (fun m c => writeByte m c.1 c.2) m).wf := by
  induction l generalizing m with
  | nil => exact h
  | cons c r ih => exact ih (wf_writeByte _ _ h)

/-- A list of byte writes leaves every address alone that it does not name. -/
theorem readByte_foldl_other {m : Memory} {a : Nat} (l : List (Nat × Byte)) (h : ∀ c ∈ l, c.1 ≠ a) :
    readByte (l.foldl (fun m c => writeByte m c.1 c.2) m) a = readByte m a := by
  induction l generalizing m with
  | nil => rfl
  | cons c r ih =>
    rw [List.foldl_cons, ih (fun x hx => h x (List.mem_cons_of_mem _ hx)),
      readByte_writeByte_other _ (h c List.mem_cons_self).symm]

end Sys2Proof.Machine
end

