-- ==== Sys2Proof/Laws/State.lean ====
section
/-!
SUPPORT. What each named update of the state does to each field and to each map, so that no proof unfolds a record update.
-/
namespace Sys2Proof.Machine

@[simp] theorem State.setTile_pending (s : State) (t : TileId) (x : Tile) : (s.setTile t x).pending = s.pending := rfl
@[simp] theorem State.setTile_steppingB0 (s : State) (t : TileId) (x : Tile) : (s.setTile t x).steppingB0 = s.steppingB0 := rfl
@[simp] theorem State.setTile_time (s : State) (t : TileId) (x : Tile) : (s.setTile t x).time = s.time := rfl
@[simp] theorem State.setTile_beatsW (s : State) (t : TileId) (x : Tile) : (s.setTile t x).beatsW = s.beatsW := rfl
@[simp] theorem State.setTile_beatsE (s : State) (t : TileId) (x : Tile) : (s.setTile t x).beatsE = s.beatsE := rfl
@[simp] theorem State.setTile_objs (s : State) (t : TileId) (x : Tile) : (s.setTile t x).objs = s.objs := rfl
@[simp] theorem State.setTile_incs (s : State) (t : TileId) (x : Tile) : (s.setTile t x).incs = s.incs := rfl
@[simp] theorem State.setTile_msgs (s : State) (t : TileId) (x : Tile) : (s.setTile t x).msgs = s.msgs := rfl
@[simp] theorem State.setTile_xlate (s : State) (t : TileId) (x : Tile) : (s.setTile t x).xlate = s.xlate := rfl
@[simp] theorem State.setTile_runs (s : State) (t : TileId) (x : Tile) : (s.setTile t x).runs = s.runs := rfl
@[simp] theorem State.setTile_live (s : State) (t : TileId) (x : Tile) : (s.setTile t x).live = s.live := rfl
@[simp] theorem State.setTile_parts (s : State) (t : TileId) (x : Tile) : (s.setTile t x).parts = s.parts := rfl
@[simp] theorem State.setTile_hbm (s : State) (t : TileId) (x : Tile) : (s.setTile t x).hbm = s.hbm := rfl
@[simp] theorem State.setTile_arms (s : State) (t : TileId) (x : Tile) : (s.setTile t x).arms = s.arms := rfl
@[simp] theorem State.setTile_undef (s : State) (t : TileId) (x : Tile) : (s.setTile t x).undef = s.undef := rfl
@[simp] theorem State.setTile_events (s : State) (t : TileId) (x : Tile) : (s.setTile t x).events = s.events := rfl
@[simp] theorem State.setTile_integ (s : State) (t : TileId) (x : Tile) : (s.setTile t x).integ = s.integ := rfl
@[simp] theorem State.setTile_cxlEvts (s : State) (t : TileId) (x : Tile) : (s.setTile t x).cxlEvts = s.cxlEvts := rfl
@[simp] theorem State.setTile_bisnp (s : State) (t : TileId) (x : Tile) : (s.setTile t x).bisnp = s.bisnp := rfl
@[simp] theorem State.setTile_biFull (s : State) (t : TileId) (x : Tile) : (s.setTile t x).biFull = s.biFull := rfl
@[simp] theorem State.setTile_reds (s : State) (t : TileId) (x : Tile) : (s.setTile t x).reds = s.reds := rfl
@[simp] theorem State.setTile_ports (s : State) (t : TileId) (x : Tile) : (s.setTile t x).ports = s.ports := rfl
@[simp] theorem State.setTile_wins (s : State) (t : TileId) (x : Tile) : (s.setTile t x).wins = s.wins := rfl
@[simp] theorem State.setTile_winUnits (s : State) (t : TileId) (x : Tile) : (s.setTile t x).winUnits = s.winUnits := rfl
@[simp] theorem State.setTile_winPortId (s : State) (t : TileId) (x : Tile) : (s.setTile t x).winPortId = s.winPortId := rfl
@[simp] theorem State.setTile_winPortBase (s : State) (t : TileId) (x : Tile) : (s.setTile t x).winPortBase = s.winPortBase := rfl
@[simp] theorem State.setTile_frPf (s : State) (t : TileId) (x : Tile) : (s.setTile t x).frPf = s.frPf := rfl
@[simp] theorem State.setTile_frVf (s : State) (t : TileId) (x : Tile) : (s.setTile t x).frVf = s.frVf := rfl
@[simp] theorem State.setTile_el (s : State) (t : TileId) (x : Tile) : (s.setTile t x).el = s.el := rfl
@[simp] theorem State.setTile_elSeq (s : State) (t : TileId) (x : Tile) : (s.setTile t x).elSeq = s.elSeq := rfl
@[simp] theorem State.setTile_elRd (s : State) (t : TileId) (x : Tile) : (s.setTile t x).elRd = s.elRd := rfl
@[simp] theorem State.setTile_elLost (s : State) (t : TileId) (x : Tile) : (s.setTile t x).elLost = s.elLost := rfl
@[simp] theorem State.setTile_elWait (s : State) (t : TileId) (x : Tile) : (s.setTile t x).elWait = s.elWait := rfl
@[simp] theorem State.setTile_sels (s : State) (t : TileId) (x : Tile) : (s.setTile t x).sels = s.sels := rfl
@[simp] theorem State.setTile_los (s : State) (t : TileId) (x : Tile) : (s.setTile t x).los = s.los := rfl
@[simp] theorem State.setTile_badAccess (s : State) (t : TileId) (x : Tile) : (s.setTile t x).badAccess = s.badAccess := rfl
@[simp] theorem State.setTile_flags (s : State) (t : TileId) (x : Tile) : (s.setTile t x).flags = s.flags := rfl
@[simp] theorem State.setTile_graphs (s : State) (t : TileId) (x : Tile) : (s.setTile t x).graphs = s.graphs := rfl
@[simp] theorem State.setTile_graphNum (s : State) (t : TileId) (x : Tile) : (s.setTile t x).graphNum = s.graphNum := rfl
@[simp] theorem State.setTile_serial (s : State) (t : TileId) (x : Tile) : (s.setTile t x).serial = s.serial := rfl
@[simp] theorem State.setTile_rebind (s : State) (t : TileId) (x : Tile) : (s.setTile t x).rebind = s.rebind := rfl
@[simp] theorem State.setTile_start (s : State) (t : TileId) (x : Tile) : (s.setTile t x).start = s.start := rfl
@[simp] theorem State.setTile_dim (s : State) (t : TileId) (x : Tile) : (s.setTile t x).dim = s.dim := rfl
@[simp] theorem State.setTile_pins (s : State) (t : TileId) (x : Tile) : (s.setTile t x).pins = s.pins := rfl
@[simp] theorem State.setTile_lmc (s : State) (t : TileId) (x : Tile) : (s.setTile t x).lmc = s.lmc := rfl
@[simp] theorem State.setTile_cxl (s : State) (t : TileId) (x : Tile) : (s.setTile t x).cxl = s.cxl := rfl
@[simp] theorem State.setTile_hostOut (s : State) (t : TileId) (x : Tile) : (s.setTile t x).hostOut = s.hostOut := rfl
@[simp] theorem State.setTile_msix (s : State) (t : TileId) (x : Tile) : (s.setTile t x).msix = s.msix := rfl
@[simp] theorem State.setTile_platform (s : State) (t : TileId) (x : Tile) : (s.setTile t x).platform = s.platform := rfl
@[simp] theorem State.setTile_reply (s : State) (t : TileId) (x : Tile) : (s.setTile t x).reply = s.reply := rfl

@[simp] theorem State.setStack_pending (s : State) (k : Nat) (x : Stack) : (s.setStack k x).pending = s.pending := rfl
@[simp] theorem State.setStack_steppingB0 (s : State) (k : Nat) (x : Stack) : (s.setStack k x).steppingB0 = s.steppingB0 := rfl
@[simp] theorem State.setStack_time (s : State) (k : Nat) (x : Stack) : (s.setStack k x).time = s.time := rfl
@[simp] theorem State.setStack_beatsW (s : State) (k : Nat) (x : Stack) : (s.setStack k x).beatsW = s.beatsW := rfl
@[simp] theorem State.setStack_beatsE (s : State) (k : Nat) (x : Stack) : (s.setStack k x).beatsE = s.beatsE := rfl
@[simp] theorem State.setStack_tiles (s : State) (k : Nat) (x : Stack) : (s.setStack k x).tiles = s.tiles := rfl
@[simp] theorem State.setStack_objs (s : State) (k : Nat) (x : Stack) : (s.setStack k x).objs = s.objs := rfl
@[simp] theorem State.setStack_incs (s : State) (k : Nat) (x : Stack) : (s.setStack k x).incs = s.incs := rfl
@[simp] theorem State.setStack_msgs (s : State) (k : Nat) (x : Stack) : (s.setStack k x).msgs = s.msgs := rfl
@[simp] theorem State.setStack_xlate (s : State) (k : Nat) (x : Stack) : (s.setStack k x).xlate = s.xlate := rfl
@[simp] theorem State.setStack_runs (s : State) (k : Nat) (x : Stack) : (s.setStack k x).runs = s.runs := rfl
@[simp] theorem State.setStack_live (s : State) (k : Nat) (x : Stack) : (s.setStack k x).live = s.live := rfl
@[simp] theorem State.setStack_parts (s : State) (k : Nat) (x : Stack) : (s.setStack k x).parts = s.parts := rfl
@[simp] theorem State.setStack_arms (s : State) (k : Nat) (x : Stack) : (s.setStack k x).arms = s.arms := rfl
@[simp] theorem State.setStack_undef (s : State) (k : Nat) (x : Stack) : (s.setStack k x).undef = s.undef := rfl
@[simp] theorem State.setStack_events (s : State) (k : Nat) (x : Stack) : (s.setStack k x).events = s.events := rfl
@[simp] theorem State.setStack_integ (s : State) (k : Nat) (x : Stack) : (s.setStack k x).integ = s.integ := rfl
@[simp] theorem State.setStack_cxlEvts (s : State) (k : Nat) (x : Stack) : (s.setStack k x).cxlEvts = s.cxlEvts := rfl
@[simp] theorem State.setStack_bisnp (s : State) (k : Nat) (x : Stack) : (s.setStack k x).bisnp = s.bisnp := rfl
@[simp] theorem State.setStack_biFull (s : State) (k : Nat) (x : Stack) : (s.setStack k x).biFull = s.biFull := rfl
@[simp] theorem State.setStack_reds (s : State) (k : Nat) (x : Stack) : (s.setStack k x).reds = s.reds := rfl
@[simp] theorem State.setStack_ports (s : State) (k : Nat) (x : Stack) : (s.setStack k x).ports = s.ports := rfl
@[simp] theorem State.setStack_wins (s : State) (k : Nat) (x : Stack) : (s.setStack k x).wins = s.wins := rfl
@[simp] theorem State.setStack_winUnits (s : State) (k : Nat) (x : Stack) : (s.setStack k x).winUnits = s.winUnits := rfl
@[simp] theorem State.setStack_winPortId (s : State) (k : Nat) (x : Stack) : (s.setStack k x).winPortId = s.winPortId := rfl
@[simp] theorem State.setStack_winPortBase (s : State) (k : Nat) (x : Stack) : (s.setStack k x).winPortBase = s.winPortBase := rfl
@[simp] theorem State.setStack_frPf (s : State) (k : Nat) (x : Stack) : (s.setStack k x).frPf = s.frPf := rfl
@[simp] theorem State.setStack_frVf (s : State) (k : Nat) (x : Stack) : (s.setStack k x).frVf = s.frVf := rfl
@[simp] theorem State.setStack_el (s : State) (k : Nat) (x : Stack) : (s.setStack k x).el = s.el := rfl
@[simp] theorem State.setStack_elSeq (s : State) (k : Nat) (x : Stack) : (s.setStack k x).elSeq = s.elSeq := rfl
@[simp] theorem State.setStack_elRd (s : State) (k : Nat) (x : Stack) : (s.setStack k x).elRd = s.elRd := rfl
@[simp] theorem State.setStack_elLost (s : State) (k : Nat) (x : Stack) : (s.setStack k x).elLost = s.elLost := rfl
@[simp] theorem State.setStack_elWait (s : State) (k : Nat) (x : Stack) : (s.setStack k x).elWait = s.elWait := rfl
@[simp] theorem State.setStack_sels (s : State) (k : Nat) (x : Stack) : (s.setStack k x).sels = s.sels := rfl
@[simp] theorem State.setStack_los (s : State) (k : Nat) (x : Stack) : (s.setStack k x).los = s.los := rfl
@[simp] theorem State.setStack_badAccess (s : State) (k : Nat) (x : Stack) : (s.setStack k x).badAccess = s.badAccess := rfl
@[simp] theorem State.setStack_flags (s : State) (k : Nat) (x : Stack) : (s.setStack k x).flags = s.flags := rfl
@[simp] theorem State.setStack_graphs (s : State) (k : Nat) (x : Stack) : (s.setStack k x).graphs = s.graphs := rfl
@[simp] theorem State.setStack_graphNum (s : State) (k : Nat) (x : Stack) : (s.setStack k x).graphNum = s.graphNum := rfl
@[simp] theorem State.setStack_serial (s : State) (k : Nat) (x : Stack) : (s.setStack k x).serial = s.serial := rfl
@[simp] theorem State.setStack_rebind (s : State) (k : Nat) (x : Stack) : (s.setStack k x).rebind = s.rebind := rfl
@[simp] theorem State.setStack_start (s : State) (k : Nat) (x : Stack) : (s.setStack k x).start = s.start := rfl
@[simp] theorem State.setStack_dim (s : State) (k : Nat) (x : Stack) : (s.setStack k x).dim = s.dim := rfl
@[simp] theorem State.setStack_pins (s : State) (k : Nat) (x : Stack) : (s.setStack k x).pins = s.pins := rfl
@[simp] theorem State.setStack_lmc (s : State) (k : Nat) (x : Stack) : (s.setStack k x).lmc = s.lmc := rfl
@[simp] theorem State.setStack_cxl (s : State) (k : Nat) (x : Stack) : (s.setStack k x).cxl = s.cxl := rfl
@[simp] theorem State.setStack_hostOut (s : State) (k : Nat) (x : Stack) : (s.setStack k x).hostOut = s.hostOut := rfl
@[simp] theorem State.setStack_msix (s : State) (k : Nat) (x : Stack) : (s.setStack k x).msix = s.msix := rfl
@[simp] theorem State.setStack_platform (s : State) (k : Nat) (x : Stack) : (s.setStack k x).platform = s.platform := rfl
@[simp] theorem State.setStack_reply (s : State) (k : Nat) (x : Stack) : (s.setStack k x).reply = s.reply := rfl

@[simp] theorem State.setPart_pending (s : State) (p : Nat) (x : Part) : (s.setPart p x).pending = s.pending := rfl
@[simp] theorem State.setPart_steppingB0 (s : State) (p : Nat) (x : Part) : (s.setPart p x).steppingB0 = s.steppingB0 := rfl
@[simp] theorem State.setPart_time (s : State) (p : Nat) (x : Part) : (s.setPart p x).time = s.time := rfl
@[simp] theorem State.setPart_beatsW (s : State) (p : Nat) (x : Part) : (s.setPart p x).beatsW = s.beatsW := rfl
@[simp] theorem State.setPart_beatsE (s : State) (p : Nat) (x : Part) : (s.setPart p x).beatsE = s.beatsE := rfl
@[simp] theorem State.setPart_tiles (s : State) (p : Nat) (x : Part) : (s.setPart p x).tiles = s.tiles := rfl
@[simp] theorem State.setPart_objs (s : State) (p : Nat) (x : Part) : (s.setPart p x).objs = s.objs := rfl
@[simp] theorem State.setPart_incs (s : State) (p : Nat) (x : Part) : (s.setPart p x).incs = s.incs := rfl
@[simp] theorem State.setPart_msgs (s : State) (p : Nat) (x : Part) : (s.setPart p x).msgs = s.msgs := rfl
@[simp] theorem State.setPart_xlate (s : State) (p : Nat) (x : Part) : (s.setPart p x).xlate = s.xlate := rfl
@[simp] theorem State.setPart_runs (s : State) (p : Nat) (x : Part) : (s.setPart p x).runs = s.runs := rfl
@[simp] theorem State.setPart_live (s : State) (p : Nat) (x : Part) : (s.setPart p x).live = s.live := rfl
@[simp] theorem State.setPart_hbm (s : State) (p : Nat) (x : Part) : (s.setPart p x).hbm = s.hbm := rfl
@[simp] theorem State.setPart_arms (s : State) (p : Nat) (x : Part) : (s.setPart p x).arms = s.arms := rfl
@[simp] theorem State.setPart_undef (s : State) (p : Nat) (x : Part) : (s.setPart p x).undef = s.undef := rfl
@[simp] theorem State.setPart_events (s : State) (p : Nat) (x : Part) : (s.setPart p x).events = s.events := rfl
@[simp] theorem State.setPart_integ (s : State) (p : Nat) (x : Part) : (s.setPart p x).integ = s.integ := rfl
@[simp] theorem State.setPart_cxlEvts (s : State) (p : Nat) (x : Part) : (s.setPart p x).cxlEvts = s.cxlEvts := rfl
@[simp] theorem State.setPart_bisnp (s : State) (p : Nat) (x : Part) : (s.setPart p x).bisnp = s.bisnp := rfl
@[simp] theorem State.setPart_biFull (s : State) (p : Nat) (x : Part) : (s.setPart p x).biFull = s.biFull := rfl
@[simp] theorem State.setPart_reds (s : State) (p : Nat) (x : Part) : (s.setPart p x).reds = s.reds := rfl
@[simp] theorem State.setPart_ports (s : State) (p : Nat) (x : Part) : (s.setPart p x).ports = s.ports := rfl
@[simp] theorem State.setPart_wins (s : State) (p : Nat) (x : Part) : (s.setPart p x).wins = s.wins := rfl
@[simp] theorem State.setPart_winUnits (s : State) (p : Nat) (x : Part) : (s.setPart p x).winUnits = s.winUnits := rfl
@[simp] theorem State.setPart_winPortId (s : State) (p : Nat) (x : Part) : (s.setPart p x).winPortId = s.winPortId := rfl
@[simp] theorem State.setPart_winPortBase (s : State) (p : Nat) (x : Part) : (s.setPart p x).winPortBase = s.winPortBase := rfl
@[simp] theorem State.setPart_frPf (s : State) (p : Nat) (x : Part) : (s.setPart p x).frPf = s.frPf := rfl
@[simp] theorem State.setPart_frVf (s : State) (p : Nat) (x : Part) : (s.setPart p x).frVf = s.frVf := rfl
@[simp] theorem State.setPart_el (s : State) (p : Nat) (x : Part) : (s.setPart p x).el = s.el := rfl
@[simp] theorem State.setPart_elSeq (s : State) (p : Nat) (x : Part) : (s.setPart p x).elSeq = s.elSeq := rfl
@[simp] theorem State.setPart_elRd (s : State) (p : Nat) (x : Part) : (s.setPart p x).elRd = s.elRd := rfl
@[simp] theorem State.setPart_elLost (s : State) (p : Nat) (x : Part) : (s.setPart p x).elLost = s.elLost := rfl
@[simp] theorem State.setPart_elWait (s : State) (p : Nat) (x : Part) : (s.setPart p x).elWait = s.elWait := rfl
@[simp] theorem State.setPart_sels (s : State) (p : Nat) (x : Part) : (s.setPart p x).sels = s.sels := rfl
@[simp] theorem State.setPart_los (s : State) (p : Nat) (x : Part) : (s.setPart p x).los = s.los := rfl
@[simp] theorem State.setPart_badAccess (s : State) (p : Nat) (x : Part) : (s.setPart p x).badAccess = s.badAccess := rfl
@[simp] theorem State.setPart_flags (s : State) (p : Nat) (x : Part) : (s.setPart p x).flags = s.flags := rfl
@[simp] theorem State.setPart_graphs (s : State) (p : Nat) (x : Part) : (s.setPart p x).graphs = s.graphs := rfl
@[simp] theorem State.setPart_graphNum (s : State) (p : Nat) (x : Part) : (s.setPart p x).graphNum = s.graphNum := rfl
@[simp] theorem State.setPart_serial (s : State) (p : Nat) (x : Part) : (s.setPart p x).serial = s.serial := rfl
@[simp] theorem State.setPart_rebind (s : State) (p : Nat) (x : Part) : (s.setPart p x).rebind = s.rebind := rfl
@[simp] theorem State.setPart_start (s : State) (p : Nat) (x : Part) : (s.setPart p x).start = s.start := rfl
@[simp] theorem State.setPart_dim (s : State) (p : Nat) (x : Part) : (s.setPart p x).dim = s.dim := rfl
@[simp] theorem State.setPart_pins (s : State) (p : Nat) (x : Part) : (s.setPart p x).pins = s.pins := rfl
@[simp] theorem State.setPart_lmc (s : State) (p : Nat) (x : Part) : (s.setPart p x).lmc = s.lmc := rfl
@[simp] theorem State.setPart_cxl (s : State) (p : Nat) (x : Part) : (s.setPart p x).cxl = s.cxl := rfl
@[simp] theorem State.setPart_hostOut (s : State) (p : Nat) (x : Part) : (s.setPart p x).hostOut = s.hostOut := rfl
@[simp] theorem State.setPart_msix (s : State) (p : Nat) (x : Part) : (s.setPart p x).msix = s.msix := rfl
@[simp] theorem State.setPart_platform (s : State) (p : Nat) (x : Part) : (s.setPart p x).platform = s.platform := rfl
@[simp] theorem State.setPart_reply (s : State) (p : Nat) (x : Part) : (s.setPart p x).reply = s.reply := rfl

@[simp] theorem State.setObj_pending (s : State) (o : Nat) (x : SyncObj) : (s.setObj o x).pending = s.pending := rfl
@[simp] theorem State.setObj_steppingB0 (s : State) (o : Nat) (x : SyncObj) : (s.setObj o x).steppingB0 = s.steppingB0 := rfl
@[simp] theorem State.setObj_time (s : State) (o : Nat) (x : SyncObj) : (s.setObj o x).time = s.time := rfl
@[simp] theorem State.setObj_beatsW (s : State) (o : Nat) (x : SyncObj) : (s.setObj o x).beatsW = s.beatsW := rfl
@[simp] theorem State.setObj_beatsE (s : State) (o : Nat) (x : SyncObj) : (s.setObj o x).beatsE = s.beatsE := rfl
@[simp] theorem State.setObj_tiles (s : State) (o : Nat) (x : SyncObj) : (s.setObj o x).tiles = s.tiles := rfl
@[simp] theorem State.setObj_incs (s : State) (o : Nat) (x : SyncObj) : (s.setObj o x).incs = s.incs := rfl
@[simp] theorem State.setObj_msgs (s : State) (o : Nat) (x : SyncObj) : (s.setObj o x).msgs = s.msgs := rfl
@[simp] theorem State.setObj_xlate (s : State) (o : Nat) (x : SyncObj) : (s.setObj o x).xlate = s.xlate := rfl
@[simp] theorem State.setObj_runs (s : State) (o : Nat) (x : SyncObj) : (s.setObj o x).runs = s.runs := rfl
@[simp] theorem State.setObj_live (s : State) (o : Nat) (x : SyncObj) : (s.setObj o x).live = s.live := rfl
@[simp] theorem State.setObj_parts (s : State) (o : Nat) (x : SyncObj) : (s.setObj o x).parts = s.parts := rfl
@[simp] theorem State.setObj_hbm (s : State) (o : Nat) (x : SyncObj) : (s.setObj o x).hbm = s.hbm := rfl
@[simp] theorem State.setObj_arms (s : State) (o : Nat) (x : SyncObj) : (s.setObj o x).arms = s.arms := rfl
@[simp] theorem State.setObj_undef (s : State) (o : Nat) (x : SyncObj) : (s.setObj o x).undef = s.undef := rfl
@[simp] theorem State.setObj_events (s : State) (o : Nat) (x : SyncObj) : (s.setObj o x).events = s.events := rfl
@[simp] theorem State.setObj_integ (s : State) (o : Nat) (x : SyncObj) : (s.setObj o x).integ = s.integ := rfl
@[simp] theorem State.setObj_cxlEvts (s : State) (o : Nat) (x : SyncObj) : (s.setObj o x).cxlEvts = s.cxlEvts := rfl
@[simp] theorem State.setObj_bisnp (s : State) (o : Nat) (x : SyncObj) : (s.setObj o x).bisnp = s.bisnp := rfl
@[simp] theorem State.setObj_biFull (s : State) (o : Nat) (x : SyncObj) : (s.setObj o x).biFull = s.biFull := rfl
@[simp] theorem State.setObj_reds (s : State) (o : Nat) (x : SyncObj) : (s.setObj o x).reds = s.reds := rfl
@[simp] theorem State.setObj_ports (s : State) (o : Nat) (x : SyncObj) : (s.setObj o x).ports = s.ports := rfl
@[simp] theorem State.setObj_wins (s : State) (o : Nat) (x : SyncObj) : (s.setObj o x).wins = s.wins := rfl
@[simp] theorem State.setObj_winUnits (s : State) (o : Nat) (x : SyncObj) : (s.setObj o x).winUnits = s.winUnits := rfl
@[simp] theorem State.setObj_winPortId (s : State) (o : Nat) (x : SyncObj) : (s.setObj o x).winPortId = s.winPortId := rfl
@[simp] theorem State.setObj_winPortBase (s : State) (o : Nat) (x : SyncObj) : (s.setObj o x).winPortBase = s.winPortBase := rfl
@[simp] theorem State.setObj_frPf (s : State) (o : Nat) (x : SyncObj) : (s.setObj o x).frPf = s.frPf := rfl
@[simp] theorem State.setObj_frVf (s : State) (o : Nat) (x : SyncObj) : (s.setObj o x).frVf = s.frVf := rfl
@[simp] theorem State.setObj_el (s : State) (o : Nat) (x : SyncObj) : (s.setObj o x).el = s.el := rfl
@[simp] theorem State.setObj_elSeq (s : State) (o : Nat) (x : SyncObj) : (s.setObj o x).elSeq = s.elSeq := rfl
@[simp] theorem State.setObj_elRd (s : State) (o : Nat) (x : SyncObj) : (s.setObj o x).elRd = s.elRd := rfl
@[simp] theorem State.setObj_elLost (s : State) (o : Nat) (x : SyncObj) : (s.setObj o x).elLost = s.elLost := rfl
@[simp] theorem State.setObj_elWait (s : State) (o : Nat) (x : SyncObj) : (s.setObj o x).elWait = s.elWait := rfl
@[simp] theorem State.setObj_sels (s : State) (o : Nat) (x : SyncObj) : (s.setObj o x).sels = s.sels := rfl
@[simp] theorem State.setObj_los (s : State) (o : Nat) (x : SyncObj) : (s.setObj o x).los = s.los := rfl
@[simp] theorem State.setObj_badAccess (s : State) (o : Nat) (x : SyncObj) : (s.setObj o x).badAccess = s.badAccess := rfl
@[simp] theorem State.setObj_flags (s : State) (o : Nat) (x : SyncObj) : (s.setObj o x).flags = s.flags := rfl
@[simp] theorem State.setObj_graphs (s : State) (o : Nat) (x : SyncObj) : (s.setObj o x).graphs = s.graphs := rfl
@[simp] theorem State.setObj_graphNum (s : State) (o : Nat) (x : SyncObj) : (s.setObj o x).graphNum = s.graphNum := rfl
@[simp] theorem State.setObj_serial (s : State) (o : Nat) (x : SyncObj) : (s.setObj o x).serial = s.serial := rfl
@[simp] theorem State.setObj_rebind (s : State) (o : Nat) (x : SyncObj) : (s.setObj o x).rebind = s.rebind := rfl
@[simp] theorem State.setObj_start (s : State) (o : Nat) (x : SyncObj) : (s.setObj o x).start = s.start := rfl
@[simp] theorem State.setObj_dim (s : State) (o : Nat) (x : SyncObj) : (s.setObj o x).dim = s.dim := rfl
@[simp] theorem State.setObj_pins (s : State) (o : Nat) (x : SyncObj) : (s.setObj o x).pins = s.pins := rfl
@[simp] theorem State.setObj_lmc (s : State) (o : Nat) (x : SyncObj) : (s.setObj o x).lmc = s.lmc := rfl
@[simp] theorem State.setObj_cxl (s : State) (o : Nat) (x : SyncObj) : (s.setObj o x).cxl = s.cxl := rfl
@[simp] theorem State.setObj_hostOut (s : State) (o : Nat) (x : SyncObj) : (s.setObj o x).hostOut = s.hostOut := rfl
@[simp] theorem State.setObj_msix (s : State) (o : Nat) (x : SyncObj) : (s.setObj o x).msix = s.msix := rfl
@[simp] theorem State.setObj_platform (s : State) (o : Nat) (x : SyncObj) : (s.setObj o x).platform = s.platform := rfl
@[simp] theorem State.setObj_reply (s : State) (o : Nat) (x : SyncObj) : (s.setObj o x).reply = s.reply := rfl

@[simp] theorem State.modRun_pending (s : State) (k : Nat) (f : Run → Run) : (s.modRun k f).pending = s.pending := rfl
@[simp] theorem State.modRun_steppingB0 (s : State) (k : Nat) (f : Run → Run) : (s.modRun k f).steppingB0 = s.steppingB0 := rfl
@[simp] theorem State.modRun_time (s : State) (k : Nat) (f : Run → Run) : (s.modRun k f).time = s.time := rfl
@[simp] theorem State.modRun_beatsW (s : State) (k : Nat) (f : Run → Run) : (s.modRun k f).beatsW = s.beatsW := rfl
@[simp] theorem State.modRun_beatsE (s : State) (k : Nat) (f : Run → Run) : (s.modRun k f).beatsE = s.beatsE := rfl
@[simp] theorem State.modRun_tiles (s : State) (k : Nat) (f : Run → Run) : (s.modRun k f).tiles = s.tiles := rfl
@[simp] theorem State.modRun_objs (s : State) (k : Nat) (f : Run → Run) : (s.modRun k f).objs = s.objs := rfl
@[simp] theorem State.modRun_incs (s : State) (k : Nat) (f : Run → Run) : (s.modRun k f).incs = s.incs := rfl
@[simp] theorem State.modRun_msgs (s : State) (k : Nat) (f : Run → Run) : (s.modRun k f).msgs = s.msgs := rfl
@[simp] theorem State.modRun_xlate (s : State) (k : Nat) (f : Run → Run) : (s.modRun k f).xlate = s.xlate := rfl
@[simp] theorem State.modRun_live (s : State) (k : Nat) (f : Run → Run) : (s.modRun k f).live = s.live := rfl
@[simp] theorem State.modRun_parts (s : State) (k : Nat) (f : Run → Run) : (s.modRun k f).parts = s.parts := rfl
@[simp] theorem State.modRun_hbm (s : State) (k : Nat) (f : Run → Run) : (s.modRun k f).hbm = s.hbm := rfl
@[simp] theorem State.modRun_arms (s : State) (k : Nat) (f : Run → Run) : (s.modRun k f).arms = s.arms := rfl
@[simp] theorem State.modRun_undef (s : State) (k : Nat) (f : Run → Run) : (s.modRun k f).undef = s.undef := rfl
@[simp] theorem State.modRun_events (s : State) (k : Nat) (f : Run → Run) : (s.modRun k f).events = s.events := rfl
@[simp] theorem State.modRun_integ (s : State) (k : Nat) (f : Run → Run) : (s.modRun k f).integ = s.integ := rfl
@[simp] theorem State.modRun_cxlEvts (s : State) (k : Nat) (f : Run → Run) : (s.modRun k f).cxlEvts = s.cxlEvts := rfl
@[simp] theorem State.modRun_bisnp (s : State) (k : Nat) (f : Run → Run) : (s.modRun k f).bisnp = s.bisnp := rfl
@[simp] theorem State.modRun_biFull (s : State) (k : Nat) (f : Run → Run) : (s.modRun k f).biFull = s.biFull := rfl
@[simp] theorem State.modRun_reds (s : State) (k : Nat) (f : Run → Run) : (s.modRun k f).reds = s.reds := rfl
@[simp] theorem State.modRun_ports (s : State) (k : Nat) (f : Run → Run) : (s.modRun k f).ports = s.ports := rfl
@[simp] theorem State.modRun_wins (s : State) (k : Nat) (f : Run → Run) : (s.modRun k f).wins = s.wins := rfl
@[simp] theorem State.modRun_winUnits (s : State) (k : Nat) (f : Run → Run) : (s.modRun k f).winUnits = s.winUnits := rfl
@[simp] theorem State.modRun_winPortId (s : State) (k : Nat) (f : Run → Run) : (s.modRun k f).winPortId = s.winPortId := rfl
@[simp] theorem State.modRun_winPortBase (s : State) (k : Nat) (f : Run → Run) : (s.modRun k f).winPortBase = s.winPortBase := rfl
@[simp] theorem State.modRun_frPf (s : State) (k : Nat) (f : Run → Run) : (s.modRun k f).frPf = s.frPf := rfl
@[simp] theorem State.modRun_frVf (s : State) (k : Nat) (f : Run → Run) : (s.modRun k f).frVf = s.frVf := rfl
@[simp] theorem State.modRun_el (s : State) (k : Nat) (f : Run → Run) : (s.modRun k f).el = s.el := rfl
@[simp] theorem State.modRun_elSeq (s : State) (k : Nat) (f : Run → Run) : (s.modRun k f).elSeq = s.elSeq := rfl
@[simp] theorem State.modRun_elRd (s : State) (k : Nat) (f : Run → Run) : (s.modRun k f).elRd = s.elRd := rfl
@[simp] theorem State.modRun_elLost (s : State) (k : Nat) (f : Run → Run) : (s.modRun k f).elLost = s.elLost := rfl
@[simp] theorem State.modRun_elWait (s : State) (k : Nat) (f : Run → Run) : (s.modRun k f).elWait = s.elWait := rfl
@[simp] theorem State.modRun_sels (s : State) (k : Nat) (f : Run → Run) : (s.modRun k f).sels = s.sels := rfl
@[simp] theorem State.modRun_los (s : State) (k : Nat) (f : Run → Run) : (s.modRun k f).los = s.los := rfl
@[simp] theorem State.modRun_badAccess (s : State) (k : Nat) (f : Run → Run) : (s.modRun k f).badAccess = s.badAccess := rfl
@[simp] theorem State.modRun_flags (s : State) (k : Nat) (f : Run → Run) : (s.modRun k f).flags = s.flags := rfl
@[simp] theorem State.modRun_graphs (s : State) (k : Nat) (f : Run → Run) : (s.modRun k f).graphs = s.graphs := rfl
@[simp] theorem State.modRun_graphNum (s : State) (k : Nat) (f : Run → Run) : (s.modRun k f).graphNum = s.graphNum := rfl
@[simp] theorem State.modRun_serial (s : State) (k : Nat) (f : Run → Run) : (s.modRun k f).serial = s.serial := rfl
@[simp] theorem State.modRun_rebind (s : State) (k : Nat) (f : Run → Run) : (s.modRun k f).rebind = s.rebind := rfl
@[simp] theorem State.modRun_start (s : State) (k : Nat) (f : Run → Run) : (s.modRun k f).start = s.start := rfl
@[simp] theorem State.modRun_dim (s : State) (k : Nat) (f : Run → Run) : (s.modRun k f).dim = s.dim := rfl
@[simp] theorem State.modRun_pins (s : State) (k : Nat) (f : Run → Run) : (s.modRun k f).pins = s.pins := rfl
@[simp] theorem State.modRun_lmc (s : State) (k : Nat) (f : Run → Run) : (s.modRun k f).lmc = s.lmc := rfl
@[simp] theorem State.modRun_cxl (s : State) (k : Nat) (f : Run → Run) : (s.modRun k f).cxl = s.cxl := rfl
@[simp] theorem State.modRun_hostOut (s : State) (k : Nat) (f : Run → Run) : (s.modRun k f).hostOut = s.hostOut := rfl
@[simp] theorem State.modRun_msix (s : State) (k : Nat) (f : Run → Run) : (s.modRun k f).msix = s.msix := rfl
@[simp] theorem State.modRun_platform (s : State) (k : Nat) (f : Run → Run) : (s.modRun k f).platform = s.platform := rfl
@[simp] theorem State.modRun_reply (s : State) (k : Nat) (f : Run → Run) : (s.modRun k f).reply = s.reply := rfl

@[simp] theorem State.msi_pending (s : State) (fn vec : Nat) : (s.msi fn vec).pending = s.pending := rfl
@[simp] theorem State.msi_steppingB0 (s : State) (fn vec : Nat) : (s.msi fn vec).steppingB0 = s.steppingB0 := rfl
@[simp] theorem State.msi_time (s : State) (fn vec : Nat) : (s.msi fn vec).time = s.time := rfl
@[simp] theorem State.msi_beatsW (s : State) (fn vec : Nat) : (s.msi fn vec).beatsW = s.beatsW := rfl
@[simp] theorem State.msi_beatsE (s : State) (fn vec : Nat) : (s.msi fn vec).beatsE = s.beatsE := rfl
@[simp] theorem State.msi_tiles (s : State) (fn vec : Nat) : (s.msi fn vec).tiles = s.tiles := rfl
@[simp] theorem State.msi_objs (s : State) (fn vec : Nat) : (s.msi fn vec).objs = s.objs := rfl
@[simp] theorem State.msi_incs (s : State) (fn vec : Nat) : (s.msi fn vec).incs = s.incs := rfl
@[simp] theorem State.msi_msgs (s : State) (fn vec : Nat) : (s.msi fn vec).msgs = s.msgs := rfl
@[simp] theorem State.msi_xlate (s : State) (fn vec : Nat) : (s.msi fn vec).xlate = s.xlate := rfl
@[simp] theorem State.msi_runs (s : State) (fn vec : Nat) : (s.msi fn vec).runs = s.runs := rfl
@[simp] theorem State.msi_live (s : State) (fn vec : Nat) : (s.msi fn vec).live = s.live := rfl
@[simp] theorem State.msi_parts (s : State) (fn vec : Nat) : (s.msi fn vec).parts = s.parts := rfl
@[simp] theorem State.msi_hbm (s : State) (fn vec : Nat) : (s.msi fn vec).hbm = s.hbm := rfl
@[simp] theorem State.msi_arms (s : State) (fn vec : Nat) : (s.msi fn vec).arms = s.arms := rfl
@[simp] theorem State.msi_undef (s : State) (fn vec : Nat) : (s.msi fn vec).undef = s.undef := rfl
@[simp] theorem State.msi_events (s : State) (fn vec : Nat) : (s.msi fn vec).events = s.events := rfl
@[simp] theorem State.msi_integ (s : State) (fn vec : Nat) : (s.msi fn vec).integ = s.integ := rfl
@[simp] theorem State.msi_cxlEvts (s : State) (fn vec : Nat) : (s.msi fn vec).cxlEvts = s.cxlEvts := rfl
@[simp] theorem State.msi_bisnp (s : State) (fn vec : Nat) : (s.msi fn vec).bisnp = s.bisnp := rfl
@[simp] theorem State.msi_biFull (s : State) (fn vec : Nat) : (s.msi fn vec).biFull = s.biFull := rfl
@[simp] theorem State.msi_reds (s : State) (fn vec : Nat) : (s.msi fn vec).reds = s.reds := rfl
@[simp] theorem State.msi_ports (s : State) (fn vec : Nat) : (s.msi fn vec).ports = s.ports := rfl
@[simp] theorem State.msi_wins (s : State) (fn vec : Nat) : (s.msi fn vec).wins = s.wins := rfl
@[simp] theorem State.msi_winUnits (s : State) (fn vec : Nat) : (s.msi fn vec).winUnits = s.winUnits := rfl
@[simp] theorem State.msi_winPortId (s : State) (fn vec : Nat) : (s.msi fn vec).winPortId = s.winPortId := rfl
@[simp] theorem State.msi_winPortBase (s : State) (fn vec : Nat) : (s.msi fn vec).winPortBase = s.winPortBase := rfl
@[simp] theorem State.msi_frPf (s : State) (fn vec : Nat) : (s.msi fn vec).frPf = s.frPf := rfl
@[simp] theorem State.msi_frVf (s : State) (fn vec : Nat) : (s.msi fn vec).frVf = s.frVf := rfl
@[simp] theorem State.msi_el (s : State) (fn vec : Nat) : (s.msi fn vec).el = s.el := rfl
@[simp] theorem State.msi_elSeq (s : State) (fn vec : Nat) : (s.msi fn vec).elSeq = s.elSeq := rfl
@[simp] theorem State.msi_elRd (s : State) (fn vec : Nat) : (s.msi fn vec).elRd = s.elRd := rfl
@[simp] theorem State.msi_elLost (s : State) (fn vec : Nat) : (s.msi fn vec).elLost = s.elLost := rfl
@[simp] theorem State.msi_elWait (s : State) (fn vec : Nat) : (s.msi fn vec).elWait = s.elWait := rfl
@[simp] theorem State.msi_sels (s : State) (fn vec : Nat) : (s.msi fn vec).sels = s.sels := rfl
@[simp] theorem State.msi_los (s : State) (fn vec : Nat) : (s.msi fn vec).los = s.los := rfl
@[simp] theorem State.msi_badAccess (s : State) (fn vec : Nat) : (s.msi fn vec).badAccess = s.badAccess := rfl
@[simp] theorem State.msi_flags (s : State) (fn vec : Nat) : (s.msi fn vec).flags = s.flags := rfl
@[simp] theorem State.msi_graphs (s : State) (fn vec : Nat) : (s.msi fn vec).graphs = s.graphs := rfl
@[simp] theorem State.msi_graphNum (s : State) (fn vec : Nat) : (s.msi fn vec).graphNum = s.graphNum := rfl
@[simp] theorem State.msi_serial (s : State) (fn vec : Nat) : (s.msi fn vec).serial = s.serial := rfl
@[simp] theorem State.msi_rebind (s : State) (fn vec : Nat) : (s.msi fn vec).rebind = s.rebind := rfl
@[simp] theorem State.msi_start (s : State) (fn vec : Nat) : (s.msi fn vec).start = s.start := rfl
@[simp] theorem State.msi_dim (s : State) (fn vec : Nat) : (s.msi fn vec).dim = s.dim := rfl
@[simp] theorem State.msi_pins (s : State) (fn vec : Nat) : (s.msi fn vec).pins = s.pins := rfl
@[simp] theorem State.msi_lmc (s : State) (fn vec : Nat) : (s.msi fn vec).lmc = s.lmc := rfl
@[simp] theorem State.msi_cxl (s : State) (fn vec : Nat) : (s.msi fn vec).cxl = s.cxl := rfl
@[simp] theorem State.msi_hostOut (s : State) (fn vec : Nat) : (s.msi fn vec).hostOut = s.hostOut := rfl
@[simp] theorem State.msi_platform (s : State) (fn vec : Nat) : (s.msi fn vec).platform = s.platform := rfl
@[simp] theorem State.msi_reply (s : State) (fn vec : Nat) : (s.msi fn vec).reply = s.reply := rfl

@[simp] theorem State.setFlag_pending (s : State) (p b : Nat) : (s.setFlag p b).pending = s.pending := rfl
@[simp] theorem State.setFlag_steppingB0 (s : State) (p b : Nat) : (s.setFlag p b).steppingB0 = s.steppingB0 := rfl
@[simp] theorem State.setFlag_time (s : State) (p b : Nat) : (s.setFlag p b).time = s.time := rfl
@[simp] theorem State.setFlag_beatsW (s : State) (p b : Nat) : (s.setFlag p b).beatsW = s.beatsW := rfl
@[simp] theorem State.setFlag_beatsE (s : State) (p b : Nat) : (s.setFlag p b).beatsE = s.beatsE := rfl
@[simp] theorem State.setFlag_tiles (s : State) (p b : Nat) : (s.setFlag p b).tiles = s.tiles := rfl
@[simp] theorem State.setFlag_objs (s : State) (p b : Nat) : (s.setFlag p b).objs = s.objs := rfl
@[simp] theorem State.setFlag_incs (s : State) (p b : Nat) : (s.setFlag p b).incs = s.incs := rfl
@[simp] theorem State.setFlag_msgs (s : State) (p b : Nat) : (s.setFlag p b).msgs = s.msgs := rfl
@[simp] theorem State.setFlag_xlate (s : State) (p b : Nat) : (s.setFlag p b).xlate = s.xlate := rfl
@[simp] theorem State.setFlag_runs (s : State) (p b : Nat) : (s.setFlag p b).runs = s.runs := rfl
@[simp] theorem State.setFlag_live (s : State) (p b : Nat) : (s.setFlag p b).live = s.live := rfl
@[simp] theorem State.setFlag_parts (s : State) (p b : Nat) : (s.setFlag p b).parts = s.parts := rfl
@[simp] theorem State.setFlag_hbm (s : State) (p b : Nat) : (s.setFlag p b).hbm = s.hbm := rfl
@[simp] theorem State.setFlag_arms (s : State) (p b : Nat) : (s.setFlag p b).arms = s.arms := rfl
@[simp] theorem State.setFlag_undef (s : State) (p b : Nat) : (s.setFlag p b).undef = s.undef := rfl
@[simp] theorem State.setFlag_events (s : State) (p b : Nat) : (s.setFlag p b).events = s.events := rfl
@[simp] theorem State.setFlag_integ (s : State) (p b : Nat) : (s.setFlag p b).integ = s.integ := rfl
@[simp] theorem State.setFlag_cxlEvts (s : State) (p b : Nat) : (s.setFlag p b).cxlEvts = s.cxlEvts := rfl
@[simp] theorem State.setFlag_bisnp (s : State) (p b : Nat) : (s.setFlag p b).bisnp = s.bisnp := rfl
@[simp] theorem State.setFlag_biFull (s : State) (p b : Nat) : (s.setFlag p b).biFull = s.biFull := rfl
@[simp] theorem State.setFlag_reds (s : State) (p b : Nat) : (s.setFlag p b).reds = s.reds := rfl
@[simp] theorem State.setFlag_ports (s : State) (p b : Nat) : (s.setFlag p b).ports = s.ports := rfl
@[simp] theorem State.setFlag_wins (s : State) (p b : Nat) : (s.setFlag p b).wins = s.wins := rfl
@[simp] theorem State.setFlag_winUnits (s : State) (p b : Nat) : (s.setFlag p b).winUnits = s.winUnits := rfl
@[simp] theorem State.setFlag_winPortId (s : State) (p b : Nat) : (s.setFlag p b).winPortId = s.winPortId := rfl
@[simp] theorem State.setFlag_winPortBase (s : State) (p b : Nat) : (s.setFlag p b).winPortBase = s.winPortBase := rfl
@[simp] theorem State.setFlag_frPf (s : State) (p b : Nat) : (s.setFlag p b).frPf = s.frPf := rfl
@[simp] theorem State.setFlag_frVf (s : State) (p b : Nat) : (s.setFlag p b).frVf = s.frVf := rfl
@[simp] theorem State.setFlag_el (s : State) (p b : Nat) : (s.setFlag p b).el = s.el := rfl
@[simp] theorem State.setFlag_elSeq (s : State) (p b : Nat) : (s.setFlag p b).elSeq = s.elSeq := rfl
@[simp] theorem State.setFlag_elRd (s : State) (p b : Nat) : (s.setFlag p b).elRd = s.elRd := rfl
@[simp] theorem State.setFlag_elLost (s : State) (p b : Nat) : (s.setFlag p b).elLost = s.elLost := rfl
@[simp] theorem State.setFlag_elWait (s : State) (p b : Nat) : (s.setFlag p b).elWait = s.elWait := rfl
@[simp] theorem State.setFlag_sels (s : State) (p b : Nat) : (s.setFlag p b).sels = s.sels := rfl
@[simp] theorem State.setFlag_los (s : State) (p b : Nat) : (s.setFlag p b).los = s.los := rfl
@[simp] theorem State.setFlag_badAccess (s : State) (p b : Nat) : (s.setFlag p b).badAccess = s.badAccess := rfl
@[simp] theorem State.setFlag_graphs (s : State) (p b : Nat) : (s.setFlag p b).graphs = s.graphs := rfl
@[simp] theorem State.setFlag_graphNum (s : State) (p b : Nat) : (s.setFlag p b).graphNum = s.graphNum := rfl
@[simp] theorem State.setFlag_serial (s : State) (p b : Nat) : (s.setFlag p b).serial = s.serial := rfl
@[simp] theorem State.setFlag_rebind (s : State) (p b : Nat) : (s.setFlag p b).rebind = s.rebind := rfl
@[simp] theorem State.setFlag_start (s : State) (p b : Nat) : (s.setFlag p b).start = s.start := rfl
@[simp] theorem State.setFlag_dim (s : State) (p b : Nat) : (s.setFlag p b).dim = s.dim := rfl
@[simp] theorem State.setFlag_pins (s : State) (p b : Nat) : (s.setFlag p b).pins = s.pins := rfl
@[simp] theorem State.setFlag_lmc (s : State) (p b : Nat) : (s.setFlag p b).lmc = s.lmc := rfl
@[simp] theorem State.setFlag_cxl (s : State) (p b : Nat) : (s.setFlag p b).cxl = s.cxl := rfl
@[simp] theorem State.setFlag_hostOut (s : State) (p b : Nat) : (s.setFlag p b).hostOut = s.hostOut := rfl
@[simp] theorem State.setFlag_msix (s : State) (p b : Nat) : (s.setFlag p b).msix = s.msix := rfl
@[simp] theorem State.setFlag_platform (s : State) (p b : Nat) : (s.setFlag p b).platform = s.platform := rfl
@[simp] theorem State.setFlag_reply (s : State) (p b : Nat) : (s.setFlag p b).reply = s.reply := rfl

@[simp] theorem State.sendInc_pending (s : State) (o amt : Nat) : (s.sendInc o amt).pending = s.pending := rfl
@[simp] theorem State.sendInc_steppingB0 (s : State) (o amt : Nat) : (s.sendInc o amt).steppingB0 = s.steppingB0 := rfl
@[simp] theorem State.sendInc_time (s : State) (o amt : Nat) : (s.sendInc o amt).time = s.time := rfl
@[simp] theorem State.sendInc_beatsW (s : State) (o amt : Nat) : (s.sendInc o amt).beatsW = s.beatsW := rfl
@[simp] theorem State.sendInc_beatsE (s : State) (o amt : Nat) : (s.sendInc o amt).beatsE = s.beatsE := rfl
@[simp] theorem State.sendInc_tiles (s : State) (o amt : Nat) : (s.sendInc o amt).tiles = s.tiles := rfl
@[simp] theorem State.sendInc_objs (s : State) (o amt : Nat) : (s.sendInc o amt).objs = s.objs := rfl
@[simp] theorem State.sendInc_msgs (s : State) (o amt : Nat) : (s.sendInc o amt).msgs = s.msgs := rfl
@[simp] theorem State.sendInc_xlate (s : State) (o amt : Nat) : (s.sendInc o amt).xlate = s.xlate := rfl
@[simp] theorem State.sendInc_runs (s : State) (o amt : Nat) : (s.sendInc o amt).runs = s.runs := rfl
@[simp] theorem State.sendInc_live (s : State) (o amt : Nat) : (s.sendInc o amt).live = s.live := rfl
@[simp] theorem State.sendInc_parts (s : State) (o amt : Nat) : (s.sendInc o amt).parts = s.parts := rfl
@[simp] theorem State.sendInc_hbm (s : State) (o amt : Nat) : (s.sendInc o amt).hbm = s.hbm := rfl
@[simp] theorem State.sendInc_arms (s : State) (o amt : Nat) : (s.sendInc o amt).arms = s.arms := rfl
@[simp] theorem State.sendInc_undef (s : State) (o amt : Nat) : (s.sendInc o amt).undef = s.undef := rfl
@[simp] theorem State.sendInc_events (s : State) (o amt : Nat) : (s.sendInc o amt).events = s.events := rfl
@[simp] theorem State.sendInc_integ (s : State) (o amt : Nat) : (s.sendInc o amt).integ = s.integ := rfl
@[simp] theorem State.sendInc_cxlEvts (s : State) (o amt : Nat) : (s.sendInc o amt).cxlEvts = s.cxlEvts := rfl
@[simp] theorem State.sendInc_bisnp (s : State) (o amt : Nat) : (s.sendInc o amt).bisnp = s.bisnp := rfl
@[simp] theorem State.sendInc_biFull (s : State) (o amt : Nat) : (s.sendInc o amt).biFull = s.biFull := rfl
@[simp] theorem State.sendInc_reds (s : State) (o amt : Nat) : (s.sendInc o amt).reds = s.reds := rfl
@[simp] theorem State.sendInc_ports (s : State) (o amt : Nat) : (s.sendInc o amt).ports = s.ports := rfl
@[simp] theorem State.sendInc_wins (s : State) (o amt : Nat) : (s.sendInc o amt).wins = s.wins := rfl
@[simp] theorem State.sendInc_winUnits (s : State) (o amt : Nat) : (s.sendInc o amt).winUnits = s.winUnits := rfl
@[simp] theorem State.sendInc_winPortId (s : State) (o amt : Nat) : (s.sendInc o amt).winPortId = s.winPortId := rfl
@[simp] theorem State.sendInc_winPortBase (s : State) (o amt : Nat) : (s.sendInc o amt).winPortBase = s.winPortBase := rfl
@[simp] theorem State.sendInc_frPf (s : State) (o amt : Nat) : (s.sendInc o amt).frPf = s.frPf := rfl
@[simp] theorem State.sendInc_frVf (s : State) (o amt : Nat) : (s.sendInc o amt).frVf = s.frVf := rfl
@[simp] theorem State.sendInc_el (s : State) (o amt : Nat) : (s.sendInc o amt).el = s.el := rfl
@[simp] theorem State.sendInc_elSeq (s : State) (o amt : Nat) : (s.sendInc o amt).elSeq = s.elSeq := rfl
@[simp] theorem State.sendInc_elRd (s : State) (o amt : Nat) : (s.sendInc o amt).elRd = s.elRd := rfl
@[simp] theorem State.sendInc_elLost (s : State) (o amt : Nat) : (s.sendInc o amt).elLost = s.elLost := rfl
@[simp] theorem State.sendInc_elWait (s : State) (o amt : Nat) : (s.sendInc o amt).elWait = s.elWait := rfl
@[simp] theorem State.sendInc_sels (s : State) (o amt : Nat) : (s.sendInc o amt).sels = s.sels := rfl
@[simp] theorem State.sendInc_los (s : State) (o amt : Nat) : (s.sendInc o amt).los = s.los := rfl
@[simp] theorem State.sendInc_badAccess (s : State) (o amt : Nat) : (s.sendInc o amt).badAccess = s.badAccess := rfl
@[simp] theorem State.sendInc_flags (s : State) (o amt : Nat) : (s.sendInc o amt).flags = s.flags := rfl
@[simp] theorem State.sendInc_graphs (s : State) (o amt : Nat) : (s.sendInc o amt).graphs = s.graphs := rfl
@[simp] theorem State.sendInc_graphNum (s : State) (o amt : Nat) : (s.sendInc o amt).graphNum = s.graphNum := rfl
@[simp] theorem State.sendInc_serial (s : State) (o amt : Nat) : (s.sendInc o amt).serial = s.serial := rfl
@[simp] theorem State.sendInc_rebind (s : State) (o amt : Nat) : (s.sendInc o amt).rebind = s.rebind := rfl
@[simp] theorem State.sendInc_start (s : State) (o amt : Nat) : (s.sendInc o amt).start = s.start := rfl
@[simp] theorem State.sendInc_dim (s : State) (o amt : Nat) : (s.sendInc o amt).dim = s.dim := rfl
@[simp] theorem State.sendInc_pins (s : State) (o amt : Nat) : (s.sendInc o amt).pins = s.pins := rfl
@[simp] theorem State.sendInc_lmc (s : State) (o amt : Nat) : (s.sendInc o amt).lmc = s.lmc := rfl
@[simp] theorem State.sendInc_cxl (s : State) (o amt : Nat) : (s.sendInc o amt).cxl = s.cxl := rfl
@[simp] theorem State.sendInc_hostOut (s : State) (o amt : Nat) : (s.sendInc o amt).hostOut = s.hostOut := rfl
@[simp] theorem State.sendInc_msix (s : State) (o amt : Nat) : (s.sendInc o amt).msix = s.msix := rfl
@[simp] theorem State.sendInc_platform (s : State) (o amt : Nat) : (s.sendInc o amt).platform = s.platform := rfl
@[simp] theorem State.sendInc_reply (s : State) (o amt : Nat) : (s.sendInc o amt).reply = s.reply := rfl

@[simp] theorem State.tile_setTile_same (s : State) (t : TileId) (x : Tile) : (s.setTile t x).tile t = x := sget_sput_same _ _ _ _
theorem State.tile_setTile_other (s : State) (t : TileId) (x : Tile) (u : TileId) (h : u ≠ t) : (s.setTile t x).tile u = s.tile u :=
  sget_sput_other _ (fun e => h (BitVec.eq_of_toNat_eq e)) _ _
@[simp] theorem State.stack_setTile (s : State) (t : TileId) (x : Tile) (u : Nat) : (s.setTile t x).stack u = s.stack u := rfl
@[simp] theorem State.part_setTile (s : State) (t : TileId) (x : Tile) (u : Nat) : (s.setTile t x).part u = s.part u := rfl
@[simp] theorem State.obj_setTile (s : State) (t : TileId) (x : Tile) (u : Nat) : (s.setTile t x).obj u = s.obj u := rfl

@[simp] theorem State.stack_setStack_same (s : State) (t : Nat) (x : Stack) : (s.setStack t x).stack t = x := sget_sput_same _ _ _ _
theorem State.stack_setStack_other (s : State) (t : Nat) (x : Stack) (u : Nat) (h : u ≠ t) : (s.setStack t x).stack u = s.stack u :=
  sget_sput_other _ h _ _
@[simp] theorem State.tile_setStack (s : State) (t : Nat) (x : Stack) (u : TileId) : (s.setStack t x).tile u = s.tile u := rfl
@[simp] theorem State.part_setStack (s : State) (t : Nat) (x : Stack) (u : Nat) : (s.setStack t x).part u = s.part u := rfl
@[simp] theorem State.obj_setStack (s : State) (t : Nat) (x : Stack) (u : Nat) : (s.setStack t x).obj u = s.obj u := rfl

@[simp] theorem State.part_setPart_same (s : State) (t : Nat) (x : Part) : (s.setPart t x).part t = x := sget_sput_same _ _ _ _
theorem State.part_setPart_other (s : State) (t : Nat) (x : Part) (u : Nat) (h : u ≠ t) : (s.setPart t x).part u = s.part u :=
  sget_sput_other _ h _ _
@[simp] theorem State.tile_setPart (s : State) (t : Nat) (x : Part) (u : TileId) : (s.setPart t x).tile u = s.tile u := rfl
@[simp] theorem State.stack_setPart (s : State) (t : Nat) (x : Part) (u : Nat) : (s.setPart t x).stack u = s.stack u := rfl
@[simp] theorem State.obj_setPart (s : State) (t : Nat) (x : Part) (u : Nat) : (s.setPart t x).obj u = s.obj u := rfl

@[simp] theorem State.obj_setObj_same (s : State) (t : Nat) (x : SyncObj) : (s.setObj t x).obj t = x := sget_sput_same _ _ _ _
theorem State.obj_setObj_other (s : State) (t : Nat) (x : SyncObj) (u : Nat) (h : u ≠ t) : (s.setObj t x).obj u = s.obj u :=
  sget_sput_other _ h _ _
@[simp] theorem State.tile_setObj (s : State) (t : Nat) (x : SyncObj) (u : TileId) : (s.setObj t x).tile u = s.tile u := rfl
@[simp] theorem State.stack_setObj (s : State) (t : Nat) (x : SyncObj) (u : Nat) : (s.setObj t x).stack u = s.stack u := rfl
@[simp] theorem State.part_setObj (s : State) (t : Nat) (x : SyncObj) (u : Nat) : (s.setObj t x).part u = s.part u := rfl

theorem State.modTile_eq (s : State) (t : TileId) (f : Tile → Tile) : s.modTile t f = s.setTile t (f (s.tile t)) := rfl
theorem State.modStack_eq (s : State) (k : Nat) (f : Stack → Stack) : s.modStack k f = s.setStack k (f (s.stack k)) := rfl
theorem State.modPart_eq (s : State) (p : Nat) (f : Part → Part) : s.modPart p f = s.setPart p (f (s.part p)) := rfl

end Sys2Proof.Machine
end

