-- ==== Sys2Proof/Laws/Issue.lean ====
section
/-!
SUPPORT. What issuing a bundle does when one of its words executes and the other rests: the lemmas that statements about single
words cite instead of unfolding the issue.
-/
namespace Sys2Proof.Machine
open Sys2Proof.Safety

theorem satAdd_zero (c : BitVec 32) : satAdd c 0 = c := by
  unfold satAdd
  have h : min (c.toNat + 0) 0xFFFFFFFF = c.toNat := by have := c.isLt; omega
  rw [h]; simp

/-- Reading no word changes nothing. -/
@[simp] theorem Tile.touch_nil (x : Tile) : x.touch [] = x := by
  have r : rowMates [] = [] := rfl
  unfold Tile.touch
  split
  · rfl
  · simp [Tile.touchWords, Tile.correctedRows, r, rowsOfWords, satAdd_zero]

/-- Nor does noting that no word was read. -/
@[simp] theorem Tile.noteReads_nil (x : Tile) : x.noteReads [] = x := by
  simp [Tile.noteReads]

/-! ### States that agree but for one tile -/

end Sys2Proof.Machine

namespace Sys2Proof.Safety
open Sys2Proof.Machine

theorem OnlyTile.refl (t : TileId) (s : State) : OnlyTile t s s := ⟨rfl, fun _ _ => rfl⟩

theorem OnlyTile.setTile (t : TileId) (s : State) (x : Tile) : OnlyTile t s (s.setTile t x) :=
  ⟨rfl, fun u h => State.tile_setTile_other s t x u h⟩

theorem OnlyTile.trans {t : TileId} {a b c : State} (h : OnlyTile t a b) (k : OnlyTile t b c) : OnlyTile t a c :=
  ⟨by rw [← h.rest, ← k.rest], fun u hu => (k.others u hu).trans (h.others u hu)⟩

theorem OnlyTile.modTile (t : TileId) (s : State) (f : Tile → Tile) : OnlyTile t s (s.modTile t f) :=
  OnlyTile.setTile t s _

end Sys2Proof.Safety

namespace Sys2Proof.Machine
open Sys2Proof.Safety

@[simp] theorem State.tile_modTile_same (s : State) (t : TileId) (f : Tile → Tile) :
    (s.modTile t f).tile t = f (s.tile t) := State.tile_setTile_same s t _

/-- A word that reads no shelf changes its tile alone, by its own function of the registers before the bundle. -/
theorem exec_onTile {w : TileWord} {f : Tile → Tile → Tile} (hw : w.run = onTile f) (hr : w.reads = fun _ => [])
    (t : TileId) (old : Tile) (s : State) (hx : hdrRuns w.hdr old = true) :
    OnlyTile t s (w.exec t old s) ∧ (w.exec t old s).tile t = f old (s.tile t) := by
  unfold TileWord.exec
  rw [hw, hr, hx]
  simp only [Bool.not_true, Bool.false_eq_true, if_false, onTile]
  split
  · exact ⟨OnlyTile.modTile _ _ _, by simp⟩
  · exact ⟨(OnlyTile.modTile _ _ _).trans (OnlyTile.modTile _ _ _), by simp⟩

/-- NOP reads and writes nothing. -/
theorem exec_nop (t : TileId) (old : Tile) (s : State) :
    OnlyTile t s ((nopWord 0).exec t old s) ∧ ((nopWord 0).exec t old s).tile t = s.tile t := by
  unfold TileWord.exec
  split
  · exact ⟨OnlyTile.refl _ _, rfl⟩
  · simp only [nopWord]
    split
    · exact ⟨OnlyTile.refl _ _, rfl⟩
    · exact ⟨OnlyTile.modTile _ _ _, by simp⟩

/-- A word that does not execute changes nothing (R77). -/
theorem exec_off {w : TileWord} (t : TileId) {old : Tile} (s : State) (h : hdrRuns w.hdr old = false) :
    w.exec t old s = s := by
  unfold TileWord.exec; simp [h]

theorem decB_zero : decB 0 = nopWord 0 := rfl
theorem decA_zero : decA 0 = nopWord 0 := rfl

/-! ### Readiness and faults -/

theorem meets_none (q : List MxaEntry) : queueClash q [] [] = false := by
  unfold queueClash
  split
  · rfl
  · simp [anyMeets]

@[simp] theorem Tile.firstBad_nil (x : Tile) : x.firstBad [] = none := rfl

@[simp] theorem Tile.badMerge_nil (x : Tile) : x.badMerge [] = none := by
  unfold Tile.badMerge; split <;> rfl

/-- A word that uses no v register and no shelf is ready when its unit is. -/
theorem isReady_plain {w : TileWord} (t : TileId) (x : Tile) (s : State) (hv : w.vr = []) (hd : w.vd = [])
    (hr : w.reads = fun _ => []) (hs : w.stores = fun _ => []) (hu : w.ready t s = true) : w.isReady t x s = true := by
  unfold TileWord.isReady TileWord.storeRanges
  simp [hv, hd, hr, hs, hu, meets_none]

/-- A word that uses no shelf raises only the faults of its own check. -/
theorem faults_plain {w : TileWord} (t : TileId) (x : Tile) (s : State)
    (hr : w.reads = fun _ => []) (hs : w.stores = fun _ => []) (hc : w.check t x s = []) : w.faults t x s = [] := by
  unfold TileWord.faults
  split
  · rfl
  · simp [hc, hr, hs]

theorem isReady_off {w : TileWord} (t : TileId) {x : Tile} (s : State) (h : hdrRuns w.hdr x = false) :
    w.isReady t x s = true := by simp [TileWord.isReady, h]

theorem faults_off {w : TileWord} (t : TileId) {x : Tile} (s : State) (h : hdrRuns w.hdr x = false) :
    w.faults t x s = [] := by simp [TileWord.faults, h]

/-- What a resting word of slot B needs and does: nothing. -/
theorem restsB {gs vs : List (BitVec 5)} {other : Word} {x : Tile} (h : RestsB gs vs other x) (t : TileId) (s : State) :
    (decB other).isReady t x s = true ∧ (decB other).faults t x s = [] ∧ sampleWord (decB other) t x s = s ∧
      OnlyTile t s ((decB other).exec t x s) ∧ ((decB other).exec t x s).tile t = s.tile t := by
  rcases h.2.2.2 with rfl | h
  · rw [decB_zero]
    refine ⟨isReady_plain t x s rfl rfl rfl rfl rfl, faults_plain t x s rfl rfl rfl, ?_, exec_nop t x s⟩
    simp [sampleWord, nopWord]
  · refine ⟨isReady_off t s h, faults_off t s h, ?_, ?_⟩
    · simp [sampleWord, h]
    · rw [exec_off t s h]; exact ⟨OnlyTile.refl _ _, rfl⟩

theorem restsA {gs vs : List (BitVec 5)} {other : Word} {x : Tile} (h : RestsA gs vs other x) (t : TileId) (s : State) :
    (decA other).isReady t x s = true ∧ (decA other).faults t x s = [] ∧
      OnlyTile t s ((decA other).exec t x s) ∧ ((decA other).exec t x s).tile t = s.tile t := by
  rcases h.2.2.2.2 with rfl | h
  · rw [decA_zero]
    exact ⟨isReady_plain t x s rfl rfl rfl rfl rfl, faults_plain t x s rfl rfl rfl, exec_nop t x s⟩
  · refine ⟨isReady_off t s h, faults_off t s h, ?_⟩
    rw [exec_off t s h]; exact ⟨OnlyTile.refl _ _, rfl⟩

/-- A resting word of slot B is no queue word about to fault. -/
theorem restsB_doom {gs vs : List (BitVec 5)} {other : Word} {x : Tile} (h : RestsB gs vs other x) (t : TileId) (s : State) :
    (if hdrRuns (decB other).hdr x then (decB other).doom t x s else none) = none := by
  rcases h.2.2.2 with rfl | h
  · rw [decB_zero]; simp [nopWord]
  · simp [h]

/-- A word of slot A pairs with a resting slot B (R92). -/
theorem pair_slotA {a : TileWord} {gs vs : List (BitVec 5)} {other : Word} {x : Tile} (h : RestsB gs vs other x)
    (hg : a.gd = gs) (hv : a.vd = vs) (he : a.exch = false ∨ other = 0) : pairBad a (decB other) = false := by
  obtain ⟨-, h1, h2, -⟩ := h
  subst hg hv
  unfold pairBad
  simp only [Bool.or_eq_false_iff, List.any_eq_false, Bool.and_eq_true, decide_eq_true_eq, List.contains_iff_mem, not_and]
  refine ⟨⟨fun r hr h0 => h1 r hr h0, fun r hr => h2 r hr⟩, ?_⟩
  rcases he with he | rfl
  · simp [he]
  · rw [decB_zero]; simp [nopWord]

/-- A word of slot B pairs with a resting slot A. -/
theorem pair_slotB {b : TileWord} {gs vs : List (BitVec 5)} {other : Word} {x : Tile} (h : RestsA gs vs other x)
    (hg : b.gd = gs) (hv : b.vd = vs) : pairBad (decA other) b = false := by
  obtain ⟨-, he, h1, h2, -⟩ := h
  subst hg hv
  unfold pairBad
  simp only [Bool.or_eq_false_iff, List.any_eq_false, Bool.and_eq_true, decide_eq_true_eq, List.contains_iff_mem, not_and]
  exact ⟨⟨fun r hr h0 hb => h1 r hb h0 hr, fun r hr hb => h2 r hb hr⟩, by simp [he]⟩

/-! ### One word alone -/

/-- A word of slot A issues beside a resting slot B: its own effect, then the PC. -/
theorem issue_slotA {a : TileWord} {gs vs : List (BitVec 5)} {other : Word} {t : TileId} {s : State}
    (hi : CanIssue s t) (hb : RestsB gs vs other (fetched s t)) (hp : pairBad a (decB other) = false) (ha : a.bad = false)
    (hx : hdrRuns a.hdr (fetched s t) = true)
    (hr : a.isReady t (fetched s t) (s.setTile t (fetched s t)) = true)
    (hf : a.faults t (fetched s t) (s.setTile t (fetched s t)) = [])
    (hw : a.waits t (s.setTile t (fetched s t)) = false) :
    ∃ n, OnlyTile t (a.exec t (fetched s t) (s.setTile t (fetched s t))) n ∧ issue t a (decB other) s = n ∧
      n.tile t = { a.post ((a.exec t (fetched s t) (s.setTile t (fetched s t))).tile t) with
        pc := (match a.target (fetched s t) with
          | some p => BitVec.ofNat 32 p
          | none => BitVec.ofNat 32 ((s.tile t).pc.toNat + 16))
        hold := none } := by
  obtain ⟨h1, h2, h3⟩ := hi
  have hold : (s.modTile t (fun y => y.fill ((s.tile t).pc.toNat / 256))) = s.setTile t (fetched s t) := rfl
  have hlt : ¬ 0x100000 ≤ (s.tile t).pc.toNat := by omega
  have hb1 := hb.1
  have rb := restsB hb t
  have hrb := (rb (s.setTile t (fetched s t))).1
  set s0 := s.setTile t (fetched s t) with hs0
  have ht0 : s0.tile t = fetched s t := State.tile_setTile_same s t _
  have hfb := (rb (a.exec t (fetched s t) s0)).2.1
  have hso := (rb ((decB other).exec t (fetched s t) (a.exec t (fetched s t) s0))).2.2.1
  have hdm := restsB_doom hb t (a.exec t (fetched s t) s0)
  obtain ⟨ho, hot⟩ := (rb (a.exec t (fetched s t) s0)).2.2.2
  refine ⟨issue t a (decB other) s, ?_, rfl, ?_⟩ <;>
  · unfold issue
    simp only [h1, hlt, hold, ht0, h3, ha, hb1, hp, hr, hrb, hf, hfb, hw, hx, hso, hdm, Bool.not_true,
      Bool.false_eq_true, if_false, if_true, Bool.or_false, Bool.and_true, Bool.and_false, List.append_nil,
      ne_eq, not_true_eq_false]
    first
      | exact ho.trans (OnlyTile.modTile _ _ _)
      | (rw [State.tile_modTile_same, hot]
         cases a.target (fetched s t) <;> rfl)

/-- A word of slot A that works on its tile's registers alone. -/
theorem makes_slotA {a : TileWord} {f : Tile → Tile → Tile} {gs vs : List (BitVec 5)} {other : Word} {t : TileId} {s : State}
    (hi : CanIssue s t) (hb : RestsB gs vs other (fetched s t)) (hp : pairBad a (decB other) = false) (ha : a.bad = false)
    (hx : hdrRuns a.hdr (fetched s t) = true)
    (hr : a.isReady t (fetched s t) (s.setTile t (fetched s t)) = true)
    (hf : a.faults t (fetched s t) (s.setTile t (fetched s t)) = [])
    (hw : a.waits t (s.setTile t (fetched s t)) = false)
    (hrun : a.run = onTile f) (hread : a.reads = fun _ => []) :
    OnlyTile t s (issue t a (decB other) s) ∧ (issue t a (decB other) s).tile t =
      { a.post (f (fetched s t) (fetched s t)) with
        pc := (match a.target (fetched s t) with
          | some p => BitVec.ofNat 32 p
          | none => BitVec.ofNat 32 ((s.tile t).pc.toNat + 16))
        hold := none } := by
  obtain ⟨n, h1, rfl, h2⟩ := issue_slotA hi hb hp ha hx hr hf hw
  obtain ⟨k1, k2⟩ := exec_onTile hrun hread t (fetched s t) (s.setTile t (fetched s t)) hx
  rw [State.tile_setTile_same] at k2
  rw [k2] at h2
  exact ⟨((OnlyTile.setTile t s _).trans k1).trans h1, h2⟩

/-- Sampling changes the sentinel's fields of the tile alone (R512). -/
theorem sampleWord_only (w : TileWord) (t : TileId) (x : Tile) (s : State) :
    OnlyTile t s (sampleWord w t x s) ∧ (sampleWord w t x s).tile t =
      { s.tile t with
        wordNum := ((sampleWord w t x s).tile t).wordNum
        sent := ((sampleWord w t x s).tile t).sent } := by
  unfold sampleWord
  simp only
  split
  · exact ⟨OnlyTile.refl _ _, rfl⟩
  · exact ⟨OnlyTile.modTile _ _ _, by simp⟩

/-- A word of slot B issues beside a resting slot A: its own effect, the sentinel's sample, then the PC. -/
theorem issue_slotB {b : TileWord} {gs vs : List (BitVec 5)} {other : Word} {t : TileId} {s : State}
    (hi : CanIssue s t) (ha : RestsA gs vs other (fetched s t)) (hq : pairBad (decA other) b = false) (hb : b.bad = false)
    (hw : (decA other).waits t (s.setTile t (fetched s t)) = false ∨ hdrRuns (decA other).hdr (fetched s t) = false)
    (ht : (decA other).target (fetched s t) = none ∨ hdrRuns (decA other).hdr (fetched s t) = false)
    (hp : (decA other).post = (fun y => y) ∨ hdrRuns (decA other).hdr (fetched s t) = false)
    (hr : b.isReady t (fetched s t) (s.setTile t (fetched s t)) = true)
    (hf : b.faults t (fetched s t) ((decA other).exec t (fetched s t) (s.setTile t (fetched s t))) = [])
    (hd : ∀ m, OnlyTile t (s.setTile t (fetched s t)) m → m.tile t = fetched s t → b.doom t (fetched s t) m = none := by intros; rfl) :
    ∃ m, OnlyTile t (s.setTile t (fetched s t)) m ∧ m.tile t = fetched s t ∧
      ∃ n, OnlyTile t (b.exec t (fetched s t) m) n ∧ issue t (decA other) b s = n ∧
      n.tile t = { (b.exec t (fetched s t) m).tile t with
        pc := BitVec.ofNat 32 ((s.tile t).pc.toNat + 16)
        hold := none
        wordNum := (n.tile t).wordNum
        sent := (n.tile t).sent } := by
  obtain ⟨h1, h2, h3⟩ := hi
  have hold : (s.modTile t (fun y => y.fill ((s.tile t).pc.toNat / 256))) = s.setTile t (fetched s t) := rfl
  have hlt : ¬ 0x100000 ≤ (s.tile t).pc.toNat := by omega
  have ra := restsA ha t (s.setTile t (fetched s t))
  set s0 := s.setTile t (fetched s t) with hs0
  have ht0 : s0.tile t = fetched s t := State.tile_setTile_same s t _
  obtain ⟨hra, hfa, hao, hat⟩ := ra
  rw [ht0] at hat
  have hdm := hd _ hao hat
  refine ⟨(decA other).exec t (fetched s t) s0, hao, hat, issue t (decA other) b s, ?_, rfl, ?_⟩ <;>
  · obtain ⟨hso, hst⟩ := sampleWord_only b t (fetched s t)
      (b.exec t (fetched s t) ((decA other).exec t (fetched s t) s0))
    unfold issue
    simp only [h1, hlt, hold, ht0, h3, ha.1, hb, hq, hr, hra, hf, hfa, hdm, ite_self, Bool.not_true,
      Bool.false_eq_true, if_false, Bool.or_false, Bool.and_true, List.append_nil,
      ne_eq, not_true_eq_false]
    rcases hz : hdrRuns (decA other).hdr (fetched s t) with _ | _
    · simp only [decide_true, Bool.false_and, Bool.and_false, Bool.false_eq_true, if_false]
      first
        | exact hso.trans (OnlyTile.modTile _ _ _)
        | (rw [State.tile_modTile_same, hst])
    · have hw' := hw.resolve_right (by simp [hz])
      have ht' := ht.resolve_right (by simp [hz])
      have hp' := hp.resolve_right (by simp [hz])
      simp only [hw', ht', hp', decide_true, Bool.true_and, Bool.and_false, Bool.false_eq_true, if_false, if_true]
      first
        | exact hso.trans (OnlyTile.modTile _ _ _)
        | (rw [State.tile_modTile_same, hst])

theorem restsA_plain {gs vs : List (BitVec 5)} {other : Word} {x : Tile} (h : RestsA gs vs other x) (t : TileId) (s : State) :
    ((decA other).waits t s = false ∨ hdrRuns (decA other).hdr x = false) ∧
    ((decA other).target x = none ∨ hdrRuns (decA other).hdr x = false) ∧
    ((decA other).post = (fun y => y) ∨ hdrRuns (decA other).hdr x = false) := by
  rcases h.2.2.2.2 with rfl | h
  · rw [decA_zero]; exact ⟨.inl rfl, .inl rfl, .inl rfl⟩
  · exact ⟨.inr h, .inr h, .inr h⟩

/-- A word of slot B that works on its tile's registers alone. -/
theorem makes_slotB {b : TileWord} {f : Tile → Tile → Tile} {gs vs : List (BitVec 5)} {other : Word} {t : TileId} {s : State}
    (hi : CanIssue s t) (ha : RestsA gs vs other (fetched s t)) (hq : pairBad (decA other) b = false) (hb : b.bad = false)
    (hx : hdrRuns b.hdr (fetched s t) = true)
    (hr : b.isReady t (fetched s t) (s.setTile t (fetched s t)) = true)
    (hf : ∀ m, OnlyTile t (s.setTile t (fetched s t)) m → m.tile t = fetched s t → b.faults t (fetched s t) m = [])
    (hrun : b.run = onTile f) (hread : b.reads = fun _ => [])
    (hd : ∀ m, OnlyTile t (s.setTile t (fetched s t)) m → m.tile t = fetched s t → b.doom t (fetched s t) m = none := by intros; rfl) :
    OnlyTile t s (issue t (decA other) b s) ∧ (issue t (decA other) b s).tile t =
      { f (fetched s t) (fetched s t) with
        pc := BitVec.ofNat 32 ((s.tile t).pc.toNat + 16)
        hold := none
        wordNum := ((issue t (decA other) b s).tile t).wordNum
        sent := ((issue t (decA other) b s).tile t).sent } := by
  obtain ⟨hw, ht, hp⟩ := restsA_plain ha t (s.setTile t (fetched s t))
  have rm := restsA ha t (s.setTile t (fetched s t))
  obtain ⟨m, hm, hmt, n, hn, rfl, h⟩ := issue_slotB hi ha hq hb hw ht hp hr
    (hf _ rm.2.2.1 (by rw [rm.2.2.2, State.tile_setTile_same])) hd
  obtain ⟨k1, k2⟩ := exec_onTile hrun hread t (fetched s t) m hx
  rw [k2, hmt] at h
  exact ⟨(((OnlyTile.setTile t s _).trans hm).trans k1).trans hn, h⟩

/-! ### The statements' form -/

@[simp] theorem touchWord_pc (x : Tile) (w : Nat) : (x.touchWord w).pc = x.pc := by
  unfold Tile.touchWord; split <;> [rfl; (split <;> rfl)]

@[simp] theorem touch_pc (x : Tile) (l : List (Nat × Nat)) : (x.touch l).pc = x.pc := by
  have h : ∀ (l : List Nat) (y : Tile), (l.foldl Tile.touchWord y).pc = y.pc := by
    intro l
    induction l with
    | nil => intro y; rfl
    | cons a r ih => intro y; rw [List.foldl_cons, ih, touchWord_pc]
  unfold Tile.touch
  split
  · rfl
  · exact h _ _

/-- Fetching does not move the PC. -/
@[simp] theorem fetched_pc (s : State) (t : TileId) : (fetched s t).pc = (s.tile t).pc := by
  unfold fetched Tile.fill
  split
  · rfl
  · exact touch_pc _ _

@[simp] theorem setG_pc (x : Tile) (r : BitVec 5) (v : Word) : (x.setG r v).pc = x.pc := by
  unfold Tile.setG; split <;> rfl

@[simp] theorem setP_pc (x : Tile) (r : BitVec 3) (b : Bool) : (x.setP r b).pc = x.pc := by
  unfold Tile.setP; split <;> rfl

@[simp] theorem setV_pc (x : Tile) (r : BitVec 5) (v : Row) : (x.setV r v).pc = x.pc := rfl

theorem pc_next (p : BitVec 32) : BitVec.ofNat 32 (p.toNat + 16) = p + 16 := by
  apply BitVec.eq_of_toNat_eq; simp

/-- A word of slot A that works on its tile's registers alone and does not branch makes the tile that its function gives. -/
theorem makesTile_slotA {a : TileWord} {f : Tile → Tile → Tile} {gs vs : List (BitVec 5)} {other : Word} {t : TileId}
    {s : State} {i : Instr} (he : exec i s = .next (issue t a (decB other) s))
    (hi : CanIssue s t) (hb : RestsB gs vs other (fetched s t)) (hg : a.gd = gs) (hv : a.vd = vs)
    (hex : a.exch = false) (ha : a.bad = false) (hx : hdrRuns a.hdr (fetched s t) = true)
    (hr : a.isReady t (fetched s t) (s.setTile t (fetched s t)) = true)
    (hf : a.faults t (fetched s t) (s.setTile t (fetched s t)) = [])
    (hw : a.waits t (s.setTile t (fetched s t)) = false)
    (hrun : a.run = onTile f) (hread : a.reads = fun _ => [])
    (ht : a.target (fetched s t) = none)
    (hpc : (a.post (f (fetched s t) (fetched s t))).pc = (fetched s t).pc) :
    MakesTile i t s (pastBundle (a.post (f (fetched s t) (fetched s t)))) := by
  obtain ⟨h1, h2⟩ := makes_slotA hi hb (pair_slotA hb hg hv (.inl hex)) ha hx hr hf hw hrun hread
  refine ⟨_, he, h1, ?_⟩
  rw [h2, ht]
  simp only [pastBundle, hpc, fetched_pc, pc_next]

/-- The same for a word of slot B. -/
theorem makesTile_slotB {b : TileWord} {f : Tile → Tile → Tile} {gs vs : List (BitVec 5)} {other : Word} {t : TileId}
    {s : State} {i : Instr} (he : exec i s = .next (issue t (decA other) b s))
    (hi : CanIssue s t) (ha : RestsA gs vs other (fetched s t)) (hg : b.gd = gs) (hv : b.vd = vs)
    (hb : b.bad = false) (hx : hdrRuns b.hdr (fetched s t) = true)
    (hr : b.isReady t (fetched s t) (s.setTile t (fetched s t)) = true)
    (hf : ∀ m, OnlyTile t (s.setTile t (fetched s t)) m → m.tile t = fetched s t → b.faults t (fetched s t) m = [])
    (hrun : b.run = onTile f) (hread : b.reads = fun _ => [])
    (hpc : (f (fetched s t) (fetched s t)).pc = (fetched s t).pc)
    (hd : ∀ m, OnlyTile t (s.setTile t (fetched s t)) m → m.tile t = fetched s t → b.doom t (fetched s t) m = none := by intros; rfl) :
    MakesTileB i t s (pastBundle (f (fetched s t) (fetched s t))) := by
  obtain ⟨h1, h2⟩ := makes_slotB hi ha (pair_slotB ha hg hv) hb hx hr hf hrun hread hd
  refine ⟨_, he, h1, ?_⟩
  simp only [pastBundle, hpc, fetched_pc]
  rw [pc_next] at h2
  exact h2

end Sys2Proof.Machine
end

