-- ==== Sys2Proof/Laws/Log.lean ====
section
/-!
SUPPORT. What the shared operations that raise faults, interrupts and log entries do to the waiting commands and to the event log:
each leaves the queue alone, and each keeps the log's unread entries at 4,096 or fewer (R522).
-/
namespace Sys2Proof.Machine

/-- At most 4,096 entries of the event log are unread. -/
abbrev LogOk (s : State) : Prop := (s.elSeq - s.elRd).toNat ≤ 4096

/-- The queue and both ends of the log are as they were. -/
structure SameEnds (s n : State) : Prop where
  pending : n.pending = s.pending
  seq : n.elSeq = s.elSeq
  rd : n.elRd = s.elRd

theorem SameEnds.refl (s : State) : SameEnds s s := ⟨rfl, rfl, rfl⟩

theorem SameEnds.trans {a b c : State} (h : SameEnds a b) (k : SameEnds b c) : SameEnds a c :=
  ⟨k.pending.trans h.pending, k.seq.trans h.seq, k.rd.trans h.rd⟩

theorem SameEnds.log {s n : State} (h : SameEnds s n) (l : LogOk s) : LogOk n := by
  rw [LogOk, h.seq, h.rd]
  exact l

/-- A walk keeps what each of its steps keeps. -/
theorem SameEnds.foldl {α : Type} (f : State → α → State) (h : ∀ s a, SameEnds s (f s a)) (l : List α) :
    ∀ s, SameEnds s (l.foldl f s) := by
  induction l with
  | nil => exact fun s => .refl s
  | cons a r ih => exact fun s => (h s a).trans (ih _)

theorem State.report_ends (s : State) (source code unit part serial sstep addr aux : Nat) :
    SameEnds s (s.report source code unit part serial sstep addr aux) := by
  unfold State.report
  dsimp only
  split <;> exact ⟨rfl, rfl, rfl⟩

theorem State.msi_ends (s : State) (fn vec : Nat) : SameEnds s (s.msi fn vec) := ⟨rfl, rfl, rfl⟩

theorem State.setFlag_ends (s : State) (p b : Nat) : SameEnds s (s.setFlag p b) := ⟨rfl, rfl, rfl⟩

theorem State.setTile_ends (s : State) (t : TileId) (x : Tile) : SameEnds s (s.setTile t x) := ⟨rfl, rfl, rfl⟩
theorem State.modTile_ends (s : State) (t : TileId) (f : Tile → Tile) : SameEnds s (s.modTile t f) := ⟨rfl, rfl, rfl⟩
theorem State.modStack_ends (s : State) (k : Nat) (f : Stack → Stack) : SameEnds s (s.modStack k f) := ⟨rfl, rfl, rfl⟩
theorem State.modPart_ends (s : State) (p : Nat) (f : Part → Part) : SameEnds s (s.modPart p f) := ⟨rfl, rfl, rfl⟩
theorem State.modRun_ends (s : State) (k : Nat) (f : Run → Run) : SameEnds s (s.modRun k f) := ⟨rfl, rfl, rfl⟩
theorem State.setObj_ends (s : State) (o : Nat) (x : SyncObj) : SameEnds s (s.setObj o x) := ⟨rfl, rfl, rfl⟩
theorem State.sendInc_ends (s : State) (o amt : Nat) : SameEnds s (s.sendInc o amt) := ⟨rfl, rfl, rfl⟩

theorem State.incObj_ends (s : State) (o amt : Nat) : SameEnds s (s.incObj o amt) := by
  unfold State.incObj
  dsimp only
  split <;> exact ⟨rfl, rfl, rfl⟩

theorem stopPeers_ends (task : Nat) (l : List TileId) (s : State) : SameEnds s (stopPeers task l s) :=
  .foldl _ (fun s u => by split <;> exact ⟨rfl, rfl, rfl⟩) l s

/-- Raising a tile fault leaves the queue and the log alone; its record comes with FAULT_RECORD. -/
theorem State.raise_ends (s : State) (t : TileId) (code : Nat) (multi : Bool) (pc addr : Nat) :
    SameEnds s (s.raise t code multi pc addr) := by
  unfold State.raise
  dsimp only
  repeat' split
  all_goals exact ⟨rfl, rfl, rfl⟩

/-- So does the stop of the other tiles of its task, at the end of the beat. -/
theorem State.haltRun_ends (s : State) (k : Nat) (r : Run) : SameEnds s (s.haltRun k r) := by
  unfold State.haltRun
  dsimp only
  repeat' split
  · exact .refl s
  · exact .refl s
  all_goals exact ((State.modRun_ends s k _).trans (stopPeers_ends k _ _)).trans (State.report_ends _ _ _ _ _ _ _ _ _)

theorem State.haltRuns_ends (s : State) : SameEnds s s.haltRuns :=
  .foldl (fun (s' : State) (c : Nat × Run) => s'.haltRun c.1 c.2) (fun s c => State.haltRun_ends s c.1 c.2) s.runs s

/-- One more entry: an entry is given up for it when 4,096 are unread. -/
theorem State.logEntry_log (s : State) (e : BitVec 256) (h : LogOk s) : LogOk (s.logEntry e) := by
  simp only [LogOk, State.logEntry] at *
  split
  · rw [add_sub_add_right_eq_sub]
    exact h
  · rename_i n
    rw [add_sub_right_comm, BitVec.toNat_add]
    refine (Nat.mod_le _ _).trans ?_
    have one : (1 : BitVec 64).toNat = 1 := rfl
    rw [one]
    exact Nat.lt_of_le_of_ne h n

theorem State.writeEvent_log (s : State) (kind part time : Nat) (h : LogOk s) : LogOk (s.writeEvent kind part time) :=
  State.logEntry_log s _ h

theorem State.logEvent_log (s : State) (kind part : Nat) (h : LogOk s) : LogOk (s.logEvent kind part) := by
  unfold State.logEvent
  split
  · exact h
  · exact State.writeEvent_log s _ _ _ h

/-- Writing the entries that waited keeps the log's form. -/
theorem State.serveLog_log (s : State) (h : LogOk s) : LogOk s.serveLog := by
  have step (l : List (Nat × Nat × Nat)) : ∀ s : State, LogOk s → LogOk (l.foldl (fun s' e => s'.writeEvent e.1 e.2.1 e.2.2) s) := by
    induction l with
    | nil => exact fun _ h => h
    | cons e r ih => exact fun s h => ih _ (State.writeEvent_log s _ _ _ h)
  exact step _ _ h

theorem State.logEntry_pending (s : State) (e : BitVec 256) : (s.logEntry e).pending = s.pending := by
  simp only [State.logEntry]
theorem State.logEvent_pending (s : State) (kind part : Nat) : (s.logEvent kind part).pending = s.pending := by
  unfold State.logEvent
  split
  · rfl
  · exact State.logEntry_pending _ _
theorem State.serveLog_pending (s : State) : s.serveLog.pending = s.pending := by
  have step (l : List (Nat × Nat × Nat)) : ∀ s : State, (l.foldl (fun s' e => s'.writeEvent e.1 e.2.1 e.2.2) s).pending = s.pending := by
    induction l with
    | nil => exact fun _ => rfl
    | cons e r ih => exact fun s => (ih _).trans (State.logEntry_pending _ _)
  exact step _ _

/-- A write of EL_RD keeps the log's form, whatever is written. -/
theorem State.setElRd_log (s : State) (v : BitVec 64) (h : LogOk s) : LogOk (s.setElRd v) := by
  unfold State.setElRd
  split
  · exact h
  · rename_i a
    split
    · simp only [LogOk, sub_sub_cancel]
      decide
    · rename_i b
      have e : (s.elSeq - v).toNat = s.elSeq.toNat - v.toNat := BitVec.toNat_sub_of_le (Nat.le_of_not_lt a)
      rw [LogOk, e, Nat.sub_le_iff_le_add, Nat.add_comm]
      exact Nat.le_of_not_lt b

theorem State.setElRd_pending (s : State) (v : BitVec 64) : (s.setElRd v).pending = s.pending := by
  unfold State.setElRd
  repeat' split
  all_goals rfl

/-- A fault record adds one entry. -/
theorem State.placeRecord_log (s : State) (e : FaultEvt) (h : LogOk s) : LogOk (s.placeRecord e) := by
  unfold State.placeRecord
  dsimp only
  refine State.logEntry_log _ _ (SameEnds.log (s := s) ?_ h)
  repeat' split
  all_goals exact ⟨rfl, rfl, rfl⟩

end Sys2Proof.Machine
end

