-- ==== Sys2Proof/Laws/Memory.lean ====
section
/-!
SUPPORT. Every operation that writes a memory keeps its canonical form: the shelves, staging and the mailbox buffers list rising
addresses and no zero byte; HBM lists rising addresses, whatever the bytes (a listed byte is one written since the last re-key).
-/
namespace Sys2Proof.Machine

/-- The one part of the canonical form that HBM has: strictly rising addresses. -/
abbrev Rising (m : Memory) : Prop := m.Pairwise (fun a b => a.1 < b.1)

/-- A write to a tile's shelves keeps their form. -/
theorem Tile.put_wf {x : Tile} (l : List (Nat × Byte)) (h : x.shelf.wf) : (x.put l).shelf.wf := wf_foldl_writeByte l h

/-- A byte of a shelf outside what a write names reads as before. -/
theorem Tile.put_other {x : Tile} {a : Nat} (l : List (Nat × Byte)) (h : ∀ c ∈ l, c.1 ≠ a) :
    readByte (x.put l).shelf a = readByte x.shelf a := readByte_foldl_other l h

theorem Tile.scramble_wf {x : Tile} (t : TileId) (n : Nat) (ws : List Nat) (h : x.shelf.wf) : (x.scramble t n ws).shelf.wf :=
  Tile.put_wf _ h

/-- A write to staging keeps its form. -/
theorem Stack.stgWrite_wf {x : Stack} (a : Nat) (l : List Byte) (p : Bool) (h : x.stg.wf) : (x.stgWrite a l p).stg.wf :=
  wf_writeBytes a l h

theorem rising_foldl_sins (l : List (Nat × Byte)) : ∀ m : Memory, Rising m → Rising (l.foldl (fun m c => sins c.1 c.2 m) m) := by
  induction l with
  | nil => exact fun _ h => h
  | cons c r ih => exact fun m h => ih _ (rising_sins c.1 c.2 h)

/-- A write to HBM keeps its addresses rising. -/
theorem Stack.setByte_rising {x : Stack} (a : Nat) (b : Byte) (h : Rising x.cells) : Rising (x.setByte a b).cells := rising_sins a b h

theorem Stack.putBytes_rising {x : Stack} (l : List (Nat × Byte)) (q : Bool) (h : Rising x.cells) :
    Rising (x.putBytes l q).cells := rising_foldl_sins l _ h

/-- The byte just written to HBM reads back, and every other byte reads as before. -/
@[simp] theorem Stack.byte_setByte_same (k : Nat) (x : Stack) (a : Nat) (b : Byte) : (x.setByte a b).byte k a = b :=
  sget_sins_same _ _ _ _

theorem Stack.byte_setByte_other (k : Nat) (x : Stack) {a i : Nat} (b : Byte) (h : i ≠ a) : (x.setByte a b).byte k i = x.byte k i :=
  sget_sins_other _ h _ _

theorem sget_foldl_sins_other {d : Byte} {a : Nat} (l : List (Nat × Byte)) (h : ∀ c ∈ l, c.1 ≠ a) :
    ∀ m : Memory, sget d a (l.foldl (fun m c => sins c.1 c.2 m) m) = sget d a m := by
  induction l with
  | nil => exact fun _ => rfl
  | cons c r ih =>
    intro m
    rw [List.foldl_cons, ih (fun d hd => h d (List.mem_cons_of_mem _ hd))]
    exact sget_sins_other d (Ne.symm (h c List.mem_cons_self)) _ _

theorem Stack.byte_putBytes_other (k : Nat) (x : Stack) {a : Nat} (l : List (Nat × Byte)) (q : Bool)
    (h : ∀ c ∈ l, c.1 ≠ a) : (x.putBytes l q).byte k a = x.byte k a := sget_foldl_sins_other l h _

/-- After reset every memory has its form: nothing is listed. -/
theorem reset_memories : (∀ t, (State.reset.tile t).shelf.wf) ∧
    (∀ k, k < 12 → Rising (State.reset.stack k).cells ∧ (State.reset.stack k).stg.wf) ∧
    State.reset.lmc.buf.wf ∧ State.reset.lmc.image.wf ∧ State.reset.lmc.flash.wf := by
  refine ⟨fun _ => wf_nil 0, fun k h => ?_, wf_nil 0, wf_nil 0, wf_nil 0⟩
  have e : (State.reset.stack k).cells = [] ∧ (State.reset.stack k).stg = [] := by
    revert k
    decide
  rw [e.1, e.2]
  exact ⟨List.Pairwise.nil, wf_nil 0⟩

end Sys2Proof.Machine
end

