-- ==== Sys2Proof/Laws/Shelves.lean ====
section
/-!
SUPPORT. What the zeroing of shelves and its read-back leave (R226).
-/
namespace Sys2Proof.Machine

/-- A read-back that finds no word leaves clean shelves and nothing else. -/
@[simp] theorem Tile.zeroShelves_nil (x : Tile) : x.zeroShelves [] = { x with shelf := [], bad := [] } := rfl

/-- Zeroed shelves hold nothing. -/
@[simp] theorem Tile.zeroShelves_shelf (x : Tile) (l : List Nat) : (x.zeroShelves l).shelf = [] := by
  have h : ∀ (l : List Nat) (y : Tile), y.shelf = [] →
      (l.foldl Tile.foundWord y).shelf = [] := by
    intro l
    induction l with
    | nil => exact fun _ h => h
    | cons w r ih => exact fun y h => ih _ h
  exact h l _ rfl

/-- After zeroing a word is poisoned exactly if the read-back found it uncorrectable, and sound otherwise. -/
theorem Tile.zeroShelves_mark (x : Tile) (l : List Nat) (w : Nat) :
    (x.zeroShelves l).mark w = if w ∈ l then 3 else 0 := by
  have h : ∀ (l : List Nat) (y : Tile),
      (l.foldl Tile.foundWord y).mark w = if w ∈ l then 3 else y.mark w := by
    intro l
    induction l with
    | nil => exact fun _ => rfl
    | cons v r ih =>
      intro y
      rw [List.foldl_cons, ih]
      by_cases e : w = v
      · simp [Tile.mark, Tile.foundWord, e]
      · simp [Tile.mark, Tile.foundWord, e, sget_sput_other _ e]
  exact h l _

/-- Zeroing changes the shelves, their marks and the two registers that name what the read-back found, and nothing else. -/
theorem Tile.zeroShelves_frame (x : Tile) (l : List Nat) :
    { x.zeroShelves l with shelf := x.shelf, bad := x.bad, shelfUe := x.shelfUe, shelfUeAddr := x.shelfUeAddr } = x := by
  have h : ∀ (l : List Nat) (y : Tile),
      { l.foldl Tile.foundWord y with
        shelf := x.shelf, bad := x.bad, shelfUe := x.shelfUe, shelfUeAddr := x.shelfUeAddr } =
      { y with shelf := x.shelf, bad := x.bad, shelfUe := x.shelfUe, shelfUeAddr := x.shelfUeAddr } := by
    intro l
    induction l with
    | nil => exact fun _ => rfl
    | cons w r ih => exact fun y => (ih (y.foundWord w)).trans rfl
  exact h l _

/-- A fault event changes the records that wait for FAULT_RECORD and nothing else. -/
theorem State.report_frame (s : State) (source code unit part serial sstep addr aux : Nat) :
    { s.report source code unit part serial sstep addr aux with events := s.events } = s := by
  unfold State.report
  dsimp only
  split <;> rfl

/-- The records of a read-back change nothing but the waiting records and the number of free values used. -/
theorem State.readBackRecords_frame (s : State) (mask : BitVec 32) :
    { s.readBackRecords mask with events := s.events, undef := s.undef } = s := by
  have walk {α : Type} (f : State → α → State) (h : ∀ q a, { f q a with events := s.events } = { q with events := s.events })
      (l : List α) : ∀ q : State, { l.foldl f q with events := s.events } = { q with events := s.events } := by
    induction l with
    | nil => exact fun _ => rfl
    | cons a r ih => exact fun q => (ih _).trans (h q a)
  have one (q : State) (a b c d e g i j : Nat) : { q.report a b c d e g i j with events := s.events } = { q with events := s.events } := by
    unfold State.report
    dsimp only
    split <;> rfl
  have all := walk (fun s' b => (blockTiles b).foldl (fun s'' t =>
      (s.readBack t).foldl (fun q w => q.report 2 2 t.toNat 0xFF 0 0 (8 * w) 0) s'') s')
    (fun q b => walk _ (fun q t => walk _ (fun q w => one q _ _ _ _ _ _ _ _) _ q) _ q) (masked mask) s
  have := congrArg (fun q : State => { q with undef := s.undef }) all
  exact this

end Sys2Proof.Machine
end

