-- ==== Sys2Proof/WellFormed.lean ====
section
/-!
DEFINITION. Which commands the outside world can make: the checks on the operands that their types do not make. A command that is
not well formed is no command of the table; its meaning is total all the same.
-/
namespace Sys2Proof

/-- What the registers of a decoder can hold (R472): ways and a granularity that the module supports, and addresses and a size
in multiples of 256 MiB. -/
def Hdm.wf (d : Hdm) : Bool :=
  [1, 2, 4, 8, 16].contains d.ways && [256, 512, 1024, 2048, 4096, 8192, 16384].contains d.gran &&
    d.size.toNat % 2 ^ 28 = 0 && d.base.toNat % 2 ^ 28 = 0 && d.skip.toNat % 2 ^ 28 = 0

/-- A write names an aligned register (R489, R472). -/
def RegWrite.wf : RegWrite → Bool
  | .bar0 _ off _ => off.toNat % 4 = 0
  | .wide _ off _ => off.toNat % 4 = 0
  | .short _ _ => true
  | .hdm _ d => d.wf
  | .hdmCommit _ _ => true
  | .ats fn _ => fn.toNat ≤ 32

/-- A read of 1, 2 or 4 bytes lies within one register, one of 8 covers two, and the other spaces are read by whole registers
(R489). -/
def RegRead.wf : RegRead → Bool
  | .bar0 _ off n => (n = 1 || n = 2 || n = 4 || n = 8) && off.toNat % 4 % n = 0
  | .dvsec off => off.toNat % 4 = 0
  | .config fn off => fn.toNat ≤ 32 && off.toNat % 4 = 0
  | .bar2 off => off.toNat % 4 = 0

/-- A link offers a rate of KV_DV_LINK, or none, and at most 16 lanes. -/
def LinkObs.wf (o : LinkObs) : Bool := (o.rate = 0 || (5 ≤ o.rate.toNat && o.rate.toNat ≤ 7)) && o.width.toNat ≤ 16

/-- The checks of a command: NOP carries no opcode (R78); a received frame has the TYPE that its command names (Table 14-5);
register offsets are aligned, and a pair is committed by its _HI half (R489, R495); host accesses name whole lines (R474) and
window writes stay inside one (R526); codes and lengths lie in their ranges. DESIGN CHOICE, safe: assumption 2. -/
def Instr.wf : Instr → Bool
  | .nop _ w _ => w.toNat / 2 ^ 58 = 0
  | .hostMemRead a cache met => a.toNat % 64 = 0 && cache ≠ 3 && met ≠ 3
  | .hostMemWrite a _ _ _ => a.toNat % 64 = 0
  | .atsInvalidation fn _ => fn.toNat ≤ 32
  | .hostStreamFlit _ _ _ how => how ≠ 3
  | .sentinelCompare _ rows => rows.length ≤ 3
  | .nblLoad _ slot file _ regions syms => slot < 1024 && file.length < 2 ^ 32 && (regions.map (·.1)).Nodup && syms.length ≤ 4096
  | .graphAdmission _ _ tasks edges unread _ => unread ≠ 3 && tasks.length ≤ 65536 && edges.length < 2 ^ 32
  | .clearOnRead r => r.wf
  | .pairHiWrite _ off _ => off.toNat % 8 = 4
  | .setAlias _ off _ => off.toNat % 4 = 0
  | .clearAlias _ off _ => off.toNat % 4 = 0
  | .toggleAlias _ off _ => off.toNat % 4 = 0
  | .registerWrite w => w.wf
  | .hostWindowWrite _ o bytes => bytes ≠ [] && o.toNat % 64 + bytes.length ≤ 64
  | .coldStart o => o.link.wf
  | .warmStart o => o.link.wf
  | .recovery o => o.wf
  | .cxlLinkTrain o => o.wf
  | .transferFw off bytes _ => off.toNat + bytes.length < 2 ^ 32
  | .idleFrame _ f => f.type = 0
  | .dataFrame _ f => f.type = 1
  | .reduceFrame _ f => f.type = 2
  | .syncFrame _ f => f.type = 3
  | .markFrame _ f => f.type = 4
  | .coastFrame _ f => f.type = 5
  | .lossFrame _ f => f.type = 6
  | .wwriteFrame _ f => f.type = 7
  | .wnakFrame _ f => f.type = 8
  | .reservedFrame _ f => 9 ≤ f.type
  | .collDescriptorWrite _ _ j _ => j.toNat ≤ 4
  | .rebindHandover kind => kind ≠ 3
  | .powerStateEntry u n => u = .block || n.toNat < (if u = .die then 2 else 1)
  | .add .. | .sub .. | .and .. | .or .. | .xor .. | .andn .. | .shl .. | .shr .. | .sar .. | .rol .. | .mul .. | .mulhu ..
    | .mulhs .. | .min .. | .max .. | .minu .. | .maxu .. | .clz .. | .ctz .. | .popc .. | .sel .. | .addi .. | .andi ..
    | .ori .. | .xori .. | .shli .. | .shri .. | .sari .. | .muli .. | .ceq .. | .cne .. | .clt .. | .cge .. | .cltu ..
    | .cgeu .. | .ceqImm .. | .cneImm .. | .cltImm .. | .cgeImm .. | .cltuImm .. | .cgeuImm .. | .pand .. | .por .. | .pxor ..
    | .pandn .. | .pmov .. | .pget .. | .ld .. | .ldu .. | .st .. | .b .. | .bl .. | .jr .. | .dbnz .. | .iflush .. | .fence ..
    | .tstamp .. | .beats .. | .sig .. | .wait .. | .bar .. | .ctrd .. | .send .. | .mstat .. | .copy .. | .exch ..
    | .exchLast .. | .csrr .. | .csrw .. | .rkey .. | .rctr .. | .rdraw .. | .rdrawv .. | .vadd .. | .vsub .. | .vmul ..
    | .vfma .. | .vmin .. | .vmax .. | .vabs .. | .vneg .. | .vand .. | .vor .. | .vxor .. | .vshl .. | .vshr .. | .vsar ..
    | .vceq .. | .vclt .. | .vcle .. | .vsel .. | .vexp .. | .vrcp .. | .vrsq .. | .vmov .. | .vbcg .. | .vextg .. | .vperm ..
    | .vrsum .. | .vrmax .. | .vrmin .. | .vscan .. | .vscanmax .. | .vld .. | .vst .. | .vstc .. | .vmerge .. | .visect ..
    | .vdiff .. | .vdedup .. | .vsort .. | .vcvt .. | .vmxsc .. | .welf .. | .welfm .. | .sload .. | .sswap .. | .mmul ..
    | .amov .. | .amovi .. | .aclr .. | .adrain .. | .aadd .. | .mxaQueueStart .. | .sswapTakeEffect .. | .feederRefill ..
    | .multiplyStep .. | .drainAdd .. | .ibufMissFill .. | .scrubRead .. | .runRecordFetch .. | .flitArrival .. | .slotSend ..
    | .inNetworkAdd .. | .flitLanding .. | .exchangePhaseEnd .. | .computeBarrierRelease .. | .exchangeBarrierRelease ..
    | .syncIncrement .. | .waitRelease .. | .watchdogExpiry .. | .messageArrival .. | .sendResult .. | .msgStuck ..
    | .copyComplete .. | .armAccept .. | .armInFlit .. | .armOutFlit .. | .narrowElement .. | .narrowReply ..
    | .refreshBoundary .. | .refreshWindow .. | .rekey .. | .ueDoorbell .. | .ueJobStart .. | .ueGroup .. | .ueJobEnd ..
    | .ueNop .. | .ueBody .. | .ueEnd .. | .lds .. | .sts .. | .ueMov .. | .ueAdd .. | .ueSub .. | .ueMul .. | .ueFma ..
    | .ueDiv .. | .ueSqrt .. | .ueMin .. | .ueMax .. | .ueAbs .. | .ueNeg .. | .ueSel .. | .cmp .. | .accsq .. | .xclr ..
    | .red .. | .redResult .. | .sop .. | .sbSubqTail .. | .placementPass .. | .taskDispatch .. | .contextRestore ..
    | .taskEnd .. | .completionRecordWrite .. | .contextSave .. | .rebindWait .. | .rebindPreempt ..
    | .rebindKill .. | .partSyncWrite .. | .partRecmaxWrite .. | .hbmImapCommit .. | .hbmStgWinWrite .. | .clrWsq .. | .clrX ..
    | .snap .. | .ueAbort .. | .ueResume .. | .ueProgDataWrite .. | .syncSigWrite .. | .syncValueRead .. | .syncXlateWrite ..
    | .ringOpen .. | .ringClose .. | .headWrite .. | .breakHold .. | .breakRelease .. | .sbEnable .. | .sbDisable ..
    | .sbCplqHead .. | .elRdWrite .. | .frPop .. | .flagBitWrite .. | .warmRestartRequest | .lmcRestart | .partitionReset ..
    | .functionLevelReset .. | .tileReset .. | .winOpen .. | .winClose .. | .winCloseComplete .. | .faultRecord | .imageChunk
    | .imageVerify | .imageActivate | .wakeBudgetWrite .. | .controlPeriod .. | .wakeEvent ..
    | .snuffedEntry | .seamRatioWindow .. | .powerGood .. | .startTimeout | .lmcWatchdog | .perstAssert | .perstDeassert
    | .pwrWarnAssert | .pwrWarnDeassert | .vinUndervoltage .. | .prsntBreak | .refclkLoss | .refclkResume | .mctpControl ..
    | .pldmSensorRead .. | .mctpWakeRequest | .smbusArp .. | .cxlLinkDown | .ideKm .. | .ideIntegrityFailure ..
    | .doeDiscovery .. | .getCertificate .. | .getMeasurements .. | .cdatTableAccess .. | .identifyMemoryDevice
    | .getEventRecords | .clearEventRecords .. | .getEventInterruptPolicy | .setEventInterruptPolicy .. | .getSupportedLogs
    | .getLog .. | .getPoisonList | .sanitize | .secureErase | .getFwInfo | .activateFw | .unsupportedCommand ..
    | .frameSend .. | .markerTimeout .. | .collectiveStepStart .. | .collectiveStepDone .. | .lamplineAttachFlit ..
    | .graceExpiry .. | .laneDegrade .. | .linkLossDetect .. | .lpCoast .. | .lpResume .. | .retrain .. | .spliceClear ..
    | .collTeardown .. | .uncorrectableFrame .. | .lamplineLinkUp .. | .vinOvervoltage .. | .hbmHot .. | .cxlDramEventRecord .. => true

end Sys2Proof
end

