-- ==== Sys2Proof/Tests/Slice0.lean ====
section
/-!
SUPPORT. Tests of the model: commands that are not well formed are refused, words of the spec's encodings read as their fields, and
for each statement that has hypotheses a state and operands that meet them. Expected values are worked out from the rule cited.
-/
namespace Sys2Proof.Tests
open Sys2Proof.Machine Sys2Proof.Safety

set_option Elab.async false
set_option maxRecDepth 20000
set_option exponentiation.threshold 8192

/-! ### Commands that are not well formed -/

def badLink : LinkObs := { rate := 4, width := 16, reversed := false, flit := true }
def goodLink : LinkObs := { rate := 7, width := 16, reversed := false, flit := true }
def wideLink : LinkObs := { goodLink with width := 17 }
def startObs (l : LinkObs) : StartObs :=
  { strap := 0, defectsW := 0, defectsE := 0, trained := true, mapBad := false, lanes := Vector.replicate 8 0xFFFF
    lost := false, link := l }

/-- NOP's opcode is 0 (R78). -/
theorem test_wf_nop : Instr.wf (.nop 0 0x0400000000000000 0) = false ∧ Instr.wf (.nop 0 0x0040000000000000 0) = true := by decide

/-- Each received frame has the TYPE that its command names (Table 14-5). -/
theorem test_wf_frames :
    Instr.wf (.idleFrame 0 { type := 1 }) = false ∧ Instr.wf (.dataFrame 0 { type := 0 }) = false ∧
    Instr.wf (.reduceFrame 0 { type := 1 }) = false ∧ Instr.wf (.syncFrame 0 { type := 4 }) = false ∧
    Instr.wf (.markFrame 0 { type := 3 }) = false ∧ Instr.wf (.coastFrame 0 { type := 6 }) = false ∧
    Instr.wf (.lossFrame 0 { type := 5 }) = false ∧ Instr.wf (.wwriteFrame 0 { type := 8 }) = false ∧
    Instr.wf (.wnakFrame 0 { type := 7 }) = false ∧ Instr.wf (.reservedFrame 0 { type := 8 }) = false ∧
    Instr.wf (.reservedFrame 0 { type := 9 }) = true := by decide

/-- BAR0 registers are 32 bits at multiples of 4 (R489), and the _HI half of a pair lies at 4 modulo 8 (R495). -/
theorem test_wf_registers :
    Instr.wf (.registerWrite (.bar0 .pf 2 0)) = false ∧ Instr.wf (.registerWrite (.bar0 .pf 4 0)) = true ∧
    Instr.wf (.registerWrite (.hdm 0 { ways := 3, size := 0x10000000 })) = false ∧
    Instr.wf (.registerWrite (.hdm 0 { gran := 128, size := 0x10000000 })) = false ∧
    Instr.wf (.registerWrite (.hdm 0 { size := 0x10000000 })) = true ∧
    Instr.wf (.registerWrite (.hdm 0 { base := 0x8000000, size := 0x10000000 })) = false ∧
    Instr.wf (.registerWrite (.ats 33 true)) = false ∧ Instr.wf (.registerWrite (.ats 32 true)) = true ∧
    Instr.wf (.clearOnRead (.bar0 .pf 1 4)) = false ∧ Instr.wf (.clearOnRead (.bar0 .pf 1 1)) = true ∧ Instr.wf (.clearOnRead (.bar0 .pf 3 2)) = false ∧
    Instr.wf (.clearOnRead (.bar0 .pf 4 8)) = true ∧ Instr.wf (.clearOnRead (.bar0 .pf 0 3)) = false ∧ Instr.wf (.clearOnRead (.config 33 0)) = false ∧
    Instr.wf (.clearOnRead (.bar2 2)) = false ∧ Instr.wf (.clearOnRead (.dvsec 6)) = false ∧
    Instr.wf (.pairHiWrite .pf 0x40010 0) = false ∧ Instr.wf (.pairHiWrite .pf 0x40014 0) = true ∧
    Instr.wf (.setAlias .pf 1 0) = false ∧ Instr.wf (.clearAlias .pf 2 0) = false ∧ Instr.wf (.toggleAlias .pf 3 0) = false := by decide

/-- Host accesses name whole 64-byte lines (R474), and a window write stays inside one (R526). -/
theorem test_wf_host :
    Instr.wf (.hostMemRead 32 0 0) = false ∧ Instr.wf (.hostMemRead 64 3 0) = false ∧ Instr.wf (.hostMemRead 64 0 3) = false ∧
    Instr.wf (.hostMemRead 64 2 2) = true ∧ Instr.wf (.hostMemWrite 63 0 0 false) = false ∧
    Instr.wf (.hostStreamFlit 0 false 0 3) = false ∧ Instr.wf (.atsInvalidation 33 0) = false ∧
    Instr.wf (.hostWindowWrite 0 0 []) = false ∧ Instr.wf (.hostWindowWrite 0 63 [0, 0]) = false ∧
    Instr.wf (.hostWindowWrite 0 62 [0, 0]) = true := by decide

/-- Codes and lengths lie in their ranges (R301, R441, R461, R513, LP_COLL). -/
theorem test_wf_ranges :
    Instr.wf (.graphAdmission 0 0 [] [] 3 true) = false ∧ Instr.wf (.nblLoad 0 1024 [] 0 [] []) = false ∧
    Instr.wf (.nblLoad 0 1023 [] 0 [] []) = true ∧ Instr.wf (.nblLoad 0 0 [] 0 [(1, 0), (1, 8)] []) = false ∧
    Instr.wf (.coldStart (startObs badLink)) = false ∧ Instr.wf (.warmStart (startObs wideLink)) = false ∧
    Instr.wf (.coldStart (startObs goodLink)) = true ∧ Instr.wf (.recovery badLink) = false ∧
    Instr.wf (.cxlLinkTrain wideLink) = false ∧ Instr.wf (.collDescriptorWrite 0 0 5 0) = false ∧
    Instr.wf (.rebindHandover 3) = false ∧ Instr.wf (.powerStateEntry .die 2) = false ∧
    Instr.wf (.transferFw 0xFFFFFFFF [0] true) = false ∧ Instr.wf (.sentinelCompare 0 [0, 0, 0, 0]) = false := by decide

/-! ### Words of the spec -/

/-- The example of Table 3-15: ADD g5, g6, g7 under !p2 at 64 bits. -/
theorem test_word_add : wMaj 0x0540298E0F000000 = 1 ∧ wMin 0x0540298E0F000000 = 0 ∧ wHdr 0x0540298E0F000000 = ⟨2, true⟩ ∧
    wOpR 0x0540298E0F000000 = ⟨5, 6, 7, 0, 0xF, 0, 0, 0⟩ := by decide

/-- The example of Table 3-15: VADD v3, v4, v5 in BF16 under lane mask v9. -/
theorem test_word_vadd : wMaj 0x4000190A03090000 = 16 ∧ wMin 0x4000190A03090000 = 0 ∧
    wOpR 0x4000190A03090000 = ⟨3, 4, 5, 0, 3, 0, 9, 0⟩ := by decide

/-- The table gives no row any bits, so a word spells no command. -/
theorem test_no_table_word : decodeTableWord 64 0 = none := rfl

/-- The words of Table 3-15 are an ADD that writes g5 and a VADD that writes v3, and they pair (R92). -/
theorem test_decode_example : (decA 0x0540298E0F000000).bad = false ∧ (decA 0x0540298E0F000000).gd = [5] ∧
    (decB 0x4000190A03090000).bad = false ∧ (decB 0x4000190A03090000).vd = [3] ∧
    pairBad (decA 0x0540298E0F000000) (decB 0x4000190A03090000) = false := by
  and_intros <;> decide

/-! ### A tile at work: tile 5 of task 1, which holds block 0 -/

def footRun : Run := { part := 0, bx0 := 0, by0 := 0, w := 1, h := 1, stgSize := 65536 }

/-- Partition 0 with task 1 on block 0, where tile 5 is `x`. -/
def withTile (x : Tile) : State := { State.reset with tiles := [(5, x)], runs := [(1, footRun)], live := [(1, true)] }

def idle5 : Tile := { st := 2, task := 1, rel := 5, foot := 0x1100 }
def s5 : State := withTile idle5
def hdr0 : Hdr := ⟨0, false⟩

/-- What every statement about a word of slot A assumes: the tile can issue, slot B rests, the word executes. -/
abbrev MeetsA (gs : List (BitVec 5)) (other : Word) (x : Tile) : Prop :=
  CanIssue (withTile x) 5 ∧ RestsB gs [] other (fetched (withTile x) 5) ∧ hdrRuns hdr0 (fetched (withTile x) 5) = true

/-- The same for a word of slot B. -/
abbrev MeetsB (gs vs : List (BitVec 5)) (other : Word) (x : Tile) : Prop :=
  CanIssue (withTile x) 5 ∧ RestsA gs vs other (fetched (withTile x) 5) ∧ hdrRuns hdr0 (fetched (withTile x) 5) = true ∧
    VReady (fetched (withTile x) 5) vs

/-- VADD v3 under !p0, which never executes: a resting word that is no NOP. -/
def restVadd : Word := 0x4040190A03090000

/-- ADD g5 under !p0. -/
def restAdd : Word := 0x0440298E0F000000

theorem witness_issue : MeetsA [3] 0 idle5 ∧ MeetsA [3] restVadd idle5 ∧ MeetsB [] [3, 4] 0 idle5 ∧ MeetsB [] [3, 4] restAdd idle5 := by
  and_intros <;> decide

def opR (rd ra rb rc : BitVec 5) (fmt : BitVec 4) (fn : BitVec 16) : OpR := ⟨rd, ra, rb, rc, fmt, 0, 0, fn⟩
def opI (rd ra : BitVec 5) (imm : BitVec 32) : OpI := ⟨rd, ra, 0, 0, imm⟩
def opM (rt rb : BitVec 5) (off : BitVec 16) (fmt : BitVec 4) (mode : BitVec 3) : OpM := ⟨rt, rb, off, 0, fmt, 0, mode⟩

/-- CSR numbers at the ends of their ranges: the first and last ring words, the tile's selector, and those beside them; a ring
that may open and one that may not; a HEAD moved over the one record, which has been read, one moved before it has been read, and one
beyond the ring; and another tile of the footprint, with no message on its way, and one beyond it. -/
theorem witness_HardWiredAndCsrs :
    let o (imm : BitVec 32) := opI 3 0 imm
    let x := fetched s5 5
    let r : Ring := { isOpen := true, size64 := 1, base64 := 0x100, head := 0, tail := 7, starts := [0] }
    let y : Tile := { idle5 with rings := [(0, r)] }
    MeetsA [3] 0 idle5 ∧ MeetsA [3] 0 y ∧
    bits (o 0).imm.toNat 30 6 = 0 ∧ bits (o 24).imm.toNat 30 6 = 0 ∧ bits (o 32).imm.toNat 30 6 = 0 ∧ bits (o 39).imm.toNat 30 6 = 0 ∧
    bits (o 63).imm.toNat 30 6 = 0 ∧ (o 63).imm.getLsbD 31 = false ∧
    ringOpenFails x 0 0x80008000 = false ∧ ringOpenFails y 1 0x80008100 = true ∧ (y.ring 0).words = 8 ∧
    (y.ring 0).passes 7 = true ∧ (y.ring 0).passes 6 = false ∧ ({ r with unread := [3] } : Ring).passes 7 = false ∧
    (y.ring 0).words ≤ (8#13).toNat ∧ s5.msgs = [] ∧ x.sends = [] ∧
    (opI 3 4 0x80000000).imm.getLsbD 31 = true ∧ (x.g 4).toNat < (s5.run x.task).size ∧
    (s5.run x.task).tileAt (x.g 4).toNat ≠ 5 ∧
    (s5.run x.task).size ≤ (({ idle5 with gs := [(4, 64)] } : Tile).g 4).toNat := by
  intros; and_intros <;> decide

/-- Both widths of the two-source words. -/
theorem witness_ScalarAlu : MeetsA [3] restVadd idle5 ∧
    (opR 3 4 5 0 0xF 0).fmt = 0xF ∧ (opR 3 4 5 0 0 0).fmt = 0 ∧ (opR 3 4 5 0 0 0).rm = 0 ∧ (opR 3 4 5 0 0 0).vm = 0 := by
  and_intros <;> decide

/-- A compare into p7, the last predicate, and each predicate word. -/
theorem witness_Predicates : MeetsA [] 0 idle5 ∧ MeetsA [7] 0 idle5 ∧ (opR 7 7 7 0 0 0).rd.toNat < 8 ∧
    (opR 7 7 7 0 0 0).ra.toNat < 8 ∧ (opI 7 4 0xFFFFFFFF).sh ≠ 3 ∧ (opI 7 4 0).res = 0 := by
  and_intros <;> decide

/-- The last double word of the shelves, the first address beyond them, and a misaligned one. -/
theorem witness_ScalarMemory :
    let x : Tile := { idle5 with gs := [(2, 0x3FFFF8), (6, 0x400000)] }
    let y := fetched (withTile x) 5
    let a := (y.g 2 + (opM 3 2 0 0xF 0).off.signExtend 64).toNat
    MeetsA [3] 0 x ∧ a = 0x3FFFF8 ∧ a < 0x400000 ∧ a % 8 = 0 ∧ queueClash y.queue [(a, 8)] [] = false ∧
    y.firstBad [(a, 8)] = none ∧ queueClash y.queue [] [(a, 1)] = false ∧ y.badMerge [a] = none ∧
    (∀ w ∈ wordsOf a 8, y.inRingFree w = false) ∧ y.queue = [] ∧ y.bad = [] ∧
    0x400000 ≤ (y.g 6 + (opM 3 6 0 0xF 0).off.signExtend 64).toNat ∧
    (y.g 2 + (opM 3 2 1 0 0).off.signExtend 64).toNat % memSize 0 ≠ 0 := by
  intros; and_intros <;> decide

/-- Branches to the last bundle of Shelf N, a JR there, and a DBNZ of 1 and of 2. -/
theorem witness_BranchesAndControl :
    let x : Tile := { idle5 with gs := [(2, 0xFFFF0), (3, 1), (4, 2)] }
    let rel (imm : BitVec 32) : Word := x.pc.zeroExtend 64 + BitVec.ofInt 64 (16 * imm.toInt)
    MeetsA [3] 0 x ∧ MeetsA [4] 0 x ∧ (rel 0xFFFF).toNat = 0xFFFF0 ∧ (rel 0xFFFF).toNat % 16 = 0 ∧
    (x.g 2).toNat < 0x100000 ∧ (x.g 2).toNat % 16 = 0 ∧ x.g 3 = 1 ∧ x.g 4 ≠ 1 ∧ x.sends = [] := by
  intros; and_intros <;> decide

def opS (sid : BitVec 12) (ra : BitVec 5) (reg : Bool) (count : BitVec 16) : OpS := ⟨sid, ra, reg, count, 0⟩

/-- Task 1 at work with virtual ID 9 mapped to object 16,384, which is `v`. -/
def withObj (v : SyncObj) : State := { s5 with xlate := [(9, 0x80004000)], objs := [(16384, v)] }

/-- A WAIT whose target has just been reached and one a step behind; an increment of the tile ahead of it, and one of another tile; a
BAR with a count of zero and of three; and an ID without a mapping. -/
theorem witness_SyncWords :
    let s (v : SyncObj) := withObj v
    let ahead (u : TileId) : State := { s {} with incs := [{ obj := 16384, amt := 1, src := some ⟨u, 0, 0, 0⟩ }] }
    CanIssue (s {}) 5 ∧ RestsB [4] [] 0 (fetched (s {}) 5) ∧ hdrRuns hdr0 (fetched (s {}) 5) = true ∧
    ((s {}).tile 5).hold = none ∧ tileObj (s {}) (fetched (s {}) 5) 9 = some 16384 ∧ ((s {}).obj 16384).bound = false ∧
    (∀ o ∈ [opS 9 0 false 1, opS 9 4 true 0], if o.reg then o.count = 0 else o.ra = 0) ∧
    (((s { value := 7 }).obj 16384).value - 7).toNat < 2 ^ 31 ∧ 2 ^ 31 ≤ (((s { value := 6 }).obj 16384).value - 7).toNat ∧
    incAhead (s {}).incs 5 16384 = false ∧ incAhead (ahead 6).incs 5 16384 = false ∧ incAhead (ahead 5).incs 5 16384 = true ∧
    CanIssue (ahead 5) 5 ∧ sCount (opS 9 0 false 0) (fetched (s {}) 5) = 0 ∧ sCount (opS 9 0 false 3) (fetched (s {}) 5) = 3 ∧
    tileObj (s {}) (fetched (s {}) 5) 0xFFF = none ∧ sCount (opS 0xFFF 0 false 1) (fetched (s {}) 5) ≠ 0 := by
  intros; and_intros <;> decide

/-- A barrier's first arrival, its last of three and an unlike count; a released tile, and one whose arrival was unlike. -/
theorem witness_SyncWords_barrier :
    let s (v : SyncObj) := withObj v
    let three : SyncObj := { cnt := 3, arrived := 2, bars := [6, 7] }
    let g : SyncHold := { vid := 9, obj := 16384, isWait := false, since := 0, released := true }
    let freed : State := { s {} with tiles := [(5, { idle5 with hold := some g })] }
    let other : State := { s {} with tiles := [(5, { idle5 with hold := some { g with released := false, otherCnt := true } })] }
    ((s three).obj 16384).bound = false ∧ ((s {}).obj 16384).arrived = 0 ∧ ((s {}).obj 16384).arrived + 1 ≠ 3 ∧
    ((s three).obj 16384).cnt = 3 ∧ ((s three).obj 16384).arrived + 1 = 3 ∧ ((s three).obj 16384).arrived ≠ 0 ∧
    ((s three).obj 16384).cnt ≠ 2 ∧ CanIssue freed 5 ∧ RestsB [] [] 0 (fetched freed 5) ∧ hdrRuns hdr0 (fetched freed 5) = true ∧
    (freed.tile 5).hold = some g ∧ g.released = true ∧ tileObj freed (fetched freed 5) 9 = some 16384 ∧ incAhead freed.incs 5 16384 = false ∧
    (other.tile 5).hold = some { g with released := false, otherCnt := true } := by
  intros; and_intros <;> decide

/-- Sends of 0, 1, 4 and 5 words to the footprint's last tile, one from g28 that just fits, one beyond the footprint; the last
MSTAT function; a draw into an even pair and one into the last eighth of a row. -/
theorem witness_MessageAndRandomWords :
    let x : Tile := { idle5 with gs := [(4, 63), (6, 64)] }
    let y := fetched (withTile x) 5
    MeetsA [] 0 x ∧ MeetsA [4, 5] 0 x ∧ MeetsB [] [3] 0 x ∧ RestsB [] [3] 0 y ∧ y.sends.length < 32 ∧
    (y.g 4).toNat < ((withTile x).run y.task).size ∧ ((withTile x).run y.task).size ≤ (y.g 6).toNat ∧
    ((opR 0 4 0 28 0 4).rc.toNat + 4 ≤ 32) ∧ (opR 0 4 0 28 0 4).fn.toNat < 64 ∧ (opR 0 4 0 0 0 5).fn.toNat % 8 = 5 ∧
    (15#16).toNat < 16 ∧ ((withTile x).tile 5).vuNext = none ∧ y.queue.all (fun e => e.started) = true ∧
    (4#5).toNat % 2 = 0 ∧ VReady y [3] := by
  intros; and_intros <;> decide

/-- A tile with 32 sends pending, one that waits for its oldest, and one whose oldest has returned since. -/
theorem witness_MessageWords_full :
    let p : PendSend := { seq := 3, dest := 6, ring := 0 }
    let full : Tile := { idle5 with sends := List.replicate 32 p }
    let stuck : Tile := { idle5 with sends := [p], sendWait := some 3 }
    let done : Tile := { idle5 with sends := [{ p with seq := 4 }], sendWait := some 3 }
    MeetsA [] 0 full ∧ 32 ≤ (fetched (withTile full) 5).sends.length ∧ (fetched (withTile full) 5).sendWait = none ∧
    MeetsA [] 0 stuck ∧ p ∈ (fetched (withTile stuck) 5).sends ∧ (fetched (withTile stuck) 5).sendWait = some p.seq ∧
    MeetsA [] 0 done ∧ (fetched (withTile done) 5).sends.length < 32 ∧ (fetched (withTile done) 5).sendWait = some 3 ∧
    ∀ r ∈ (fetched (withTile done) 5).sends, r.seq ≠ 3 := by
  intros; and_intros <;> decide

/-- A STORE of one 64-byte line from the start of the partition, at shelf address 0x20, and EXCH with an all-zero descriptor. -/
theorem witness_CopyAndExchangeWords :
    let x : Tile := { idle5 with shelf := writeLE (writeLE [] 0x20 8 (2 ^ 60)) 0x30 8 64 }
    let s : State := { withTile x with xlate := [(9, 0x80004000)] }
    let y := fetched s 5
    let o : OpX := ⟨1, 0, 9, 0⟩
    CanIssue s 5 ∧ RestsB [] [] 0 y ∧ hdrRuns hdr0 y = true ∧ y.copies.length < 16 ∧ queueClash y.queue [(0x20, 32)] [] = false ∧
    y.firstBad [(0x20, 32)] = none ∧
    copyOk (s.setTile 5 y) 5 (s.run y.task) (readCopy o y (s.setTile 5 y) 0) (readLE y.shelf 0x20 8) (readLE y.shelf 0x28 8)
      (readLE y.shelf 0x30 8) (readLE y.shelf 0x38 8) = true ∧
    tileObj s y 9 = some 16384 ∧ tileObj s y 10 = none ∧
    y.queue = [] ∧ y.fifo = [] ∧ y.copies.any (fun d => isArm d.op) = false ∧ y.bad = [] ∧ exchCheck ⟨4, 0, 0, 0⟩ y = [] := by
  intros; and_intros <;> decide

/-- CLZ, CTZ, POPC at both widths, SEL by p7, and the two immediate forms at the ends of SH. -/
theorem witness_ScalarCountsAndImmediates : MeetsA [3] 0 idle5 ∧ (opR 3 4 0 0 0xF 0).fmt = 0xF ∧ (opR 3 4 5 0 0 7).fmt = 0 ∧
    (opR 3 4 5 0 0 7).fn.toNat < 8 ∧ (opR 3 4 5 0 0 7).rc = 0 ∧ (opI 3 4 5).sh ≠ 3 ∧ (⟨3, 4, 2, 0, 5⟩ : OpI).sh ≠ 3 ∧ (opI 3 4 5).res = 0 := by
  and_intros <;> decide

/-- The three integer formats, and a shift by FN[4:0] = 31. -/
theorem witness_VectorIntegers : MeetsB [] [3] restAdd idle5 ∧ VReady (fetched s5 5) [4, 5, 0, 0, 3] ∧
    (opR 3 4 5 0 0 0).fmt = 0 ∧ (opR 3 4 5 0 2 0).fmt = 2 ∧ (opR 3 4 5 0 5 0).fmt = 5 ∧ (opR 3 4 0 0 5 0).rb = 0 ∧
    (opR 3 4 0 0 5 0x801F).fn.getLsbD 15 = true ∧ bits (opR 3 4 0 0 5 0x801F).fn.toNat 14 5 = 0 := by
  and_intros <;> decide

/-- The three float formats, with RM 0 and 1. -/
theorem witness_VectorFloats : MeetsB [] [3] 0 idle5 ∧ VReady (fetched s5 5) [4, 5, 6, 0, 3] ∧ (opR 3 4 5 6 1 0).fmt = 1 ∧
    (opR 3 4 5 6 3 0).fmt = 3 ∧ (opR 3 4 5 6 4 0).fmt = 4 ∧ (opR 3 4 0 0 1 0).rb = 0 ∧ (opR 3 4 0 0 1 0).rm = 0 := by
  and_intros <;> decide

/-- All-zero rows are ascending lists; v2 and v3 are an even pair; the last lane of VEXTG. -/
theorem witness_VectorMovesAndSets :
    let list (r : Row) : List Nat := (List.range 32).map (elt 32 r)
    MeetsB [] [2, 3] 0 idle5 ∧ MeetsB [3] [] 0 idle5 ∧ VReady (fetched s5 5) [4, 5, 0, 0, 2] ∧ VReady (fetched s5 5) [4, 5, 2, 3] ∧
    (0#4).toNat ≤ 5 ∧ (5#4).toNat ≤ 5 ∧ (31#16).toNat < 32 ∧ (2#5).toNat % 2 = 0 ∧
    (list ((fetched s5 5).v 4)).Pairwise (· ≤ ·) ∧ (list ((fetched s5 5).v 5)).Pairwise (· ≤ ·) := by
  intros; and_intros <;> decide

theorem witness_VectorReductions : MeetsB [] [3] 0 idle5 ∧ VReady (fetched s5 5) [4, 0, 0, 0, 3] ∧ (opR 3 4 0 0 5 0).fmt = 5 ∧
    (opR 3 4 0 6 4 0).fmt = 4 ∧ (opR 3 4 0 6 4 0).rm = 0 ∧ (opR 3 4 0 6 4 0).vm = 0 := by
  and_intros <;> decide

/-- A FP32 row that ends with the shelves, one that begins a word later, and one that is misaligned. -/
theorem witness_VectorMemory :
    let x : Tile := { idle5 with gs := [(2, 0x3FFF80), (6, 0x3FFF84), (7, 2)] }
    let y := fetched (withTile x) 5
    let act := (List.range 32).filter (active y 0 32)
    MeetsB [] [3] 0 x ∧ y.queue = [] ∧ y.bad = [] ∧ y.rings = [] ∧ (1#4).toNat ≤ 7 ∧ memSize 1 = 4 ∧
    (∀ j ∈ act, elemAddr (opM 3 2 0 1 0) y j < 0x400000 ∧ elemAddr (opM 3 2 0 1 0) y j % 4 = 0) ∧
    (31 ∈ act ∧ 0x400000 ≤ elemAddr (opM 3 6 0 1 0) y 31 ∧ ∀ i ∈ act, i < 31 → elemAddr (opM 3 6 0 1 0) y i < 0x400000 ∧
      elemAddr (opM 3 6 0 1 0) y i % 4 = 0) ∧
    elemAddr (opM 3 7 0 1 0) y 0 % 4 ≠ 0 := by
  intros; and_intros <;> decide

/-- FP32 to BF16 into part 1, BF16 to FP32 from part 1, INT32 to FP32, and the last MX scale format. -/
theorem witness_ConversionsAndWelford : MeetsB [] [3] 0 idle5 ∧ MeetsB [] [3, 4, 5] 0 idle5 ∧ VReady (fetched s5 5) [6, 0, 0, 3] ∧
    VReady (fetched s5 5) [6, 7, 8, 0, 3, 4, 5] ∧ (fmtBits 3 < fmtBits 1 ∧ 1 < fmtBits 1 / fmtBits 3) ∧
    (fmtBits 3 ≤ fmtBits 1 ∧ fmtBits 3 ≠ fmtBits 1 ∧ 1 < fmtBits 1 / fmtBits 3) ∧ fmtBits 0 = fmtBits 1 ∧
    (0x13#16).toNat < 64 ∧ (0x13#16).toNat % 16 = 3 ∧ (12#16).toNat ≤ 12 ∧ (3#5).toNat ≤ 29 ∧ (29#5).toNat ≤ 29 := by
  and_intros <;> decide

def opT (acc : BitVec 3) (fmt : BitVec 4) (nrow row : BitVec 5) (clr : Bool) : OpT := ⟨acc, 2, 3, fmt, 0, 0, 0, nrow, clr, row, false, 0, 0⟩
def entry (op : MxaOp) (o : OpT) : MxaEntry := { op := op, o := o, base := 0x1000, stride := 0x80, vdata := 0, pc := 0x40, num := 0 }
def atWork (q : List MxaEntry) (f : List DrainRow) : Tile := { idle5 with queue := q, fifo := f }

/-- An empty queue and a full one; an MMUL of all 32 rows and an AADD of the last; a word whose start will fail, and one that will meet
a poisoned word. -/
theorem witness_MatrixWords :
    let e := { entry .mmul (opT 0 2 31 0 true) with started := true }
    MeetsB [] [] 0 idle5 ∧ RestsA [] [2] 0 (fetched s5 5) ∧ VReady (fetched s5 5) [2] ∧ (fetched s5 5).queue.length < 4 ∧
    CanIssue (withTile (atWork [e, e, e, e] [])) 5 ∧ 4 ≤ (fetched (withTile (atWork [e, e, e, e] [])) 5).queue.length ∧
    (opT 0 2 31 0 true).row.toNat + (opT 0 2 31 0 true).nrow.toNat ≤ 31 ∧ (opT 0 0 0 31 false).row.toNat + 0 ≤ 31 ∧
    (opT 0 3 31 0 false).fmt.toNat ∉ [0, 0xD, 0xF] ∧
    startFaults (idle5.afterQueue false) false idle5.queue (entry .amov (opT 0 0 0 0 false)) ≠ [] ∧
    startFaults (idle5.afterQueue false) false idle5.queue (entry .sload (opT 0 2 31 0 false)) = [] ∧
    firstUe idle5 idle5.queue (entry .sload (opT 0 2 31 0 false)) = none ∧ CanIssue (withTile { idle5 with bad := [(0x210, 3)] }) 5 ∧
    (firstUe { idle5 with bad := [(0x210, 3)] } [] (entry .sload (opT 0 2 31 0 false))).isSome = true := by
  intros; and_intros <;> decide

/-- An SLOAD behind a started word; rows that end with the shelves; an INT8 MMUL onto the stationary operand of its format and of
another; an AMOV of a clear accumulator. -/
theorem witness_MatrixStarts :
    let x := atWork [entry .sload (opT 0 5 31 0 false)] []
    let y : Tile := { atWork [entry .mmul (opT 1 5 0 0 true)] [] with stat := { fmt := 5 } }
    let b (i : Nat) := rowAddr 0x3FF000 0x80 i
    x.working = true ∧ x.fifo = [] ∧ x.bad = [] ∧
    (∀ r < 32, rowAddr 0x1000 0x80 r % 8 = 0 ∧ rowAddr 0x1000 0x80 r + rowBytes 5 ≤ 0x400000) ∧ isMx 5 = false ∧
    (∀ r < 32, b r % 8 = 0 ∧ b r + rowBytes 1 ≤ 0x400000) ∧ b 31 + rowBytes 1 = 0x400000 ∧
    y.working = true ∧ y.stat.fmt = 5 ∧ (y.acc 1).tag = 0 ∧ ({ idle5 with accs := [(1, { tag := 3, kind := true })] } : Tile).acc 1 =
      { tag := 3, kind := true } ∧
    (2#4) ≠ y.stat.fmt ∧ ¬((2#4).toNat ∈ [6, 7] ∧ y.stat.fmt.toNat ∈ [6, 7]) ∧ ¬(isMx 2 = true ∧ isMx y.stat.fmt.toNat = true) ∧
    rowAddr 0x1001 0x80 0 % 8 ≠ 0 ∧ (∀ r ≤ 0, rowAddr 0x1000 0x80 r % 8 = 0 ∧ rowAddr 0x1000 0x80 r + rowBytes 2 + 1 ≤ 0x400000) := by
  intros; and_intros <;> decide

/-- A swap at the front and one behind a product; a product with no row, one row and 16 rows fetched, and with 32 and 33 result
rows before it. -/
theorem witness_MatrixSteps :
    let sw := { entry .sswap (opT 0 0 0 0 false) with started := true }
    let mm := { entry .mmul (opT 0 5 31 0 true) with started := true }
    let fr : FeedRow := ⟨0, 0, none⟩
    let dr : DrainRow := ⟨0, 0, 3, true, 0, true, 0, {}⟩
    (atWork [sw] []).working = true ∧ sw.started = true ∧ mm.op = .mmul ∧ mm.fetched ≤ mm.o.nrow.toNat ∧ mm.begun ≤ mm.o.nrow.toNat ∧
    ¬(mm.op = .sswap ∧ mm.started = true) ∧ (List.replicate 15 fr).length < 16 ∧ 16 ≤ (List.replicate 16 fr).length ∧
    mm.ue = none ∧ 32 < (List.replicate 33 dr).length ∧ (List.replicate 32 dr).length ≤ 32 ∧ ([] : List FeedRow).length < 1 ∧
    1 ≤ [fr].length ∧
    (∀ w ∈ [fr].take 1, w.bad = none) ∧ (0xA ≤ 0xC ∧ mm.begun + 1 ≤ mm.o.nrow.toNat) := by
  intros; and_intros <;> decide

/-- A drain row for the last row of a4; an ADRAIN and an AADD at the front of the queue at their first and their last row. -/
theorem witness_DrainAndAccumulatorRows :
    let dr : DrainRow := ⟨4, 31, 1, false, 0, true, 0, {}⟩
    let ad (n : Nat) := { entry .adrain (opT 0 1 31 0 true) with started := true, done := n, tag := 1 }
    let aa := { entry .aadd (opT 0 0 0 31 false) with started := true, tag := 3 }
    (atWork [] [dr]).working = true ∧ dr.row < 32 ∧ (ad 0).done ≤ (ad 0).o.nrow.toNat ∧ (ad 31).done = (ad 31).o.nrow.toNat ∧
    (ad 31).o.row.toNat + (ad 31).done < 32 ∧ aa.o.row.toNat + aa.done < 32 ∧ aa.done ≤ aa.o.nrow.toNat ∧
    (∀ d ∈ (atWork [ad 0] []).fifo, d.acc ≠ 0) ∧ (atWork [ad 0] []).bad = [] ∧ (atWork [ad 0] []).rings = [] := by
  intros; and_intros <;> decide

/-- A miss at the PC; the scrubber at the last word; a tile in PILOT. -/
theorem witness_FetchAndScrub :
    let x : Tile := { scrubPtr := 0x7FFFF, bad := [(0x7FFFF, 3)] }
    idle5.canIssue = true ∧ idle5.pc.toNat < 0x100000 ∧ idle5.bad = [] ∧
    (sget ({} : IbufLine) (idle5.pc.toNat / 256 % 64) idle5.ibuf).block ≠ some (idle5.pc.toNat / 256) ∧ x.st = 0 ∧
    (withTile x).dim.banked = false ∧ (withTile x).pins.snuffed = false ∧ x.mark x.scrubPtr.toNat = 3 ∧
    idle5.st ≠ 8 ∧ ({ s5 with parts := [(0, { Part.first with mode := 0x0C000000 })] } : State).scrubs 5 = true ∧ ({ st := 8 } : Tile).st = 8 := by
  intros; and_intros <;> decide

def flit0 : Flit := ⟨5, 0, 0⟩
/-- An input record: one flit, to TILE. -/
def recIn : BitVec 64 := 0x0000400000000000
/-- An output record: one flit from input N (code 0), no second source, COPY, onto the link E. -/
def recOut : BitVec 64 := 0x00001C0000000000
def moving (e : Exch) : Tile := { idle5 with st := 4, pc := 16, exch := e }

/-- A record that keeps the rules and one that breaks them, for an input queue and an output table; a flit in order, one out of
order, one beyond SLOTS, one whose record is not yet fetched, and one whose queue is full. -/
theorem witness_RecordsAndArrivals :
    let r := footRun
    let i : InPort := { slots := 1, recs := 1, next := 0x100 }
    let c : InPort := { i with recs := 0, cur := some ⟨recIn, 0x100, 0⟩, fifo := [flit0] }
    let x := moving { ins := [(0, c)] }
    rCount recIn ≤ i.slots - i.k ∧ (i.recs = 1 → rCount recIn = i.slots - i.k) ∧ recIn.toNat % 2 ^ 42 = 0 ∧
    recIn.getLsbD (42 + 0) = false ∧ recIn.getLsbD (42 + 4) = true ∧
    (∀ p < 6, recIn.getLsbD (42 + p) = true → portExists r 5 p = true) ∧ ¬ (rCount (recIn + 2 ^ 48) ≤ i.slots - i.k) ∧
    outRecOk r 5 1 recOut = true ∧ outRecOk r 5 1 0 = false ∧ rCount recOut ≤ 1 ∧ x.bad = [] ∧ (x.st = 3 ∨ x.st = 4) ∧
    landsOn x 0x100 8 = false ∧ (x.exch.inp 0).copied = [] ∧
    (x.exch.inp 0).fifo = [flit0] ∧ flit0.ord.toNat = (x.exch.inp 0).k % 256 ∧ (x.exch.inp 0).k < (x.exch.inp 0).slots ∧
    flit0.ord.toNat ≠ 1 % 256 ∧ (x.exch.queue 0 4).length < 4 ∧
    4 ≤ ((moving { qs := [(4, [flit0, flit0, flit0, flit0])] }).exch.queue 0 4).length := by
  intros; and_intros <;> decide

/-- A slot of tile 5 to its neighbour 37 with room for one more flit and with none; a tile source beyond the shelves; an
add of inputs N and W onto the link E. -/
theorem witness_SendsAndAdds :
    let w2 : BitVec 64 := 0x0000010000000000 + 0x00000C0000000000
    let p : OutPort := { slots := 1, cur := some ⟨recOut, 0x100, 0⟩ }
    let x := moving { outs := [(1, p)], qs := [(1, [flit0])] }
    let tile : BitVec 64 := 0x00009C0000000000
    let three : InPort := { fifo := [flit0, flit0, flit0] }
    neighbour footRun 5 1 = some 37 ∧ (37 : TileId) ≠ 5 ∧ x.st = 4 ∧ (x.exch.out 1).cur = some ⟨recOut, 0x100, 0⟩ ∧ rOp recOut = 0 ∧
    p.stash = none ∧ rSrc w2 < 8 ∧ rSrc2 w2 < 8 ∧ rSrc2 w2 ≠ 4 ∧ x.bad = [] ∧
    three.fifo.length < linkCap 5 1 ∧ linkCap 5 1 ≤ (flit0 :: three.fifo).length ∧ rSrc recOut ≠ 4 ∧ x.exch.queue (rSrc recOut) 1 = [flit0] ∧
    rSrc tile = 4 ∧ rOp tile = 0 ∧ rG16 tile = false ∧ rSealed tile = false ∧ landsOn x 0 64 = false ∧
    (∀ i < 64, landsOn x (0 + i) 1 = false) ∧ rG16 (tile + 0x40 + 0x000000FFFF000000) = true ∧
    addrIn (tile + 0x40 + 0x000000FFFF000000) 0 = false ∧
    rOp w2 = 1 ∧ rSrc w2 = 0 ∧ rSrc2 w2 = 3 ∧ rG16 w2 = false ∧ rSealed w2 = false ∧ rSrc w2 ≠ rSrc2 w2 ∧
    (moving { qs := [(1, [flit0]), (25, [flit0])] }).exch.queue (rSrc w2) 1 = [flit0] ∧
    (moving { qs := [(1, [flit0]), (25, [flit0])] }).exch.queue (rSrc2 w2) 1 = [flit0] := by
  intros; and_intros <;> decide

/-- A landing at the last unit of a zone and one just past it. -/
theorem witness_FlitLandings :
    let w : BitVec 64 := 0x00001C0000000000 + 0x0000000001000000
    let p : OutPort := { slots := 1, cur := some ⟨w, 0x100, 0⟩ }
    let x (z : Nat) := moving { outs := [(4, p)], qs := [(4, [flit0])], zones := [(0, z)] }
    let a := 64 * (((rAddr w : Int) + 0 * rStride w) % 65536).toNat
    (x 1).st = 4 ∧ ((x 1).exch.out 4).cur = some ⟨w, 0x100, 0⟩ ∧ rOp w = 0 ∧ rG16 w = false ∧ rSealed w = false ∧ (x 1).bad = [] ∧
    (x 1).exch.queue (rSrc w) 4 = [flit0] ∧ a = 64 ∧
    (∃ z ∈ (x 1).exch.zones, 64 * z.1 ≤ a ∧ a + 64 ≤ 64 * (z.1 + z.2 + 1)) ∧
    ¬ ∃ z ∈ (x 0).exch.zones, 64 * z.1 ≤ a ∧ a + 64 ≤ 64 * (z.1 + z.2 + 1) := by
  intros; and_intros <;> decide

/-- Task 1 on block 0 with every tile of the module in the state `x`. -/
def block0 (x : Tile) : State := { State.reset with
  tiles := (List.range 2048).map (fun i => (i, x)), runs := [(1, footRun)], live := [(1, true)] }

theorem sget_same {α : Type} (d v : α) (k : Nat) (l : List Nat) (h : k ∈ l) : sget d k (l.map (fun i => (i, v))) = v := by
  induction l with
  | nil => cases h
  | cons a r ih =>
    simp only [List.map_cons, sget]
    split
    · rfl
    · rename_i n
      exact ih ((List.mem_cons.1 h).resolve_left (fun e => n e.symm))

theorem block0_tile (x : Tile) (t : TileId) : (block0 x).tile t = x :=
  sget_same _ x _ _ (List.mem_range.2 t.isLt)

theorem block0_tiles (x : Tile) : ((block0 x).run 1).tiles = footRun.tiles := rfl

theorem foot_tiles : footRun.tiles.Nodup ∧ (5 : TileId) ∈ footRun.tiles := by and_intros <;> decide

/-- A tile whose program is complete, and a footprint at each barrier, with a tile behind and without. -/
theorem witness_SuperstepBarriers :
    let x := moving {}
    let at' (v : BitVec 4) := block0 { x with st := v }
    x.st = 4 ∧ ((withTile x).armLink 5).fromRouter = [] ∧ (∀ c < 5, (x.exch.inp c).recs = 0 ∧ (x.exch.inp c).cur = none) ∧
    (∀ o < 6, (x.exch.out o).recs = 0 ∧ (x.exch.out o).cur = none) ∧ sget false 1 (at' 3).live = true ∧ ((at' 3).run 1).tiles.Nodup ∧
    (∀ t ∈ ((at' 3).run 1).tiles, ((at' 3).tile t).st = 3 ∧ ((at' 3).tile t).task = 1) ∧
    (∀ t ∈ ((at' 5).run 1).tiles, ((at' 5).tile t).st = 5 ∧ ((at' 5).tile t).task = 1 ∧ ((at' 5).tile t).sent = [] ∧
      ∀ c < 5, (((at' 5).tile t).exch.inp c).fifo = []) ∧
    (∃ t ∈ ((at' 5).run 1).tiles, ((at' 5).tile t).exch.last = false) ∧ (∃ t ∈ ((at' 4).run 1).tiles, ((at' 4).tile t).st ≠ 3) ∧
    (∀ c ∈ (at' 5).rebind.saving, c.1 ≠ 1) := by
  intro x at'
  refine ⟨rfl, rfl, by decide, by decide, rfl, foot_tiles.1, ?_, ?_, ⟨5, foot_tiles.2, ?_⟩, ⟨5, foot_tiles.2, ?_⟩, by decide⟩
  · intro t _; rw [block0_tile]; exact ⟨rfl, rfl⟩
  · intro t _; rw [block0_tile]; exact ⟨rfl, rfl, rfl, by decide⟩
  · rw [block0_tile]; rfl
  · rw [block0_tile]; decide

/-- An increment of the host, one of a SIG that nothing is before, one behind a pending send and one behind the tile's increment before
it; a WAIT that has been met and one that has not; a watchdog at its limit and a beat before it, and limit 0; messages to a closed ring, to a ring with room, to one that wraps behind a PAD,
and to a full one; a result of the oldest send; a NAK run of 2^20. -/
theorem witness_SyncAndMessageEvents :
    let src : SigSrc := ⟨5, 1, 0, 0⟩
    let p : PendSend := { seq := 0, dest := 6, ring := 0, outcome := some 1 }
    let h : SyncHold := { vid := 9, obj := 16384, isWait := true, since := 0 }
    let s : State := { withTile { idle5 with sends := [p], hold := some h } with
      incs := [{ obj := 16384, amt := 1 }, { obj := 16384, amt := 1, src := some src }]
      objs := [(16384, { waits := [⟨5, 3, true⟩] })]
      parts := [(0, { Part.first with wdog := 1 })], beatsW := 65536 }
    let m : Msg := ⟨5, 5, 6, 0, [7], 1⟩
    let r (hd tl : BitVec 13) : Ring := { isOpen := true, size64 := 1, base64 := 0x100, head := hd, tail := tl }
    s.incs[0]? = some { obj := 16384, amt := 1 } ∧ (s.obj 16384).bound = false ∧
    s.incs[1]? = some { obj := 16384, amt := 1, src := some src } ∧ (src.seq - p.seq).toNat < 2 ^ 31 ∧ p ∈ (s.tile 5).sends ∧
    (s.tile 5).hold = some h ∧ h.isWait = true ∧ (⟨5, 3, true⟩ : Waiter) ∈ (s.obj h.obj).waits ∧
    (s.tile 5).st = 2 ∧ h.released = false ∧ m.words.length ≤ 4 ∧
    (r 7 4).tail.toNat < (r 7 4).head.toNat ∧ m.words.length + 1 ≤ 7 - 4 - 1 ∧ 7 - 5 - 1 < m.words.length + 1 ∧
    (m.words.length + 1 = 8 - (r 1 6).tail.toNat ∧ (r 1 6).head.toNat ≠ 0) ∧
    (8 - (r 3 7).tail.toNat ≤ m.words.length + 1 ∧ m.words.length + 1 + 1 ≤ (r 3 7).head.toNat) ∧
    (8 - (r 2 7).tail.toNat ≤ m.words.length + 1 ∧ (r 2 7).head.toNat < m.words.length + 1 + 1) ∧
    (s.tile 5).sends[0]? = some p ∧ p.outcome = some 1 ∧ (∀ q ∈ (s.tile 5).sends.take 0, q.dest ≠ p.dest) ∧ s.blockPart (blockOf 5) = some 0 ∧ s.blockPart 99 ≠ some 0 ∧ (s.tile 5).nakCount < 2 ^ 20 ∧
    2 ^ 20 ≤ ({ idle5 with nakCount := 2 ^ 20 } : Tile).nakCount := by
  intros; and_intros <;> decide

/-- The watchdog at its limit in a WAIT and at the barriers, a limit of 0 still in force, and two increments of one tile, and two of the
host, to one node. -/
theorem witness_SyncAndMessageEvents_watchdog :
    let h : SyncHold := { vid := 9, obj := 16384, isWait := true, since := 0 }
    let s : State := { withTile { idle5 with hold := some h } with parts := [(0, { Part.first with wdog := 1 })], beatsW := 65536 }
    let two : State := { s5 with incs := List.replicate 2 { obj := 16384, amt := 1, src := some ⟨5, 0, 0, 0⟩ } }
    let host : List SyncInc := List.replicate 2 { obj := 16384, amt := 1, unit := .host }
    (∃ j ∈ host.take 1, j.src = none ∧ j.unit = .host ∧ nodeOf j.obj = nodeOf 16384) ∧ ¬ (∃ j ∈ host.take 0, j.src = none) ∧
    incAhead (two.incs.take 1) 5 16384 = true ∧ incAhead (two.incs.take 0) 5 16384 = false ∧ two.incs[1]? = two.incs[0]? ∧
    ((s.tile 5).wdogHeld.getD (s.part (s.run (s.tile 5).task).part).wdog).toNat % 2 ^ 24 * 65536 = 65536 ∧
    s.beats 5 = h.since + 65536 ∧ ({ s with beatsW := 65535 } : State).beats 5 < h.since + 65536 ∧
    ({ idle5 with wdogHeld := some 0 } : Tile).wdogHeld.getD 1 = 0 ∧ (∀ u ∈ (s.run 1).tiles, (s.tile u).st ≠ 6) := by
  intro h s two host
  refine ⟨by decide, by decide, by decide, by decide, by decide, by decide, by decide, by decide, by decide, fun u _ => ?_⟩
  rcases sget_cases ({} : Tile) u.toNat s.tiles with e | ⟨c, hc, _, e⟩ <;> rw [State.tile, e]
  · decide
  · rw [List.mem_singleton.1 hc]; decide

/-- The host with its link up. -/
def linked (s : State) : State := { s with cxl := { s.cxl with rate := 7, ready := true } }

/-- A selected ID with a mapping and one without; an entry for the first object of the partition's range, for one below it, and
with LAMP below the root; rings that fill Shelf N and go past it; and the states of BREAK. -/
theorem witness_HostToTiles :
    let s : State := linked { s5 with sels := [], xlate := [(0, 0x80004000)], objs := [] }
    let q := s.part 0
    let r : Ring := { isOpen := true, size64 := 1, base64 := 0x100, head := 0, tail := 7, starts := [0] }
    s.reaches .pf = true ∧ s.reaches .lmc = true ∧ s.reaches (.vf 0) = true ∧ s.start.recovery = false ∧ s.selObj .pf = some 16384 ∧
    (linked s5).selObj .pf = none ∧
    (q.syncBase.toNat ≤ 16384 ∧ 16384 < q.syncBase.toNat + q.syncCount.toNat) ∧ q.blocks.getLsbD (16383 / 512) = true ∧
    (28671 : Nat) < 28672 ∧ 64 * ((0x3C00 : BitVec 14).toNat + (1024 : BitVec 11).toNat) ≤ 0x100000 ∧
    ({ idle5 with st := 6, rings := [(0, r)] } : Tile).st = 6 ∧ r.passes 7 = true ∧ r.words ≤ 8 ∧
    ¬ 64 * ((0x3C01 : BitVec 14).toNat + (1024 : BitVec 11).toNat) ≤ 0x100000 ∧
    ((withTile { idle5 with st := 6 }).tile 5).st = 6 ∧ (5 : TileId) ∈ footRun.tiles ∧ ((withTile {}).tile 5).st = 0 ∧
    (idle5.st ≠ 0 ∧ idle5.st ≠ 6) := by
  intros; and_intros <;> decide

/-- A HELD tile with another of its footprint, and alone. -/
theorem witness_HostToTiles_held :
    let held (u : Tile) : State := { s5 with tiles := [(5, { idle5 with st := 6 }), (6, u)] }
    (∃ u ∈ footRun.tiles, u ≠ 5 ∧ ((held { idle5 with st := 6 }).tile u).st = 6) ∧
    (∀ u ∈ footRun.tiles, u ≠ 5 → ((held idle5).tile u).st ≠ 6) := by
  intro held
  refine ⟨⟨6, by decide +kernel, by decide, by decide⟩, fun u _ n => ?_⟩
  rcases sget_cases ({} : Tile) u.toNat (held idle5).tiles with e | ⟨c, hc, k, e⟩ <;> rw [State.tile, e]
  · decide
  · rcases List.mem_cons.1 hc with rfl | hc
    · exact absurd (BitVec.eq_of_toNat_eq k.symm) n
    · rw [List.mem_singleton.1 hc]; decide

/-- Each accessor; a pair in a partition that is enabled and one that is not; MODE without reserved codes, on a tile that a task holds
and on a free one; decoders that are programmed, committed, locked and below a committed one; the bits 5 and 6 of FLAG_EVENT. -/
theorem witness_Registers :
    let s := linked State.reset
    let c : Cxl := { hdm := [(0, { on := true }), (1, { on := true })] }
    s.reaches .pf = true ∧ s.reaches .lmc = true ∧ s.reaches (.vf 31) = true ∧ s.start.recovery = false ∧ (s.sb 0).enable = false ∧
    (({ s with parts := [(0, { Part.first with sb := { enable := true } })] } : State).sb 0).enable = true ∧
    bits 0x88000000 31 30 ≠ 3 ∧ bits 0x88000000 28 27 ≠ 3 ∧ s5.blockPart (blockOf 5) = some 0 ∧ (s5.tile 5).assigned = true ∧
    (s5.run (s5.tile 5).task).part = 0 ∧ (s5.tile 6).assigned = false ∧ (s5.tile 6).modeHeld = none ∧
    s.ioUp 0 = true ∧ State.reset.ioUp 1 = false ∧ (s.cxl.slot 0).on = false ∧ (c.slot 0).on = true ∧ (c.slot 0).prog.lock = false ∧ (0 < 1 ∧ (c.slot 1).on = true) ∧
    (({ hdm := [(1, { prog := { lock := true }, on := true })] } : Cxl).slot 1).prog.lock = true ∧ (8#26).toNat < 2 ^ 26 - 4 ∧
    (5#5).toNat < 6 ∧ 6 ≤ (6#5).toNat ∧ (992 : BitVec 10).toNat / 32 = (31 : BitVec 5).toNat := by
  intros; and_intros <;> decide

/-- An event 1 ms and 1 ns old, and one exactly 1 ms old, with power and without; corrected units in the window of a stack. -/
theorem witness_FaultRecords :
    let e : FaultEvt := ⟨1, 2, 5, 0, 0, 1, 0, 0, 0, 1⟩
    let s (t : BitVec 64) : State := { linked State.reset with events := [e], time := t }
    (s 1000001).events = [e] ∧ (s 1000001).start.lmcWait = false ∧ (s 0).responds = true ∧ (s 1000001).pins.power = true ∧
    (s 1000001).pins.snuffed = false ∧ ({ power := false } : Pins).power = false ∧ ({ snuffed := true } : Pins).snuffed = true ∧ e.tstamp + 1000000 < (s 1000001).time.toNat ∧
    (s 1000000).time.toNat ≤ e.tstamp + 1000000 ∧ State.reset.events = [] ∧ (s 0).reaches .pf = true ∧ (s 0).reaches (.vf 3) = true ∧
    (s 0).elSeq.toNat < (1 : BitVec 64).toNat ∧ (State.reset.stack 0).ceWindow = 0 ∧ ({ ceWindow := 1 } : Stack).ceWindow ≠ 0 ∧
    ({ ceWindow := 1 } : Stack).ceAt = none ∧ ({ ceWindow := 1, ceAt := some 0 } : Stack).ceAt = some 0 ∧
    (99999999 : Nat) < 0 + 100000000 ∧ 0 + 100000000 ≤ (100000000 : Nat) := by
  intros; and_intros <;> decide

/-- A window over the last page of its partition and one a page longer; an open entry and one that closes; a write that ends
with the window, onto a stack that is being re-keyed and one that is not; the module in Banked. -/
theorem witness_Windows :
    let last := 1152 * 2 ^ 30 - 4096
    let w (n : Nat) : Win := { state := 0, part := 0, host := true, base := BitVec.ofNat 64 last, len := BitVec.ofNat 32 n }
    let s (x : Win) : State := { State.reset with wins := [(3, x)], winPortId := [(0, 0x00030000)] }
    let on : State := s { w 1 with state := 1 }
    let rekeys : State := { on with hbm := [(11, { owner := some 0, rekeying := true })] }
    ((s (w 1)).win 3).state = 0 ∧ on.responds = true ∧ on.dim.banked = false ∧ ({ on.dim with banked := true } : Dimmer).banked = true ∧
    (on.stack 11).rekeying = false ∧ (rekeys.stack 11).rekeying = true ∧ (on.win 3).host = true ∧ (w 1).base.toNat + 4096 * (w 1).len.toNat ≤ (s (w 1)).psize 0 ∧
    (s (w 2)).psize 0 < (w 2).base.toNat + 4096 * (w 2).len.toNat ∧ ((s { w 1 with state := 1 }).win 3).state = 1 ∧
    ((s { w 1 with state := 2 }).win 3).drains = [] ∧ (s (w 1)).winUnits = [] ∧
    bits (sget 0 0 (s (w 1)).winPortId).toNat 27 16 = 3 ∧ (0xFC0#12).toNat % 64 + 64 ≤ 64 ∧
    4096 * (sget 0 0 (s (w 1)).winPortBase).toNat + 0xFC0 + 64 ≤ 4096 * (w 1).len.toNat ∧
    (w 1).gen = (sget 0 0 (s (w 1)).winPortId).truncate 16 ∧
    (∀ i, i < 64 → (s (w 1)).hbmMap 0 ((w 1).base.toNat + 0xFC0 + i) = some (11, 96 * 2 ^ 30 - 64 + i)) := by
  intros; and_intros <;> decide

/-- No port of a state detours when none of the first six does. -/
theorem detoured_never (s : State) (h : ∀ q < 6, s.detoured q = false) : ∀ q, s.detoured q = false := by
  intro q
  by_cases hq : q < 6
  · exact h q hq
  · simp [State.detoured, hq]

/-- A module that goes by no detour, whose host holds no line modified. -/
theorem witness_Windows_straight :
    (State.reset.port 1).took = none ∧ (∀ q, State.reset.detoured q = false) ∧ Undisturbed State.reset ∧ NoRekey State.reset :=
  ⟨rfl, detoured_never _ (by decide), by decide, by decide⟩

def withPorts (l : List (Nat × Port)) : State := { State.reset with ports := l }
def upPort : Port := { owner := some 0, link := 2 }
/-- A frame with the SEQ that a fresh port takes. -/
def fresh : Frame := { seq := 0, hops := 1, dest := 1, orig := 2 }
/-- A ring with a rank at position `q`. -/
def ranked (r q : BitVec 32) : BitVec 32 := 0x80000000 ||| (r <<< 15) ||| (q <<< 8)

theorem witness_LinkLayer :
    let s := withPorts [(1, upPort)]
    Takes s 1 fresh ∧ inOf 1 fresh = 1 ∧ (s.port (s.exitOf 1 fresh)).buffered < 512 ∧ (s.port 2).link ≠ 2 ∧ (1#16) ≠ (s.port 1).seqIn + 1 ∧
    (s.port 1).ctl = (s.port 1).ctlAct ∧ (s.port 1).ctl.getLsbD 30 = false ∧ (s.port 1).coastOff = false ∧ (s.port 1).resend = [] ∧
    (s.port 1).sent.length < 1024 ∧ 1024 ≤ (List.replicate 1024 fresh).length := by
  intros; and_intros <;> decide

/-- A transit buffer that is full; a skip port beside an X port that is spliced and one that is not. -/
theorem witness_LinkLayer_buffers :
    let s := withPorts [(0, { upPort with transit := List.replicate 512 fresh }), (1, { upPort with spliced := true }), (7, upPort)]
    512 ≤ (s.port (s.exitOf (inOf 1 fresh) fresh)).buffered ∧ (s.port (xOfSkip 7)).spliced = true ∧ (s.port (xOfSkip 6)).spliced = false := by
  intros; and_intros <;> decide

/-- Each case of `Picks`: a control frame; HOLD; on a coasted ring a transit and an own frame behind others; on one that is to
coast an own frame behind a collective one; nothing to send. -/
theorem witness_LinkLayer_picks :
    let sync : Frame := { fresh with type := 3 }
    let data : Frame := { fresh with type := 1 }
    Picks { upPort with ctlQ := [fresh], transit := [data] } true (some fresh) { upPort with transit := [data] } ∧
    Picks { upPort with transit := [data] } true none { upPort with transit := [data] } ∧
    ({ upPort with coasted := true, transit := [data, sync] } : Port).pick false =
      some (sync, { upPort with coasted := true, transit := [data] }) ∧
    ({ upPort with coastAsk := true, ownQ := [data, sync] } : Port).pick false =
      some (sync, { upPort with coastAsk := true, ownQ := [data] }) ∧
    upPort.pick false = none := by
  refine ⟨⟨?_, ?_, ?_⟩, ⟨?_, ?_, ?_⟩, rfl, rfl, rfl⟩ <;> simp [upPort]

/-- A lantern; rank 1; rank 0 with its marker out; a COAST frame not seen before; hop counts of 0 and 1; a marker of a pending ring. -/
theorem witness_RingFrames :
    let of (r : BitVec 32) : Port := { upPort with ring := ranked r 0, ringAct := ranked r 0 }
    let s (x : Port) := withPorts [(0, x), (1, upPort)]
    let z : Port := { of 0 with marker := some 0 }
    Takes (s upPort) 1 fresh ∧ inOf 1 fresh = 1 ∧ pairPort 1 = 0 ∧ fresh.detour = none ∧ upPort.buffered < 512 ∧
    ((s upPort).port 1).took = none ∧ upPort.link ≠ 4 ∧ ringRanked upPort.ringAct = false ∧
    ringRanked (of 1).ringAct = true ∧ ringRank (of 1).ringAct = 1 ∧ fresh.dest.toNat = 1 ∧
    fresh.dest ≠ 0x7F ∧ fresh.dest.toNat ≠ ringRank (of 0).ringAct ∧ ringRank (of 0).ringAct = 0 ∧
    z.marker = some (BitVec.ofNat 64 (frameWord fresh 1)) ∧ (s z).syncColls 0 0 = [] ∧ (s z).syncColls 1 0 = [] ∧ z.resumeAsk = false ∧
    z.spliceAsk = false ∧ ringGen z.ring = bits (frameWord fresh 0) 63 56 ∧ ringGen (z.ring ||| 0x400000) ≠ bits (frameWord fresh 0) 63 56 := by
  intros; and_intros <;> decide

theorem witness_RingFrames_coast :
    upPort.coastSeen = [] ∧ (frameWord fresh 0).testBit 63 = false ∧ (frameWord { fresh with payload := 2 ^ 63 } 0).testBit 63 = true ∧
    fresh.hops ≠ 0 ∧ ({ fresh with hops := 0 } : Frame).hops = 0 ∧ upPort.colls = [] := by
  and_intros <;> decide

/-- On the X ring of eight positions a detour at its position, one not yet there and one on its way back; on port 3 the way out and
the way back. -/
theorem witness_DetouredFrames :
    let s := withPorts [(0, upPort), (1, { upPort with ringAct := ranked 3 3 ||| 7 }), (3, upPort)]
    let f (back : Bool) (xpos : BitVec 7) : Frame := { fresh with detour := some ⟨2, back, xpos, 3⟩ }
    Takes s 1 (f false 3) ∧ Takes s 3 (f true 5) ∧ (s.port (s.exitOf (inOf 1 (f false 3)) (f false 3))).buffered < 512 ∧
    (s.port (s.exitOf (inOf 1 (f false 5)) (f false 5))).buffered < 512 ∧ (s.port (s.exitOf (inOf 3 (f true 5)) (f true 5))).buffered < 512 ∧ inOf 1 (f false 3) < 2 ∧ 2 ≤ inOf 3 (f true 5) ∧
    ringPos (s.port 1).ringAct = (3 : BitVec 7).toNat ∧ ringPos (s.port 1).ringAct ≠ (5 : BitVec 7).toNat ∧ fresh.hops ≠ 0 ∧
    hopsTo true (ringN (s.port 1).ringAct) 3 5 = 2 ∧ hopsTo false (ringN (s.port 1).ringAct) 3 5 = 6 := by
  intros; and_intros <;> decide

/-- A peer's write at its destination, of rank 1; an open window of its generation that a write ends, one that it passes, and one that
peers may not write; drain markers. -/
theorem witness_LossAndWindowFrames :
    let x : Port := { upPort with ring := ranked 1 0, ringAct := ranked 1 0 }
    let s := withPorts [(0, x), (1, upPort)]
    let f : Frame := { fresh with aux := BitVec.ofNat 128 (2 ^ 34) }
    let w : Win := { state := 1, peer := true, base := 0, len := 1 }
    Takes s 1 f ∧ inOf 1 f = 1 ∧ f.detour = none ∧ x.buffered < 512 ∧ ringRanked x.ringAct = true ∧ ringRank x.ringAct = f.dest.toNat ∧
    frameWord fresh 0 % 128 = ringPos x.ringAct ∧ frameWord { fresh with payload := 5 } 0 % 128 ≠ ringPos x.ringAct ∧
    auxDrain f = false ∧ auxDrain { fresh with aux := BitVec.ofNat 128 (2 ^ 35) } = true ∧ ringRank x.ringAct ≠ f.orig.toNat ∧
    ringRank x.ringAct = ({ f with orig := 1 } : Frame).orig.toNat ∧
    min 16 (auxLen f) = 16 ∧ auxOff f = 0 ∧ auxOff { fresh with aux := BitVec.ofNat 128 (3072 * 2 ^ 64) } + 64 * 16 = 4096 ∧
    w.gen = auxGen f ∧ auxOff f + 64 * 16 ≤ 4096 * w.len.toNat ∧
    4096 * w.len.toNat < auxOff { fresh with aux := BitVec.ofNat 128 (3136 * 2 ^ 64) } + 64 * 16 := by
  intros; and_intros <;> decide

/-- Sealed frames of one unit: its first, a third, and a fourth whose CRC is right and wrong; another sender's unit does not count. -/
theorem witness_LossAndWindowFrames_sealed :
    let mine (u : WinUnit) : Bool := u.win = 0 && u.port = 1 && u.orig = 2
    let u (n : Nat) : WinUnit := ⟨0, 0, 1, 2, List.replicate n 0⟩
    [u 1024].find? mine = some (u 1024) ∧ mine { u 1024 with orig := 3 } = false ∧ (u 1024).bytes.length = 1024 ∧
    (u 1024).bytes.length + 1024 ≠ 4096 ∧ (u 3072).bytes.length + 1024 = 4096 := by
  intros; and_intros <;> decide

/-- A scatter-reduce of two ranks on port 1 under CID 5, in FP32 with POLICY 0 and GRACE 1: chunks of one frame, trigger and done
mapped. -/
def coll0 : Coll := { w0 := 0x81000005, w1 := 0x00020001, w2 := 1, w3 := 0x00090009, state := 1 }
def withColl (d : Coll) (x : Port) : State := { withPorts [(0, x), (1, { x with colls := [(7, d)] })] with
  xlate := [(9, 0x80004000)], objs := [(16384, { value := 0 })] }
def rank0 : Port := { upPort with ring := ranked 0 0, ringAct := ranked 0 0, lanes := 16 }

/-- Descriptors that become live, that are refused, and a sync collective. -/
theorem witness_Collectives_descriptors :
    let s (d : Coll) := withColl d rank0
    let v0 : Coll := { coll0 with w0 := 0x01000005, state := 0 }
    let op4 : Coll := { coll0 with w0 := 0x40040005, w2 := 0, state := 0 }
    ((s coll0).coll 1 7).valid = true ∧ ((s v0).coll 1 7).valid = false ∧ BitVec.getLsbD (0x81000005#32) 31 = true ∧
    bits (0x81000005#32).toNat 30 28 ≠ 4 ∧ coll0.op < 3 ∧
    (s v0).collOk 1 7 { v0 with w0 := 0x81000005 &&& 0xFFFC0FFF, state := 0, fault := 0 } = true ∧
    (s v0).collOk 1 7 { v0 with w0 := 0x85000005 &&& 0xFFFC0FFF, state := 0, fault := 0 } = false ∧
    bits (0xC0040005#32).toNat 30 28 = 4 ∧
    (withColl op4 rank0).collOk 1 7 { op4 with w0 := 0xC0040005 &&& 0xFFFC0FFF, state := 0, fault := 0 } = false := by
  intros; and_intros <;> decide +kernel

/-- A sync collective over the X ring; RINGS are bits 20:18 of word 0. -/
theorem witness_Collectives_sync :
    let op4 : Coll := { coll0 with w0 := 0x40040005, w2 := 0, state := 0 }
    let lampy : State := { withColl op4 rank0 with xlate := [(9, 0xC0007000)] }
    lampy.collOk 1 7 { op4 with w0 := 0xC0040005 &&& 0xFFFC0FFF, state := 0, fault := 0 } = true := by
  intros; decide +kernel

/-- A step whose trigger has just come, one of a scalar collective at rank 1 and at rank 0, a BROKEN ring and DET_LOCK. -/
theorem witness_Collectives_starts :
    let d3 : Coll := { coll0 with w0 := 0xB0040005, w2 := 0 }
    let one : Port := { rank0 with ring := ranked 1 0, ringAct := ranked 1 0 }
    let s (d : Coll) (x : Port) : State := { withColl d x with reds := [(0, { total := some 3 })] }
    (s coll0 rank0).dim.banked = false ∧ ({ (s coll0 rank0).dim with banked := true } : Dimmer).banked = true ∧ (s coll0 rank0).responds = true ∧
    coll0.op < 3 ∧ (((s coll0 rank0).obj coll0.trigObj).value - coll0.w4).toNat < 2 ^ 31 ∧ rank0.coastAsk = false ∧ rank0.coasted = false ∧
    ringRanked rank0.ringAct = true ∧ rank0.broken = false ∧ ({ rank0 with broken := true } : Port).broken = true ∧
    (∀ o < 8, ((s coll0 rank0).port o).broken = false) ∧
    ¬ ((s coll0 rank0).part 0).modeAct.getLsbD 29 = true ∧ ({ Part.first with modeAct := 0x28000000 } : Part).modeAct.getLsbD 29 = true ∧
    ({ coll0 with w0 := 0x81400005 } : Coll).policy = 1 ∧ coll0.ready = [] ∧ coll0.parked = [] ∧
    d3.op = 3 ∧ d3.valid = true ∧ ((s d3 rank0).red d3.trigObj).total = some 3 ∧ d3.ringList = [0] ∧
    ringRank ((s d3 rank0).port (ringPort 1 0)).ringAct = 0 ∧ ringRank ((s d3 one).port (ringPort 1 0)).ringAct ≠ 0 ∧
    d3.syncPark = none ∧ ((s d3 rank0).port 1).took = none ∧ ((s d3 rank0).port (ringPort 1 0)).link ≠ 4 := by
  intros; and_intros <;> decide +kernel

/-- A step with every frame delivered, with routers idle, with a flit in one, and in a phase that expects more. -/
theorem witness_Collectives_ends :
    let d : Coll := { coll0 with state := 2, reduced := 2, kOut := 16 }
    let s := withColl d rank0
    let t := attachRouter 1 0
    let s1 : State := { s with arms := [(t.toNat, { fromRouter := [flit0] })] }
    let s2 : State := { s with tiles := [(t.toNat, { st := 4, exch := { ins := [(4, { slots := 1 })] } })] }
    d.op < 3 ∧ d.reduced = d.inFrames ∧ d.kOut = 16 * d.outFrames ∧ (∀ i < 6, s.expectsMore 1 7 (attachRouter 1 i) = false) ∧
    s.groupIdle 1 = true ∧ s1.groupIdle 1 = false ∧ (∀ i < 6, s1.expectsMore 1 7 (attachRouter 1 i) = false) ∧
    s2.expectsMore 1 7 (attachRouter 1 0) = true ∧
    ({ coll0 with w0 := 0xB0040005, state := 2, reduced := 1 } : Coll).value = none := by
  intros; and_intros <;> decide +kernel

/-- Flits of a step in progress and beyond it, from a router with none, one and one of a wrong ordinal; results for a tile in
EXCHANGE with room, with a full queue, and past its slots. -/
theorem witness_Collectives_streams :
    let d : Coll := { coll0 with state := 2, started := 1 }
    let t := attachRouter 1 0
    let s (l : List Flit) : State := { withColl d rank0 with arms := [(t.toNat, { fromRouter := l })] }
    let ex (n : Nat) (l : List Flit) : Tile := { st := 4, exch := { ins := [(4, { slots := n, fifo := l })] } }
    let full := List.replicate 8 flit0
    d.valid = true ∧ d.state ≠ 3 ∧ d.op < 3 ∧ d.started ≠ 0 ∧ ¬ d.streamLen * d.started ≤ d.kIn ∧
    ({ d with kIn := 32 } : Coll).streamLen * d.started ≤ 32 ∧ ((s []).armLink t).fromRouter = [] ∧ 5 % d.streamLen ≠ 0 ∧
    ((s []).tile t).st ≠ 4 ∧ ((s [flit0]).armLink t).fromRouter = [flit0] ∧ flit0.ord.toNat = ((s [flit0]).armLink t).kIn % 256 ∧
    ({ flit0 with ord := 1 } : Flit).ord.toNat ≠ ((s []).armLink t).kIn % 256 ∧ d.flits.length < 15 ∧
    ({ d with results := [flit0] } : Coll).results = [flit0] ∧ (ex 1 []).st = 4 ∧
    ((s []).armLink t).kOut < (sget ({} : InPort) 4 (ex 1 []).exch.ins).slots ∧ (sget ({} : InPort) 4 (ex 1 []).exch.ins).fifo.length < 8 ∧
    8 ≤ (sget ({} : InPort) 4 (ex 1 full).exch.ins).fifo.length ∧ (sget ({} : InPort) 4 (ex 0 []).exch.ins).slots ≤ 0 := by
  intros; and_intros <;> decide +kernel

/-- A Defer step that may pass over: before GRACE and at it, where a chunk starts and, among three ranks, at a partial. -/
theorem witness_Collectives_grace :
    let d : Coll := { coll0 with w0 := 0x81400005, state := 2 }
    let d3 : Coll := { d with w1 := 0x00030001, reduced := 1, parked := [(0, { fresh with type := 2 })] }
    let s (t : BitVec 64) : State := { withColl d rank0 with time := t }
    d.policy = 1 ∧ d.ready = [] ∧ ({ coll0 with state := 2 } : Coll).policy = 0 ∧ 2 ≤ d.nranks ∧ ringRank rank0.ringAct < d.nranks ∧
    d.reduced < d.inFrames ∧ d.reduced < d.chunk ∧ (s 2).framePeriods 1 d.dueAt < d.grace ∧ d.grace ≤ (s 3).framePeriods 1 d.dueAt ∧
    d.op ≠ 1 ∧ ({ d with w0 := 0x91400005 } : Coll).op = 1 ∧ d3.chunk ≤ d3.reduced ∧ d3.reduced < d3.inFrames ∧
    chunkOf 1 d3 (ringRank rank0.ringAct) d3.reduced ≠ ringRank rank0.ringAct ∧ fresh.sealed = false ∧ fresh.hole = false := by
  intros; and_intros <;> decide +kernel

/-- A partial for a descriptor of its CID and for none, alone and with the contribution it waits for; a scalar SYNC frame at rank 1
before its step, and without a descriptor. -/
theorem witness_Reductions :
    let d : Coll := { coll0 with w1 := 0x00030001, state := 2, reduced := 1 }
    let s := withColl d rank0
    let f : Frame := { fresh with cid := 5, dest := 0 }
    Takes s 0 f ∧ f.detour = none ∧ inOf 0 f = 0 ∧ (s.port (s.exitOf 0 f)).buffered < 512 ∧ ringRanked (s.port 1).ringAct = true ∧
    ringRank (s.port 1).ringAct = f.dest.toNat ∧ s.findColl 1 f.cid.toNat = some 7 ∧ s.findColl 1 6 = none ∧ syncForm f ≠ 1 ∧
    (s.coll 1 7).ready = [] ∧ (s.coll 1 7).parked = [] ∧ d.op = 0 ∧ d.chunk ≤ d.reduced ∧ d.reduced < d.inFrames ∧
    f.sealed = false ∧ chunkOf 1 d f.dest.toNat d.reduced ≠ f.dest.toNat := by
  intros; and_intros <;> decide +kernel

theorem witness_Reductions_scalar :
    let d3 : Coll := { coll0 with w0 := 0xB0040005, w2 := 0 }
    let s := withColl d3 { rank0 with ring := ranked 1 0, ringAct := ranked 1 0 }
    let f (cid : Nat) : Frame := { fresh with payload := payloadOf [2 ^ 62 + 2 ^ 60 + cid * 2 ^ 46] }
    Takes s 0 (f 5) ∧ (s.port (s.exitOf 0 (f 5))).buffered < 512 ∧ ringRanked (s.port 1).ringAct = true ∧ syncForm (f 5) = 1 ∧ syncPass (f 5) = 1 ∧ s.findDir 1 3 (syncCid (f 5)) = some (1, 7) ∧
    s.findDir 1 3 (syncCid (f 6)) = none ∧ ringRank (s.port 1).ringAct ≠ 0 ∧ (s.coll 1 7).state ≠ 2 := by
  intros; and_intros <;> decide +kernel

/-- A port that is up, one that is down and one that switches; 16, 4 and fewer working lanes; an X port with its skip port up, down
and one whose neighbour was warned; rank 0 eastbound without a marker and with one overdue. -/
theorem witness_PortControl :
    let s := linked (withPorts [(1, upPort), (7, upPort)])
    s.responds = true ∧ s.pins.power = true ∧ s.pins.snuffed = false ∧ s.pins.warn = false ∧
    ({ s with pins := { s.pins with warn := true } } : State).pins.warn = true ∧ ({ s with pins := { s.pins with snuffed := true } } : State).pins.snuffed = true ∧
    s.reaches .pf = true ∧ State.reset.reaches .pf = false ∧ s.inView .pf 0x81008 = true ∧ s.inView (.vf 0) 0x81008 = true ∧
    (s.port 1).link = 2 ∧ (s.port 0).link ≠ 2 ∧ (s.port 0).link ≠ 3 ∧ ({ upPort with link := 3 } : Port).link = 3 ∧
    (s.port 1).ctl &&& 0x1F = 16 ∧ min (bestLanes 0x000F) (s.laneCap 1) = 4 ∧ min (bestLanes 0x0007) (s.laneCap 1) < 4 ∧
    bestLanes 0 = 0 ∧ bestLanes 0xFFFF ≠ 0 ∧ (s.port 0).link = 0 ∧ (s.port 7).link = 2 ∧ (s.port 6).link ≠ 2 ∧ (s.port 6).link ≠ 3 ∧
    (s.port 1).spliced = false ∧ (s.port 1).spliceAsk = false ∧ s.wins = [] ∧ (s.port 1).broken = false ∧
    ({ upPort with coasted := true } : Port).coasted = true ∧ skipOf 1 = 7 ∧ skipOf 0 = 6 ∧
    ({ upPort with ctl := 0x80000010 } : Port).ctl.getLsbD 31 = true ∧ upPort.ctlAct.getLsbD 31 = false ∧ upPort.coastMine = false ∧
    ({ upPort with ctl := 0x40000010, coasted := true } : Port).ctl.getLsbD 30 = true ∧ s.start.lmcWait = false := by
  intros; and_intros <;> decide +kernel

theorem witness_PortControl_markers :
    let s := withPorts [(1, rank0)]
    let r : Port := { rank0 with marker := some 1, markAt := 0, rev := 10 }
    eastPort 1 = true ∧ eastPort 0 = false ∧ ringRanked rank0.ringAct = true ∧ ringRank rank0.ringAct = 0 ∧ rank0.marker = none ∧
    rank0.resumeAsk = false ∧ rank0.spliceAsk = false ∧ s.canSend 1 = true ∧ s.canSend 0 = false ∧ s.syncColls 1 0 = [] ∧
    s.syncColls 0 0 = [] ∧ (20 : Nat) ≤ r.markAt + 2 * r.rev.toNat ∧ r.markAt + 2 * r.rev.toNat < 21 := by
  intros; and_intros <;> decide +kernel

def copy0 : CopyDesc := { op := 0, sealed := false, sumsq := false, fmt := 0, aop := 0, esize := 0, scale := 0, stage := 0, hbm := 0
                          rows := 1, len := 64, hstride := 0, sstride := 0, idx := 0, data := 0, obj := 16384, addr := 32, pc := 0
                          num := 0, part := 0, task := 1 }

/-- A FETCH, a STORE, a narrow operation with its last answer still to come and with it, behind an arm and not, held by a re-key of its
stack and not. -/
theorem witness_CopyCompletion :
    let s (l : List CopyDesc) (st : Stack) : State := { withTile { idle5 with copies := l } with hbm := [(0, st)] }
    let st : Stack := { owner := some 0 }
    ((s [copy0] st).tile 5).copies[0]? = some copy0 ∧ ((s [copy0] st).tile 5).copies.length ≤ 1 ∧
    ¬ (∃ e ∈ ((s [copy0] st).tile 5).copies.take 0, e.op = 2 ∨ e.op = 3) ∧
    (∃ e ∈ [{ copy0 with op := 2 }, copy0].take 1, e.op = 2 ∨ e.op = 3) ∧
    copy0.op = 0 ∧ copy0.fmt ≠ 0xD ∧ copy0.rows = 1 ∧ (s [copy0] st).hbmMap 0 (0 + 64 * 0) = some (0, 0) ∧
    ({ copy0 with op := 4, len := 1 } : CopyDesc).answered < 1 ∧ ({ copy0 with op := 4, len := 1, answered := 1 } : CopyDesc).poisoned = [] ∧
    copyHeld copy0 (s [copy0] st) = false ∧ copyHeld copy0 (s [copy0] { st with rekeying := true }) = true ∧
    Undisturbed (s [copy0] st) := by
  intros; and_intros <;> decide +kernel

/-- Both arms; 15 and 16 of them; a flit in order and one that no arm takes; the attach router of stack 0; staging words that read
well and badly. -/
theorem witness_Arms :
    let a : Arm := { d := { copy0 with op := 2 } }
    let t : TileId := 64
    let at' (l : List CopyDesc) (k : ArmLink) : State := { State.reset with
      tiles := [(64, { idle5 with st := 4, copies := l, exch := { ins := [(4, { slots := 1 })] } })], arms := [(64, k)] }
    let s := at' [copy0] { ins := [a], outs := [a], fromRouter := [flit0] }
    a.d.rows * (a.d.len / 64) = 1 ∧ ({ a.d with rows := 0 } : CopyDesc).rows * (a.d.len / 64) = 0 ∧
    ¬ 16 ≤ (List.replicate 15 a).length ∧ 16 ≤ (List.replicate 16 a).length ∧
    (∀ d ∈ (s.tile t).copies, d.op ≠ 2 ∧ d.op ≠ 3) ∧ attachStack t = some 0 ∧ (s.armLink t).fromRouter = [flit0] ∧
    (s.armLink t).ins = [a] ∧ flit0.ord.toNat = (s.armLink t).kIn % 256 ∧ a.d.aop = 0 ∧ a.d.sealed = false ∧
    (s.tile t).working = true ∧ ((at' [] {}).armLink t).ins = [] ∧ (s.tile 5).working = false ∧
    (s.tile t).fTaken = false ∧ (s.tile t).st = 4 ∧ (s.armLink t).kOut < (sget ({} : InPort) 4 (s.tile t).exch.ins).slots ∧
    (sget ({} : InPort) 4 (s.tile t).exch.ins).fifo.length < 8 ∧ (s.stack 0).rekeying = false ∧
    ((s.stack 0).stgTouch 0 64).stgBad 0 64 = false ∧ (({ stgErr := [(0, 2)] } : Stack).stgTouch 0 64).stgBad 0 64 = true := by
  intros; and_intros <;> decide +kernel

def narrow (op : Nat) : CopyDesc :=
  { copy0 with op := op, len := 1, esize := 1, idx := 0x100, data := 0x200, aop := 1, fmt := if op = 6 then 0xD else 0, num := 7 }

/-- Element 0 of a GATHER, a SCATTER and both SCATTER_OPs, the last element but formed, one that is misaligned. -/
theorem witness_NarrowElements :
    let s (op : Nat) : State := withTile { idle5 with copies := [narrow op] }
    ((s 6).tile 5).copies[0]? = some (narrow 6) ∧ (narrow 6).formed < (narrow 6).len ∧
    (narrow 6).len ≤ ({ narrow 6 with formed := 1 } : CopyDesc).formed ∧ (∀ e ∈ ((s 6).tile 5).copies.take 0, e.op < 2) ∧
    ((s 6).tile 5).bad = [] ∧ landsOn ((s 6).tile 5) 0x100 4 = false ∧ landsOn ((s 6).tile 5) 0x200 16 = false ∧
    ((narrow 6).hbm + readLE ((s 6).tile 5).shelf 0x100 4 * 2 ^ (narrow 6).scale) % 32 = 0 ∧ 0 + 32 ≤ (s 6).psize 0 ∧
    (s 6).hbmMap 0 0 = some (0, 0) ∧ ({ narrow 6 with hbm := 8 } : CopyDesc).hbm % 16 ≠ 0 ∧ ((s 6).tile 5).task = (narrow 6).task ∧
    ((s 6).tile 5).task ≠ ({ narrow 6 with task := 2 } : CopyDesc).task ∧
    ((s 6).tile 5).working = true ∧ ((s 6).tile 5).fTaken = false ∧ ((s 6).tile 5).drained = true ∧
    ({ idle5 with fifo := [⟨0, 0, 0, false, 0, false, 0, {}⟩] } : Tile).drained = false := by
  intros; and_intros <;> decide +kernel

/-- A reply; a gather unit with one element, clean and poisoned; EA at the start of its range, where a line is accumulated. -/
theorem witness_NarrowElements_replies :
    let q (op fmt es : Nat) : NarrowReq := ⟨5, 7, op, fmt, 1, es, 0, 0, 0x200, List.replicate es 0⟩
    let r : NarrowReply := ⟨5, 7, 0x200, [1, 2], false⟩
    let s (l : List NarrowReq) (o : List NarrowReply) (p : Sparse Bool) : State :=
      { withTile { idle5 with copies := [narrow 4] } with hbm := [(0, { narrowQ := l, narrowOut := o, poison := p })] }
    replyFrom 5 7 (s [] [r] []) = some (0, r) ∧ replyFrom 5 7 (s [q 4 0 16] [] []) = none ∧
    (∀ k < 12, ∀ x ∈ ((s [] [] []).stack k).narrowQ, x.tile ≠ 5 ∨ x.num ≠ 7) ∧
    ((s [q 4 0 16] [] []).stack 0).narrowQ = [q 4 0 16] ∧ ((s [q 4 0 16] [] []).stack 0).rekeying = false ∧
    NoneModified (s [q 4 0 16] [] []) ∧ (∀ j < 12, j ≠ 0 → ((s [q 4 0 16] [] []).stack j).narrowQ = []) ∧
    (∀ j < 12, ((s [q 4 0 16] [] []).stack j).narrowOut = []) ∧ 0 % 64 + 32 ≤ 64 ∧
    (q 6 0 8).opnd.length = 8 ∧ sget false 0 ((s [q 6 0 8] [] [(0, true)]).stack 0).poison = true ∧
    sget false 0 ((s [q 6 0 8] [] []).stack 0).poison = false ∧ sget 0 0 ((s [q 6 0 8] [] []).stack 0).bad ≠ 2 := by
  intros; and_intros <;> decide +kernel

theorem witness_NarrowElements_lines :
    accumLine 0 (List.replicate 32 0) (List.replicate 16 0) ≠ none ∧
    accumLine 0 (List.replicate 32 0xFF) (List.replicate 16 0x7F) = none := by
  and_intros <;> decide +kernel

/-- Items of a tile in the epochs of either partner, whose answer agrees and does not. -/
theorem witness_Sentinel :
    let it : SentItem := ⟨0, 0x40, [], false, 0, 0, 0, 0, none, 0, []⟩
    let s (l : List SentItem) : State := { withTile { idle5 with sent := l, sstep := 16 } with runs := [(1, { footRun with sentD := 16 })] }
    ((s [it]).tile 5).sent = [it] ∧ it.recompute {} = [] ∧ it.result = [] ∧ ({ it with result := [4] } : SentItem).result ≠ [] ∧
    ({ it with isRow := true } : SentItem).isRow = true ∧ ((s [it]).runOf 5).sentD = 16 ∧ 16 / 16 % 2 = 1 ∧ 15 / 16 % 2 = 0 ∧
    ((s [it]).tile 5).working = true ∧ ((s [it]).tile 5).fTaken = false := by
  intros; and_intros <;> decide +kernel

/-! ### HBM, the host and the engines -/

def withStack (x : Stack) : State := { State.reset with hbm := [(0, x)] }

/-- A stack in and out of its refresh window, at the window's last nanosecond and the one after; a staging window that ends
with the SRAM and one past it; a commit of one window of 96 GiB, of one of 97, and while a task runs. -/
theorem witness_HbmSettingsAndRekeys :
    let x : Stack := { owner := some 0, keyValid := true, ctl := 0x40000400, ctlAct := 0x40000400 }
    let at' (n : BitVec 64) : State := { withStack x with time := n }
    let pos (s : State) := (s.time.toNat + 4000 - (1000 * bits x.ctlAct.toNat 7 0) % 4000) % 4000
    let w (n : Nat) : State := { withStack x with parts := [(0, { Part.first with iwin := [(0, BitVec.ofNat 32 (2 ^ 31 + n * 2 ^ 24 + 1))] })] }
    1000 * bits x.ctlAct.toNat 15 8 = 4000 ∧ bits x.ctlAct.toNat 31 30 = 1 ∧ x.window = false ∧ ({ x with window := true } : Stack).window = true ∧
    pos (at' 159) < 40 * bits x.ctlAct.toNat 15 8 ∧ 40 * bits x.ctlAct.toNat 15 8 ≤ pos (at' 160) ∧
    (0x00800180#32).toNat / 65536 + (0x00800180#32).toNat % 65536 = 512 ∧ 512 < (0x00810180#32).toNat / 65536 + (0x00810180#32).toNat % 65536 ∧
    (at' 0).runsOf 0 = [] ∧ s5.runsOf 0 ≠ [] ∧ (s5.stack 0).owner = some 0 ∧ (at' 0).copying 0 = false ∧
    stackGib ((List.range 8).map (fun i => sget 0 i ((w 96).part 0).iwin)) 0 ≤ 96 ∧
    96 < stackGib ((List.range 8).map (fun i => sget 0 i ((w 97).part 0).iwin)) 0 ∧ ((w 96).stack 0).owner = some 0 ∧
    (at' 0).responds = true ∧ s5.responds = true := by
  intros; and_intros <;> decide

/-- A decoder of 1 GiB over stack 0: its first line, the line past it, an unowned stack, a poisoned unit, a stack that is being re-keyed. -/
theorem witness_HostAccesses :
    let d : Hdm := { base := 0, size := 0x40000000 }
    let base := linked (withStack { owner := some 0, keyValid := true, poison := [(1, true)] })
    let s : State := { base with cxl := { base.cxl with hdm := [(0, { prog := d, on := true })] } }
    s.cxl.ready = true ∧ s.cxl.cmFailed = false ∧ s.dim.banked = false ∧ (s.stack 0).narrowQ = [] ∧ s.hdmUnit 0 = some (0, 0) ∧ s.hdmUnit 0x40000000 = none ∧
    (s.stack 0).rekeying = false ∧ ({ s.stack 0 with rekeying := true } : Stack).rekeying = true ∧
    (s.stack 0).owner ≠ none ∧ sget 0 0 (s.stack 0).bad = 0 ∧ (s.stack 0).snooped.length < 32768 ∧
    sget false 1 (s.stack 0).poison = true ∧ sget false 0 (s.stack 0).poison = false ∧ ({} : Stack).owner = none := by
  intros; and_intros <;> decide

/-- A stream at its last flit and past it; the ATTACH input with 7 and 8 flits; a function that translates, before and after its
page is known, and one whose link's stream failed. -/
theorem witness_HostStreams :
    let q : HostStream := ⟨0, 0, 64, 64, 0, 0⟩
    let i : InPort := { slots := 1, fifo := List.replicate 7 flit0 }
    let t : State := linked { State.reset with
      tiles := [(14, { idle5 with st := 4, exch := { ins := [(4, i)] } })], runs := [(1, { footRun with streams := [(14, q)] })]
      arms := [(14, { fromRouter := [flit0] })] }
    t.cxl.ready = true ∧ (t.runOf 14).streams.find? (fun c => c.1 = (14 : TileId).toNat) = some ((14 : TileId).toNat, q) ∧
    (t.tile 14).st = 4 ∧ (t.armLink 14).kOut < (sget ({} : InPort) 4 (t.tile 14).exch.ins).slots ∧
    (sget ({} : InPort) 4 (t.tile 14).exch.ins).fifo.length < 8 ∧ 64 * q.kIn < q.inLen ∧ q.inLen ≤ 64 * ({ q with kIn := 1 } : HostStream).kIn ∧
    (t.armLink 14).fromRouter = [flit0] ∧ flit0.ord.toNat = (t.armLink 14).kIn % 256 ∧ (t.tile 14).fTaken = false ∧ (t.tile 14).working = true ∧
    t.hostBlocked 1 0 = false ∧ sget false 1 t.cxl.ats = false ∧ 64 * q.kOut < q.outLen ∧
    ({ t with cxl := { t.cxl with ats := [(1, true)], cmFailed := true } } : State).hostBlocked 1 0 = true ∧
    ({ t.cxl with ats := [(1, true)], atc := [(1, 0, 5)] } : Cxl).cachedPage 1 0 = some 5 := by
  intros; and_intros <;> decide

/-- A job without streams: ENTRY 0, one element, WAIT and SIG enabled on virtual ID 9, target 1. -/
def job0 : Job := #v[0, 0xC0009009, 1, 0, 1, 0, 0, 0, 0, 0, 0, 0, 0, 0, 0, 0, 0, 0, 0, 0, 0, 0, 0, 0, 0, 0, 0, 0, 0, 0, 0, 0, 0, 0, 0, 0, 0, 0, 0, 0,
  0, 0, 0, 0, 0, 0, 0, 0]
def prog0 : Sparse (BitVec 32) := [(0, 0x04000000), (1, 0x08000000)]
def withEngine (e : Engine) : State := { withStack { owner := some 0, keyValid := true, eng := e } with
  xlate := [(9, 0x80004000)], objs := [(16384, { value := 1 })] }

/-- A job that passes its checks and whose target has just been reached, one a step behind; one without a program; one that names
an unmapped ID; queues of 63 and 64 jobs. -/
theorem witness_EngineJobs :
    let s := withEngine { queue := [job0], prog := prog0 }
    let behind : State := { s with objs := [] }
    (s.engine 0).queue = [job0] ∧ (s.engine 0).halted = false ∧ (s.engine 0).phase = 0 ∧ s.responds = true ∧ s.dim.banked = false ∧
    ({ s with dim := { s.dim with banked := true } } : State).dim.banked = true ∧ s.start.lmcWait = false ∧ jobFault s 0 job0 = none ∧
    jobWaitEn job0 = true ∧ jobSigEn job0 = true ∧ ((s.obj 16384).value - jobTarget job0).toNat < 2 ^ 31 ∧
    2 ^ 31 ≤ ((behind.obj 16384).value - jobTarget job0).toNat ∧ s.translate 0 (jobWaitVid job0) = some 16384 ∧
    progOf { queue := [job0] } (jobEntry job0) = none ∧ hasRed { queue := [job0] } (jobEntry job0) = false ∧
    ({ s with xlate := [] } : State).translate 0 (jobSigVid job0) = none ∧ jobFault (withEngine { queue := [job0] }) 0 job0 = some 1 ∧
    (List.replicate 63 job0).length < 64 ∧ 64 ≤ (List.replicate 64 job0).length ∧ ({ phase := 4 } : Engine).phase = 4 := by
  intros; and_intros <;> decide

/-- A job in its body whose next word is END, a lane word, and one that waits for a total. -/
theorem witness_EngineWords :
    let e : Engine := { queue := [job0], prog := [(0, 0x18000000)], phase := 3 }
    ((withEngine e).engine 0).queue = [job0] ∧ e.phase = 3 ∧ e.reducing = none ∧ uOp (sget 0 e.ip e.prog) = 6 ∧
    uOp (sget 0 1 prog0) = 2 ∧ uOp (sget 0 0 prog0) = 1 ∧ ({ e with reducing := some 0 } : Engine).reducing ≠ none ∧ min 64 (jobNelem job0) = 1 := by
  intros; and_intros <;> decide

/-- A load and a store of one FP32 element of stream 0 on the stack; an END in the body; a RED of X0 by the partition's only
stack, and its result. -/
theorem witness_EngineMemoryAndReductions :
    let j : Job := (job0.set 0 0x00100000).set 27 0x18000000
    let e : Engine := { queue := [j], phase := 3, prog := [(0, 0x0C000000), (1, 0x10000000), (2, 0x08000000), (3, 0x50000000)] }
    let s : State := withEngine e
    let red : State := withEngine { e with reducing := some 0x50000000, total := some 0 }
    (s.engine 0).queue = [j] ∧ e.phase = 3 ∧ e.reducing = none ∧ strFmt j 0 = 1 ∧ strOut j 0 = true ∧ s.hbmMap 0 (strAddr j 0) = some (0, 0) ∧
    (s.stack 0).rekeying = false ∧ Undisturbed s ∧
    uOp (sget 0 0 e.prog) = 3 ∧ uOp (sget 0 1 e.prog) = 4 ∧ uOp (sget 0 2 e.prog) = 2 ∧ uOp (sget 0 3 e.prog) = 0x14 ∧
    (∀ i, i < 4 → overlapped j (strAddr j 0 + i) = false) ∧ (s.stack 0).bad = [] ∧ (s.stack 0).poison = [] ∧
    (∀ u ∈ partialUnits e.writes, sget false u (s.stack 0).poison = false) ∧ (s.stack 0).owner = some 0 ∧
    (∀ i, i < 12 → (s.stack i).owner = some 0 → i = 0) ∧ (red.engine 0).reducing = some 0x50000000 ∧ (red.engine 0).total = some 0 := by
  intros; and_intros <;> decide

/-! ### The Sideboard -/

def sb0 : Sideboard := { enable := true, subqSize := 4, cplqSize := 6, subqTail := 1 }
/-- Partition 0 with its queues enabled, the link up, and virtual ID 9 mapped. -/
def served (b : Sideboard) : State := linked { State.reset with
  parts := [(0, { Part.first with sb := b })], xlate := [(9, 0x80004000)] }

/-- The smallest and the largest legal queues, and those beside them; indices at the ends; a full completion queue; a range that
ends with the objects, and one that would meet another partition's. -/
theorem witness_SideboardQueues :
    let legal (q c : BitVec 5) : Prop := 4 ≤ q.toNat ∧ q.toNat ≤ 16 ∧ 6 ≤ c.toNat ∧ c.toNat ≤ 20
    let s := served { sb0 with held := [0] }
    let other : State := { s with parts := [(0, Part.first), (1, { syncBase := 0x5000, syncCount := 1 })] }
    legal 4 6 ∧ legal 16 20 ∧ ¬ legal 3 6 ∧ ¬ legal 17 20 ∧ ¬ legal 4 5 ∧ ¬ legal 4 21 ∧ (15#20).toNat < 2 ^ sb0.subqSize.toNat ∧
    2 ^ sb0.subqSize.toNat ≤ (16#20).toNat ∧ (s.part 0).sb.held = [0] ∧ s.cxl.ready = true ∧ s.responds = true ∧ s.ioLost 1 = false ∧
    BitVec.ofNat 20 ((sb0.cplqTail.toNat + 1) % 2 ^ sb0.cplqSize.toNat) ≠ sb0.cplqHead ∧
    BitVec.ofNat 20 ((63 + 1) % 2 ^ sb0.cplqSize.toNat) = sb0.cplqHead ∧ sget false (0 + 1) s.cxl.ats = false ∧ s.runsOf 0 = [] ∧
    s.cxl.cmFailed = false ∧ ({ s.cxl with ats := [(1, true)], atc := [(1, 0, 7)] } : Cxl).cachedPage 1 0 = some 7 ∧
    bits (0x40004000#32).toNat 30 16 + bits (0x40004000#32).toNat 15 0 = 32768 ∧
    ((0x5000 : Nat) < (other.part 1).syncBase.toNat + (other.part 1).syncCount.toNat ∧ (other.part 1).syncBase.toNat < 0x5000 + 1) ∧
    (0x40000#32).toNat % 2 ^ 19 ≤ 262144 ∧ 262144 < (0x40001#32).toNat % 2 ^ 19 := by
  intros; and_intros <;> decide

/-- A graph of one empty task that signals virtual ID 9, as does its task. -/
def desc0 : BitVec 512 := BitVec.ofNat 512 ((2 ^ 47 + 9 * 2 ^ 32) * 2 ^ 192)
def task0 : BitVec 512 := BitVec.ofNat 512 (9 * 2 ^ 10)

/-- Admitted, refused as too large, refused for a reserved bit, and left to wait for records; a Sideboard that serves nothing, and one
whose module is Banked. -/
theorem witness_GraphAdmission :
    let s := served sb0
    let few : State := served { sb0 with enable := false }
    bits desc0.toNat 255 239 = 1 ∧ bits desc0.toNat 223 192 = 0 ∧ bits desc0.toNat 235 224 = 9 ∧ sb0.enable = true ∧ s.cxl.ready = true ∧
    Undisturbed s ∧ s.ioLost 1 = false ∧ s.nblHeld 0 0 = false ∧ s.start.lmcWait = false ∧
    ({ s with dim := { s.dim with banked := true } } : State).dim.banked = true ∧ s.pins.warn = false ∧ s.pins.warnOff ≤ s.time.toNat ∧ s.start.phase = 0xFF ∧ s.start.exhausted = false ∧ s.dim.banked = false ∧
    sb0.subqHead ≠ sb0.subqTail ∧ (s.graphs.filter (fun g => g.part = 0)).length < 16 ∧ sget false 1 s.cxl.ats = false ∧
    s.recUsed 0 + 1 ≤ (s.part 0).recMax.toNat ∧ s.recAll + 1 ≤ 262144 ∧ bits desc0.toNat 238 236 = 0 ∧ bits desc0.toNat 511 256 = 0 ∧
    s.translate 0 9 = some 16384 ∧ bits task0.toNat 21 10 = 9 ∧ predsOf [] task0 = [] ∧ bits task0.toNat 63 32 = 0 ∧
    bits (desc0 + BitVec.ofNat 512 (2 ^ 256)).toNat 511 256 ≠ 0 ∧ (few.part 0).sb.enable = false ∧
    (({ few with parts := [(0, { Part.first with recMax := 0 })] } : State).part 0).recMax.toNat < 1 := by
  intros; and_intros <;> decide

/-! ### A prepared NBL -/

/-- A file with one section of one record. -/
def mkNbl (family w h syms ty flags : Nat) (rec1 : List Byte) : List Byte :=
  let head := leBytes 4 0x4C424E4B ++ leBytes 2 0x0100 ++ leBytes 2 family ++ leBytes 1 w ++ leBytes 1 h ++ leBytes 2 1 ++ leBytes 4 0 ++
    leBytes 4 1 ++ leBytes 4 64 ++ leBytes 4 0 ++ leBytes 4 0 ++ leBytes 4 syms
  let sect := leBytes 2 ty ++ leBytes 2 flags ++ leBytes 4 1 ++ leBytes 4 80 ++ leBytes 4 rec1.length
  head ++ leBytes 4 (crc32c (head ++ sect)).toNat ++ leBytes 24 0 ++ sect ++ rec1

/-- One SYNC record: symbol 0, footprint scope, CHECK. -/
def nbl0 : List Byte := mkNbl 0x0041 1 1 1 6 0 (leBytes 8 (2 ^ 47))

/-- CRC-32C of "123456789" is 0xE306_9283 (R507's code). -/
theorem test_crc32c : crc32c [0x31, 0x32, 0x33, 0x34, 0x35, 0x36, 0x37, 0x38, 0x39] = 0xE3069283 := by decide +kernel

/-- A file for each step of R314 that refuses, in its order, and one that every step accepts (Table 10-7). -/
theorem witness_NblLoading :
    let s : State := { State.reset with xlate := [(9, 0x80004000)] }
    nblStatus s 0 [] [] [] = 0x11 ∧
    nblStatus s 0 (mkNbl 0x0050 1 1 1 6 0 (leBytes 8 (2 ^ 47))) [] [9] = 0x10 ∧
    nblStatus s 0 (mkNbl 0x0041 1 1 1 6 1 (leBytes 8 (2 ^ 47))) [] [9] = 0x12 ∧
    nblStatus s 0 (mkNbl 0x0041 9 1 1 6 0 (leBytes 8 (2 ^ 47))) [] [9] = 0x13 ∧
    nblStatus s 0 (mkNbl 0x0041 1 1 0 4 0 (leBytes 16 (2 ^ 63))) [] [] = 0x20 ∧
    nblStatus s 0 (mkNbl 0x0041 1 1 0 5 0 (leBytes 8 (2 ^ 48))) [] [] = 0x16 ∧
    nblStatus s 0 (mkNbl 0x0041 1 1 0 5 0 (leBytes 8 (2 ^ 48 + 2 ^ 37 + 1))) [] [] = 0 ∧
    nblStatus s 0 (mkNbl 0x0041 1 1 0 6 0 (leBytes 8 (2 ^ 47))) [] [] = 0x17 ∧
    nblStatus s 0 (mkNbl 0x0041 1 1 0 7 0 (leBytes 16 0)) [] [] = 0x15 ∧
    nblStatus s 0 nbl0 [] [10] = 0x17 ∧
    nblStatus s 0 (mkNbl 0x0041 1 1 0 3 0 (leBytes 8 (2 ^ 58 + 2 ^ 53 + 2 ^ 51))) [] [] = 0x14 ∧
    nblStatus s 0 nbl0 [] [9] = 0 ∧ Undisturbed s ∧ admitMask s 0 nbl0 ≠ 0 ∧ s.heldRange 0 0 64 = false ∧
    s.heldRange 0 0x100 ((imageBytes nbl0 [] [9]).length + (lateBytes nbl0).length) = false ∧
    ({ s with hbm := [(0, { owner := some 0, rekeying := true })] } : State).heldRange 0 0 64 = true ∧
    s.inPart 0 0x100 ((imageBytes nbl0 [] [9]).length + (lateBytes nbl0).length) = true ∧ s.inPart 0 0 64 = true ∧
    (∀ o, o < (imageBytes nbl0 [] [9]).length + (lateBytes nbl0).length → s.hbmMap 0 (0x100 + o) = some (0, 0x100 + o)) ∧
    (∀ o, o < 64 → s.hbmMap 0 o = some (0, o)) := by
  intros; and_intros <;> decide +kernel

/-! ### Tasks whose NBL is prepared -/

def img0 : List Byte := imageBytes nbl0 [] [9]
def ent0 : List Byte := entryBytes 0x100 img0.length 0xFFFFFFFF 0 0 0 (nblHdrCrc nbl0)
/-- The NBL of handle 1 in stack 0, which is the whole of partition 0's memory, below a context area. -/
def cells0 : Memory := at' 0 ent0 ++ at' 0x100 img0
def map0 : Part := { Part.first with sb := sb0, iwin := [(0, 0xE0000001)], iwinAct := [(0, 0xE0000001)], ctxAddr := 1, ctxSize := 0x10000 }
def prepared (cells : Memory) : State := { State.reset with
  parts := [(0, map0)], xlate := [(9, 0x80004000)], hbm := [(0, { owner := some 0, keyValid := true, cells := cells })] }

/-- A task of one block under handle 1 that signals virtual ID 9, with further bits `m` of word 0. -/
def taskWord (m : Nat) : BitVec 512 := BitVec.ofNat 512 (2 ^ 32 + 2 ^ 28 + 2 ^ 25 + m + 9 * 2 ^ 10)
def graphOf (l : List TaskRec) : Graph := { num := 0, part := 0, desc := desc0, tasks := l }
def run1 : Run := { nbl := 1 }
def ent1 : NblEntry := ⟨0x100, img0.length, 0xFFFFFFFF, 0, 0, 0, nblHdrCrc nbl0⟩

/-- The one task of a graph waits, or has been placed, on the memory `cells`. -/
def waiting (cells : Memory) (t : TaskRec) : State := { prepared cells with graphs := [graphOf [t]] }
def placedOn (cells : Memory) (t : TaskRec) : State := { waiting cells t with runs := [(1, run1)], live := [(1, true)] }

theorem ent1_found (t : TaskRec) : (placedOn cells0 t).nblEntry 0 1 = some ent1 := by
  have h : (placedOn cells0 { word := 0, preds := [] }).nblEntry 0 1 = some ent1 := by decide +kernel
  exact h

/-- A ready task finds block 0, another finds no position, a warning and a re-key hold placement, and an empty task ends. -/
theorem witness_Placement :
    let t : TaskRec := { word := taskWord 0, preds := [] }
    let s := waiting cells0 t
    let u : TaskRec := { t with word := taskWord (1999 * 2 ^ 32) }
    let none' := waiting cells0 u
    let warned : State := { s with pins := { s.pins with warn := true } }
    let rekeyed : State := { s with hbm := s.hbm.map (fun c => (c.1, { c.2 with rekeying := true })) }
    let e : TaskRec := { word := task0, preds := [] }
    (graphOf [t]).ready t = true ∧ bits t.word.toNat 63 32 = 1 ∧ Undisturbed s ∧ s.lantern = false ∧ s.pins.warn = false ∧ warned.pins.warn = true ∧
    s.pins.warnOff ≤ s.time.toNat ∧ s.start.phase = 0xFF ∧ (s.part 0).sb.held = [] ∧ s.runs = [] ∧ t.w = 1 ∧ t.h = 1 ∧ t.stage = 0 ∧
    s.admissible 0 t 0 = true ∧ s.rebinding 0 = false ∧ s.nblHeld 0 1 = false ∧ rekeyed.nblHeld 0 1 = true ∧
    s.dim.banked = false ∧ s.dim.pilot = 0 ∧ s.start.lmcWait = false ∧ (∀ b < 32, none'.admissible 0 u b = false) ∧ t.skips < 64 ∧
    bits e.word.toNat 63 32 = 0 ∧ (waiting [] e).graphs = [graphOf [e]] ∧
    BitVec.ofNat 20 (((map0.sb).cplqTail.toNat + 1) % 2 ^ map0.sb.cplqSize.toNat) ≠ map0.sb.cplqHead ∧
    BitVec.ofNat 20 ((63 + 1) % 2 ^ map0.sb.cplqSize.toNat) = map0.sb.cplqHead := by
  intros; and_intros <;> decide +kernel

/-- Partition 0's only task, with handle 1's record, in block 0, whose tiles are all `x`, under the run `r`. -/
def ending (r : Run) (t : TaskRec) (x : Tile) : State := { placedOn [] t with
  tiles := (List.range 2048).map (fun i => (i, x)), runs := [(1, r)] }
def overTile : Tile := { st := 5, task := 1, exch := { last := true } }
def haltTile : Tile := { st := 7, task := 1 }

theorem ending_tile (r : Run) (t : TaskRec) (x : Tile) (u : TileId) : (ending r t x).tile u = x :=
  sget_same _ x _ _ (List.mem_range.2 u.isLt)

theorem ending_over (r : Run) (t : TaskRec) (n : (r.fault.isNone || r.halted) = true) : (ending r t overTile).taskOver 1 = true := by
  have h : allTiles r (ending r t overTile) (fun x => x.task = 1 && x.st = 5 && x.exch.last && x.sent = [] &&
      (List.range 5).all (fun c => (x.exch.inp c).fifo = [])) = true := by
    simp only [allTiles, ending_tile, List.all_eq_true]
    intro _ _
    decide
  have l : sget false 1 (ending r t overTile).live = true := rfl
  have q : (ending r t overTile).run 1 = r := rfl
  simp only [State.taskOver, l, q, h, n, Bool.or_true, Bool.and_true]

theorem ending_halted (r : Run) (t : TaskRec) (n : (r.fault.isNone || r.halted) = true) : (ending r t haltTile).taskOver 1 = true := by
  have h : allTiles r (ending r t haltTile) (fun x => x.task = 1 && x.st = 7) = true := by
    simp only [allTiles, ending_tile, List.all_eq_true]
    intro _ _
    decide
  have l : sget false 1 (ending r t haltTile).live = true := rfl
  have q : (ending r t haltTile).run 1 = r := rfl
  simp only [State.taskOver, l, q, h, n, Bool.or_true, Bool.true_or, Bool.and_true]

/-- A task that is over cleanly, with a fault that is final and with one that is run again, on a lost link with and without
reruns left, revoked, and with a residue; one that is not over; full records. -/
theorem witness_TaskEnds :
    let t : TaskRec := { word := taskWord 0, preds := [], st := 2, attempts := 1 }
    let again : TaskRec := { t with word := taskWord (2 ^ 23) }
    let y : SyncRec := { vid := 9, check := true, net := 0, obj := 16384 }
    let clean := ending { run1 with syncs := [y] } t overTile
    let fail (c : Nat) (u : TaskRec) := ending { run1 with fault := some (BitVec.ofNat 8 c, 3), halted := true } u haltTile
    let stopped (n : Nat) (u : TaskRec) := ending { run1 with stop := some n } u haltTile
    let left : State := { clean with objs := [(16384, { arrived := 1 })] }
    clean.taskOver 1 = true ∧ (fail badOP again).taskOver 1 = true ∧ (fail tileUE again).taskOver 1 = true ∧
    (stopped 2 t).taskOver 1 = true ∧ (stopped 2 again).taskOver 1 = true ∧ (stopped 3 again).taskOver 1 = true ∧
    left.taskOver 1 = true ∧ clean.graph 0 = some (graphOf [t]) ∧ (graphOf [t]).tasks[0]? = some t ∧
    again.word.getLsbD 23 = true ∧ t.word.getLsbD 23 = false ∧ again.attempts ≤ (clean.part 0).rerunMax.toNat ∧
    badOP ≠ tileUE ∧ badOP ≠ sealFAULT ∧ badOP ≠ sentinelFAULT ∧ y.check = true ∧ (clean.obj 16384).arrived = 0 ∧
    (clean.obj 16384).value = y.start + y.net ∧ (left.obj 16384).arrived ≠ 0 ∧ (clean.part 0).sb.held = [] ∧
    (clean.run 1).signalled = false ∧ (ending run1 t overTile).taskOver 2 = false ∧
    256 ≤ ({ sb0 with held := List.replicate 256 0 } : Sideboard).held.length := by
  refine ⟨ending_over _ _ rfl, ending_halted _ _ rfl, ending_halted _ _ rfl, ending_halted _ _ rfl, ending_halted _ _ rfl,
    ending_halted _ _ rfl, ending_over _ _ rfl, ?_⟩
  and_intros <;> decide

/-! ### Starts and contexts -/

/-- The same NBL with 8 bytes of arguments. -/
def argNbl : List Byte := nbl0.set 28 8
def argImg : List Byte := imageBytes argNbl [] [9]
def argCells : Memory := at' 0 ent0 ++ at' 0x100 argImg
/-- A placed task; its arguments lie at 2^60, outside the partition. -/
def placedRec : TaskRec := { word := taskWord (2 ^ 124), preds := [], st := 1 }

/-- A placed task whose NBL is prepared, with and without arguments, and on a stack that is being re-keyed; one that is not live. -/
theorem witness_TaskStarts :
    let s := placedOn cells0 placedRec
    let q := placedOn argCells placedRec
    let rekeyed : State := { s with hbm := s.hbm.map (fun c => (c.1, { c.2 with rekeying := true })) }
    s.placed 2 = none ∧ s.nblHeld 0 1 = false ∧ s.heldRange 0 placedRec.args 0 = false ∧ q.nblHeld 0 1 = false ∧
    q.heldRange 0 placedRec.args 8 = false ∧ rekeyed.nblHeld 0 1 = true ∧ s.placed 1 = some (graphOf [placedRec], placedRec, ent1, prepOf img0) ∧
    q.placed 1 = some (graphOf [placedRec], placedRec, ent1, prepOf argImg) ∧ placedRec.restores = false ∧
    (prepOf img0).file = nbl0 ∧ (prepOf argImg).file = argNbl ∧ (∀ f ∈ [nbl0, argNbl], nblSect f 7 = none ∧ cxlRecs f = [] ∧
      ringRecs f = [] ∧ loadRecs f = [] ∧ syncSyms f = [⟨0, 0, true, 0⟩]) ∧ ent1.nlate = 0 ∧ (s.run 1).fault = none ∧
    (s.run 1).bx0 + (s.run 1).w ≤ 8 ∧ (s.run 1).by0 + (s.run 1).h ≤ 4 ∧
    (s.translate 0 ((prepOf img0).vids.getD 0 0)).isSome = true ∧ nblArgsLen nbl0 = 0 ∧ nblArgsLen argNbl ≠ 0 ∧
    q.psize 0 < placedRec.args + nblArgsLen argNbl ∧ 1 ≤ (q.run 1).size := by
  intros; and_intros <;> decide +kernel

/-- The header of a context of handle 1, 64 bytes, at superstep 6, and the sync values behind it. -/
def ctxHead (fmt hdr : Nat) : List Byte :=
  leBytes 4 0x5843564B ++ leBytes 2 1 ++ leBytes 1 1 ++ leBytes 1 1 ++ leBytes 4 fmt ++ leBytes 4 0 ++ leBytes 4 1 ++ leBytes 4 hdr ++
    leBytes 4 0 ++ leBytes 4 1 ++ leBytes 8 1 ++ leBytes 8 6 ++ leBytes 8 0 ++ leBytes 8 0
def ctxCells (fmt hdr : Nat) : Memory := cells0 ++ at' 0x10000 (ctxHead fmt hdr)
def savedRec : TaskRec := { word := taskWord (2 ^ 24), preds := [], st := 1, attempts := 1, saved := some 0x10000 }
def unsealed (fmt hdr : Nat) : State := placedOn (ctxCells fmt hdr) savedRec

/-- A seal for every 4 KiB unit of the context, of the bytes there. -/
def ctxSeals (s : State) : Sparse SealEntry :=
  (List.range (ctxBytes 64 / 4096)).map (fun i => (16 + i, { crc := crc32c (s.peek 0 (0x10000 + 4096 * i) 4096), sv := true }))
def sealedOf (l : Sparse SealEntry) (fmt hdr : Nat) : State := { unsealed fmt hdr with
  hbm := [(0, { owner := some 0, keyValid := true, cells := ctxCells fmt hdr, seals := l })] }
def sealedCtx (fmt hdr : Nat) : State := sealedOf (ctxSeals (unsealed fmt hdr)) fmt hdr

/-- The one stack of the partition holds every address at itself. -/
theorem map_one (s : State) (h : s.part 0 = map0) (a : Nat) (b : a < 96 * 2 ^ 30) : s.hbmMap 0 a = some (0, a) := by
  have w : map0.windows = 0xE0000001 :: (List.range 7).map (fun _ => (0 : BitVec 32)) := by decide
  have m : popcount12 ((0xE0000001 : BitVec 32).toNat % 4096) = 1 := by decide
  have n : nthSetBit ((0xE0000001 : BitVec 32).toNat % 4096) 0 = 0 := by decide
  have g : bits (0xE0000001 : BitVec 32).toNat 30 24 = 96 := by decide
  have v : (0xE0000001 : BitVec 32).getLsbD 31 = true := by decide
  have u : (0xE0000001 : BitVec 32).getLsbD 23 = false := by decide
  have l : a < 96 * 1 * 2 ^ 30 := by omega
  simp only [State.hbmMap, h, w, windowWalk, v, Bool.not_true, Bool.false_eq_true, if_false, m, g, if_pos l, u, Nat.mod_one, n,
    Nat.div_one, Nat.sub_zero, Nat.zero_mul, Nat.zero_add]
  rw [Nat.div_add_mod']

theorem sget_run {α : Type} (d : α) (f : Nat → α) (a k : Nat) (l : List Nat) (h : k ∈ l) :
    sget d (a + k) (l.map (fun i => (a + i, f i))) = f k := by
  induction l with
  | nil => cases h
  | cons b r ih =>
    simp only [List.map_cons, sget]
    split
    · rename_i e
      rw [Nat.add_left_cancel e]
    · rename_i n
      exact ih ((List.mem_cons.1 h).resolve_left (fun e => n (by rw [e])))

/-- What a partition's bytes read as does not depend on the seals. -/
theorem peek_sealed (l : Sparse SealEntry) (fmt hdr a n : Nat) : (sealedOf l fmt hdr).peek 0 a n = (unsealed fmt hdr).peek 0 a n := by
  have m : ∀ x, (sealedOf l fmt hdr).hbmMap 0 x = (unsealed fmt hdr).hbmMap 0 x := fun _ => rfl
  simp only [State.peek, m]
  refine List.map_congr_left (fun i _ => ?_)
  cases (unsealed fmt hdr).hbmMap 0 (a + i) with
  | none => rfl
  | some c =>
    obtain ⟨k, x⟩ := c
    cases k <;> rfl

theorem sealed_seals (l : Sparse SealEntry) (fmt hdr : Nat) : ((sealedOf l fmt hdr).stack 0).seals = l := rfl

theorem ctx_sealed (fmt hdr : Nat) : (sealedCtx fmt hdr).sealsOk 0 0x10000 (ctxBytes 64) = true := by
  have p : (sealedCtx fmt hdr).part 0 = map0 := rfl
  simp only [State.sealsOk, List.all_eq_true]
  intro i hi
  have n : i < 66832 := List.mem_range.1 hi
  rw [map_one _ p _ (by omega)]
  have e : (0x10000 + 4096 * i) / 4096 = 16 + i := by omega
  have g : ((sealedCtx fmt hdr).stack 0).seals = ctxSeals (unsealed fmt hdr) := sealed_seals _ _ _
  simp only [e, g]
  rw [ctxSeals, sget_run _ _ _ _ _ hi]
  simp [sealedCtx, peek_sealed]

theorem ctx_unsealed (fmt hdr : Nat) : (unsealed fmt hdr).sealsOk 0 0x10000 (ctxBytes 64) = false := by
  refine Bool.eq_false_iff.2 (fun h => ?_)
  simp only [State.sealsOk, List.all_eq_true] at h
  have z := h 0 (List.mem_range.2 (by decide))
  rw [map_one _ rfl _ (by omega)] at z
  revert z
  simp [unsealed, placedOn, waiting, prepared, State.stack, sget]

/-- A field of a range of bytes is the bytes at its place. -/
theorem fld_peek (s : State) (p a n o k : Nat) (h : o + k ≤ n) : fld (s.peek p a n) o k = leNat (s.peek p (a + o) k) := by
  unfold fld
  congr 1
  refine List.ext_getElem (by simp [State.peek]; omega) (fun i _ _ => ?_)
  simp [State.peek, Nat.add_assoc]

/-- Task 1 of a re-bind that saves it at 1 MiB: at its save point, before it, with no re-bind in progress, and not chosen. -/
theorem witness_Contexts_save :
    let t : TaskRec := { word := taskWord (2 ^ 24), preds := [], st := 2, attempts := 1 }
    let at' (b : Bool) (l : List (Nat × Nat)) (x : Tile) : State := { ending run1 t x with
      hbm := (prepared cells0).hbm, rebind := { busy := b, saving := l } }
    let there : Tile := { st := 5, task := 1 }
    let s := at' true [(1, 0x100000)] there
    s.nblEntry 0 1 = some ent1 ∧ s.nblHeld 0 1 = false ∧ s.heldRange 0 0x100000 (ctxBytes 64) = false ∧ s.savePoint 1 = true ∧ s.rebind.saving.find? (fun c => c.1 = 1) = some (1, 0x100000) ∧
    s.graph 0 = some (graphOf [t]) ∧ (∀ o, o < 64 → s.hbmMap 0 (0x100000 + o) = some (0, 0x100000 + o)) ∧
    (∀ o i, 64 ≤ o → o < ctxBytes 64 → i < 64 → s.hbmMap 0 (0x100000 + o) ≠ some (0, 0x100000 + i)) ∧
    (at' true [(1, 0x100000)] { there with st := 4 }).savePoint 1 = false ∧ (at' false [(1, 0x100000)] there).rebind.busy = false ∧
    ∀ c ∈ (at' true [] there).rebind.saving, c.1 ≠ 1 := by
  intro t at' there s
  have p : s.part 0 = map0 := rfl
  have tl : ∀ x u, (at' true [(1, 0x100000)] x).tile u = x := fun x u => ending_tile run1 t x u
  have m : ctxBytes 64 = 273743872 := by decide
  have al : ∀ u, s.armLink u = {} := fun _ => rfl
  refine ⟨by decide +kernel, by decide +kernel, by decide +kernel, ?_, rfl, rfl, fun o ho => map_one s p _ (by omega), fun o i h1 h2 h3 => ?_, ?_, rfl, by decide⟩
  · have ap : armPending run1 s = false := by
      simp only [armPending, al, List.any_eq_false]
      intro u _
      rw [tl there u]
      decide
    have aw : allTiles run1 s (fun x => x.st = 5 && x.task = 1 && !x.exch.last && x.copies = [] && x.sends = [] && x.sent = []) = true := by
      simp only [allTiles, List.all_eq_true]
      intro u _
      rw [tl there u]
      decide
    have r : s.run 1 = run1 := rfl
    have lv : sget false 1 s.live = true := rfl
    have po : ∀ n, (sget ({} : Port) n s.ports).colls = [] := by
      intro n
      have : s.ports = (List.range 8).map (fun p => (p, ({ owner := some 0 } : Port))) := rfl
      rw [this]
      by_cases h : n ∈ List.range 8
      · rw [sget_same _ _ _ _ h]
      · have : ∀ l : List Nat, n ∉ l → sget ({} : Port) n (l.map (fun p => (p, ({ owner := some 0 } : Port)))) = {} := by
          intro l
          induction l with
          | nil => intro _; rfl
          | cons a q ih =>
            intro hn
            simp only [List.map_cons, sget]
            split
            · rename_i e
              exact absurd (e ▸ List.mem_cons_self) hn
            · exact ih (fun k => hn (List.mem_cons_of_mem _ k))
        rw [this _ h]
    simp only [State.savePoint, r, lv, ap, aw, po, List.all_nil, Bool.or_true, Bool.not_false, Bool.and_true, Bool.true_and]
    decide
  · rw [map_one s p _ (by omega)]
    intro e
    have := congrArg (fun z => (z.getD (0, 0)).2) e
    simp at this
    omega
  · have r : (at' true [(1, 0x100000)] { there with st := 4 }).run 1 = run1 := rfl
    have aw : allTiles run1 (at' true [(1, 0x100000)] { there with st := 4 })
        (fun x => x.st = 5 && x.task = 1 && !x.exch.last && x.copies = [] && x.sends = [] && x.sent = []) = false := by
      refine Bool.eq_false_iff.2 (fun h => ?_)
      simp only [allTiles, List.all_eq_true] at h
      have z := h 0 (by decide)
      rw [tl] at z
      revert z
      decide
    simp only [State.savePoint, r, aw, Bool.and_false, Bool.false_and]

/-- A context of another shape, of another image, without seals, whose checked object holds an arrival, and one that matches; a task
that does not start from a context. -/
theorem witness_Contexts_restore :
    let good := sealedCtx 0x10002058 (nblHdrCrc nbl0)
    let head (s : State) := s.peek 0 0x10000 0x10000
    let bound (v : SyncObj) : State := { good with objs := [(16384, v)] }
    let rekeyed : State := { unsealed 0x10002058 0 with hbm := (unsealed 0x10002058 0).hbm.map (fun c => (c.1, { c.2 with rekeying := true })) }
    good.waitsFor 1 = some (graphOf [savedRec], savedRec) ∧ good.nblEntry 0 1 = some ent1 ∧ good.nblHeld 0 1 = false ∧
    good.heldRange 0 0x10000 (ctxBytes 64) = false ∧ rekeyed.nblHeld 0 1 = true ∧ rekeyed.waitsFor 1 = some (graphOf [savedRec], savedRec) ∧
    rekeyed.nblEntry 0 1 = some ent1 ∧ good.waitsFor 2 = none ∧
    savedRec.restores = true ∧ placedRec.restores = false ∧
    (∀ c ∈ [(0, nblHdrCrc nbl0), (0x10002058, 0), (0x10002058, nblHdrCrc nbl0)],
      (unsealed c.1 c.2).placed 1 = some (graphOf [savedRec], savedRec, ent1, prepOf img0)) ∧
    good.placed 1 = some (graphOf [savedRec], savedRec, ent1, prepOf img0) ∧
    (bound { arrived := 1 }).placed 1 = some (graphOf [savedRec], savedRec, ent1, prepOf img0) ∧ (good.run 1).size = 64 ∧
    fld (head (unsealed 0 (nblHdrCrc nbl0))) 8 4 ≠ 0x10002058 ∧ fld (head (unsealed 0x10002058 0)) 8 4 = 0x10002058 ∧
    fld (head (unsealed 0x10002058 0)) 6 1 = 1 ∧ fld (head (unsealed 0x10002058 0)) 7 1 = 1 ∧
    fld (head (unsealed 0x10002058 0)) 20 4 ≠ ent1.hdr ∧ fld (head good) 8 4 = 0x10002058 ∧ fld (head good) 6 1 = 1 ∧
    fld (head good) 7 1 = 1 ∧ fld (head good) 16 4 = 1 ∧ fld (head good) 20 4 = ent1.hdr ∧ fld (head good) 24 4 = ent1.bind ∧
    good.inPart 0 0x10000 (ctxBytes 64) = true ∧ good.sealsOk 0 0x10000 (ctxBytes 64) = true ∧
    (unsealed 0x10002058 (nblHdrCrc nbl0)).sealsOk 0 0x10000 (ctxBytes 64) = false ∧
    syncSyms (prepOf img0).file = [⟨0, 0, true, 0⟩] ∧ good.translate 0 ((prepOf img0).vids.getD 0 0) = some 16384 ∧
    (good.obj 16384).arrived = 0 ∧ (good.obj 16384).bound = false ∧ ((bound { arrived := 1 }).obj 16384).arrived ≠ 0 ∧
    cxlRecs (prepOf img0).file = [] ∧ nblArgsLen (prepOf img0).file = 0 ∧ (good.run 1).fault = none ∧ Undisturbed good ∧
    BitVec.ofNat 20 ((sb0.cplqTail.toNat + 1) % 2 ^ sb0.cplqSize.toNat) ≠ sb0.cplqHead ∧ (good.part 0).sb.held = [] ∧
    ∀ u, (good.tile u).task ≠ 1 := by
  intro good head bound rekeyed
  have q : ∀ s o k, o + k ≤ 0x10000 → fld (head s) o k = leNat (s.peek 0 (0x10000 + o) k) := fun s o k h => fld_peek s 0 _ _ o k h
  have sl : good.sealsOk 0 0x10000 (ctxBytes 64) = true := ctx_sealed _ _
  have su : (unsealed 0x10002058 (nblHdrCrc nbl0)).sealsOk 0 0x10000 (ctxBytes 64) = false := ctx_unsealed _ _
  have tk : ∀ u, (good.tile u).task ≠ 1 := fun u => by
    have : good.tile u = {} := rfl
    rw [this]
    decide
  simp only [q, Nat.reduceLeDiff, Nat.reduceAdd, sl, su]
  and_intros
  all_goals first | exact tk | decide +kernel

/-! ### Re-binds and resets -/

def rebinding (r : Rebind) : State := { State.reset with rebind := r }

/-- Block 0, stack 0 and port 0 are named; a request in progress; each refusal; resources that TO owns; a task that PREEMPT saves, one
whose context does not fit, and one that may not be preempted; KILL; and hand-overs of each kind. -/
theorem witness_Rebinds :
    let r : Rebind := { mask := 1 }
    let both : State := { rebinding { mask := 3 } with parts := [(0, { Part.first with blocks := 1 }), (1, { blocks := 2 })] }
    let act (k : Nat) : State := rebinding { mask := 1, actMask := 1, busy := true, act := BitVec.ofNat 32 (k * 2 ^ 30 + 63 * 2 ^ 22) }
    let t : TaskRec := { word := taskWord (2 ^ 24), preds := [], st := 2, attempts := 1 }
    let kept : TaskRec := { t with word := taskWord 0 }
    let s : State := { placedOn [] t with rebind := r }
    let small : State := { s with parts := [(0, Part.first)] }
    (rebinding { busy := true }).rebind.busy = true ∧ (rebinding {}).rebind.mask = 0 ∧ r.mask.getLsbD 0 = true ∧
    (rebinding r).ownerOf 0 0 = some 0 ∧ (rebinding r).ownerOf 1 0 = some 0 ∧ (rebinding r).ownerOf 2 0 = some 0 ∧
    (32 ≤ (32#6).toNat ∧ (32#6).toNat ≠ 63) ∧ (62#6).toNat ≠ 63 ∧ (0x1000#32).getLsbD 12 = true ∧ (0x100#32).getLsbD 8 = true ∧
    both.ownerOf 0 0 ≠ both.ownerOf 0 1 ∧ (∀ n < 32, r.mask.getLsbD n = true → n = 0) ∧
    s.runs = [(1, s.run 1)] ∧ sget false 1 s.live = true ∧ (s.run 1).part = 0 ∧ (s.run 1).bx0 = 0 ∧ (s.run 1).by0 = 0 ∧
    (s.run 1).w = 1 ∧ (s.run 1).h = 1 ∧ s.graph (s.run 1).graph = some (graphOf [t]) ∧ (graphOf [t]).tasks[0]? = some t ∧ t.saved = none ∧
    t.word.getLsbD 24 = true ∧ kept.word.getLsbD 24 = false ∧ ctxBytes (s.run 1).size ≤ 65536 * (s.part 0).ctxSize.toNat ∧
    65536 * (small.part 0).ctxSize.toNat < ctxBytes (small.run 1).size ∧ (s.run 1).stop = none ∧ (s.run 1).fault = none ∧
    (∀ k < 3, (act k).rebind.busy = true ∧ (act k).quiet k 0 1 = true ∧ bits (act k).rebind.act.toNat 31 30 = k ∧
      bits (act k).rebind.act.toNat 27 22 = 63) ∧ (act 1).wins = [] ∧
    ({ s with rebind := { act := 0, actMask := 1, busy := true } } : State).quiet 0 0 1 = false := by
  intros; and_intros <;> decide

/-- Each hand-over with its erase begun; of ports, one that no marker has passed, one whose ring has a boundary behind it and one that
waits for it; a task whose fault has not stopped it. -/
theorem witness_Rebinds_handover :
    let rb (k : Nat) : Rebind :=
      { mask := 1, actMask := 1, busy := true, phase := 3, act := BitVec.ofNat 32 (k * 2 ^ 30 + 63 * 2 ^ 22), quietAt := some 0
        revsAt := [(0, 4)] }
    let act (k : Nat) (l : List (Nat × Port)) : State := { rebinding (rb k) with ports := l }
    let x : Port := { owner := some 0, link := 2, lastEmit := some 9, revs := 4 }
    (1#2).toNat ≠ bits (act 0 []).rebind.act.toNat 31 30 ∧
    (∀ k < 3, (act k []).rebind.busy = true ∧ (act k []).rebind.phase = 3 ∧ (act k []).rebind.quietAt = some 0 ∧
      bits (act k []).rebind.act.toNat 31 30 = k) ∧ (rebinding {}).rebind.phase ≠ 3 ∧
    ((act 2 []).port 0).link ≠ 2 ∧ ((act 2 []).port 0).lastEmit = none ∧
    ((0, (4 : BitVec 64)) ∈ (act 2 [(0, x)]).rebind.revsAt ∧ x.revs = 4) ∧
    (∃ c ∈ (act 2 [(0, { x with revs := 5 })]).rebind.revsAt, c.1 = 0 ∧ c.2 ≠ ((act 2 [(0, { x with revs := 5 })]).port 0).revs) ∧
    ((withTile idle5).blocksOf 1 0 1 = 0 ∧ ((withTile idle5).blocksOf 0 0 1).getLsbD 0 = true) := by
  intro rb act x
  exact ⟨by decide, by decide, by decide, by decide, by decide, by decide, ⟨(0, 4), by decide, by decide, by decide⟩, by decide, by decide⟩

/-- Nothing in progress, a restart in progress, a tile that works, and a running task of the partition. -/
theorem witness_Resets :
    let s := s5
    let b : State := { s with start := { s.start with lmcWait := true } }
    s.start.kind = 0 ∧ s.start.lmcWait = false ∧ s.start.recovery = false ∧ s.pins.power = true ∧ s.pins.snuffed = false ∧
    b.start.lmcWait = true ∧ s.winUnits = [] ∧ (s.tile 5).st ≠ 0 ∧ (s.tile 6).st = 0 ∧ (s.stack 0).owner = some 0 ∧
    (s.port 0).owner = some 0 ∧ (s.part 0).blocks.getLsbD (blockOf 5) = true ∧ s.runs = [(1, footRun)] ∧ sget false 1 s.live = true ∧
    footRun.part = 0 ∧ s.run 1 = footRun ∧ footRun.stop = none ∧ footRun.fault = none ∧
    ({ s with pins := { s.pins with power := false } } : State).pins.power = false := by
  intros; and_intros <;> decide

/-! ### Starting, power and the board -/

def starting (k : Nat) (n : BitVec 8) : State := { State.reset with start := { State.reset.start with kind := k, phase := n } }

/-- Each step of both starts; an operand that breaks each; a step 1 whose image is too old; the image's verdict is a free value, so
that its other outcome cannot be shown. The 33 columns: none, one, and two with defects. 30 s of a start that did not wait. -/
theorem witness_Starts :
    let o := startObs goodLink
    let old : State := { starting 1 1 with lmc := { (starting 1 1).lmc with minSvn := Config.imageSvn (starting 1 1).lmc.flashBytes + 1 } }
    let late : State := { starting 2 3 with time := 30000000000 }
    (∀ k ∈ [1, 2], ∀ n ∈ [2, 3, 4, 5, 6, 7], (starting k (BitVec.ofNat 8 n)).start.kind = k ∧
      (starting k (BitVec.ofNat 8 n)).start.phase = BitVec.ofNat 8 n) ∧ o.lost = false ∧ o.trained = true ∧ o.mapBad = false ∧
    ({ o with lost := true } : StartObs).lost = true ∧ ({ o with trained := false } : StartObs).trained = false ∧
    imageVerdict old.lmc.flashBytes old.lmc.minSvn ≠ 0 ∧ o.defectsW = 0 ∧ o.defectsE = 0 ∧
    ((0x100000001#33).getLsbD 0 = true ∧ (0x100000001#33).getLsbD 32 = true) ∧ ((1#33) <<< 32 = 0x100000000#33) ∧
    ((starting 1 4).stack 0).owner ≠ none ∧ ((starting 1 4).stack 12).owner = none ∧ (starting 1 6).pins.warn = false ∧
    (starting 1 6).start.ports = false ∧ ((starting 1 6).port 0).link ≠ 2 ∧ bestLanes 0xFFFF ≠ 0 ∧ bestLanes 0x0000 = 0 ∧
    late.time.toNat - late.start.began - late.start.heldNs = 30000000000 ∧ (starting 1 1).time.toNat = 0 ∧
    (starting 1 7).start.fellBack = false ∧ ({ (starting 1 1).start with fails := 3 } : Start).fails = 3 ∧
    ({ (starting 0 0).start with recovery := true } : Start).recovery = true ∧ 4 ≤ goodLink.width ∧ 5 ≤ goodLink.rate ∧
    (starting 0 0).pins.refclk = true ∧ (starting 0 0).pins.perst = false ∧ (starting 0 0).pins.power = true := by
  intro o old late
  have v : imageVerdict old.lmc.flashBytes old.lmc.minSvn ≠ 0 := by
    have l : Config.imageSvn old.lmc.flashBytes < old.lmc.minSvn := Nat.lt_succ_self _
    simp only [imageVerdict, l, if_true]
    split <;> decide
  and_intros
  all_goals first | with_reducible exact v | decide

/-- A start that zeroes the shelves because the module was Banked, one from Snuffed, and one that does not; a link in recovery that is
too narrow; links 2 and 3; the Lamplighter with and without a restart. -/
theorem witness_Starts_more :
    let b : State := { starting 2 5 with dim := { State.reset.dim with banked := true } }
    b.dim.banked = true ∧ (starting 2 5).dim.banked = false ∧ (starting 2 5).start.fromSnuffed = false ∧
    ({ (starting 2 5).start with fromSnuffed := true } : Start).fromSnuffed = true ∧ (starting 2 7).start.lmcWait = false ∧
    ({ goodLink with width := 3 } : LinkObs).width < 4 ∧ ({ upPort with link := 3 } : Port).link = 3 ∧
    (starting 2 5).start.kind ≠ 1 ∧ (∀ o : StartObs, o.mapBad = true ∨ o.mapBad = false) := by
  refine ⟨rfl, rfl, rfl, rfl, rfl, by decide, rfl, by decide, fun o => ?_⟩
  cases o.mapBad <;> simp

/-- Voltages at each limit and beside it; each pin high and low; power off and Snuffed; a port of a ring that is up. -/
theorem witness_PowerInput :
    let s := State.reset
    let with' (p : Pins) : State := { s with pins := p }
    let up : State := { s with ports := [(0, upPort)] }
    ((43000#17).toNat ≤ 43000) ∧ (43000 < (43001#17).toNat ∧ (43001#17).toNat ≤ 60000) ∧ (60000 < (60001#17).toNat) ∧
    ((41000#17).toNat = 41000) ∧ ((40999#17).toNat < 41000) ∧ ((60000#17).toNat ≤ 60000) ∧ s.pins.power = true ∧ s.pins.perst = false ∧
    s.pins.warn = false ∧ s.pins.snuffed = false ∧ s.start.kind = 0 ∧ s.start.recovery = false ∧
    (with' { power := false }).pins.power = false ∧ (with' { perst := true }).pins.perst = true ∧
    (with' { perst := true, snuffed := true }).pins.snuffed = true ∧ (with' { warn := true }).pins.warn = true ∧
    (up.port 0).link = 2 ∧ (up.port (pairPort 0)).coastMine = (up.port 0).coastMine ∧ (up.port 2).link ≠ 2 ∧
    (up.port (pairPort 2)).link ≠ 2 ∧ s5.runs = [(1, footRun)] ∧ sget false 1 s5.live = true ∧ (starting 2 6).start.kind = 2 ∧
    (starting 2 6).start.phase = 6 := by
  intros; and_intros <;> decide

/-- Each class, and the four profiles; the limits of R535 from both sides; idle and working units; budgets and idle times at their
bounds; dead, held and banked modules. -/
theorem witness_Dimming :
    let s := State.reset
    let idle : State := { s with dim := { s.dim with budget := 2500, ctlAct := 0x60000000 } }
    let banked : State := { s with dim := { s.dim with banked := true, pilot := 1, budget := 2500 }, tiles := [(5, { st := 8 })] }
    let o (tj : BitVec 8) (mv : BitVec 17) : DimObs := { watts := 0, mj := 0, tj := tj, millivolt := mv, rateW := 150, rateE := 100 }
    s.pins.power = true ∧ s.pins.snuffed = false ∧ s.dim.cls = 0 ∧ bits s.dim.ctl.toNat 31 30 = 1 ∧ s.dim.ctl.toNat % 4096 = 0 ∧
    bits (0x80000000#32).toNat 31 30 = 2 ∧ bits (0#32).toNat 31 30 = 0 ∧ ((o 95 44000).tj.toNat ≤ 95 ∧ 44000 ≤ (o 95 44000).millivolt.toNat) ∧
    (95 < (o 96 58000).tj.toNat ∧ (o 96 58000).millivolt.toNat ≤ 58000) ∧ 58000 < (o 95 58001).millivolt.toNat ∧
    ({ s with start := { s.start with lmcWait := true } } : State).start.lmcWait = true ∧
    s.start.phase = 0xFF ∧ s.start.lmcWait = false ∧ s.dim.banked = false ∧ s.live = [] ∧ 5 ≤ s.dim.budget.toNat ∧
    bits s.dim.thresh.toNat 31 24 ≤ (20#32).toNat ∧ (19#32).toNat < bits s.dim.thresh.toNat 31 24 ∧ (∀ t, (s.tile t).st = 0) ∧
    80 ≤ idle.dim.budget.toNat ∧ s.dim.budget.toNat < 80 ∧ 10 * bits s.dim.thresh.toNat 23 12 ≤ (1000#32).toNat ∧ s.lantern = false ∧
    idle.moduleIdle = true ∧ idle.dim.ctlAct.getLsbD 29 = true ∧ 1000 * bits s.dim.thresh.toNat 11 0 ≤ (100000#32).toNat ∧
    (banked.tile 5).st = 8 ∧ (1#32 &&& banked.dim.pilot).getLsbD (blockOf 5) = true ∧ blockOf 5 = 0 ∧
    (2 : BitVec 32) &&& banked.dim.pilot = 0 ∧ (2499#32).toNat % 2 ^ 24 < 2500 ∧ 2500 ≤ (2500#32).toNat % 2 ^ 24 ∧
    (starting 1 3).start.phase ≠ 0xFF ∧ s5.live = [(1, true)] ∧ footRun.tiles.contains 5 = true ∧ onDieE 5 = false := by
  intro s idle banked o
  have z : ∀ t, (s.tile t).st = 0 := fun _ => rfl
  and_intros
  all_goals first | with_reducible exact z | decide

/-- Draw above and below the limit, in Economy of the Liquid class and at a low voltage; a hot junction; a task over the seam; a die, a
block and the module idle for exactly their thresholds. -/
theorem witness_Dimming_limits :
    let o (w : BitVec 16) (tj : BitVec 8) (mv : BitVec 17) : DimObs :=
      { watts := w, mj := 0, tj := tj, millivolt := mv, rateW := 150, rateE := 100 }
    let wide : State := { State.reset with runs := [(1, { footRun with bx0 := 3, w := 2 })], live := [(1, true)], tiles := [(31, { st := 2, task := 1 })] }
    let d := State.reset.dim
    1000 < (o 1001 50 54000).watts.toNat ∧ ¬ 1000 < (o 1000 50 54000).watts.toNat ∧ 1200 < (o 1201 50 54000).watts.toNat ∧
    1000 * 43999 / 44000 < (o 1000 50 43999).watts.toNat ∧ 95 < (o 0 96 54000).tj.toNat ∧
    (∃ c ∈ wide.runs, sget false c.1 wide.live = true ∧ c.2.bx0 < 4 ∧ 4 < c.2.bx0 + c.2.w) ∧
    d.busyW + 1000 * bits d.thresh.toNat 31 24 ≤ (20000#64).toNat ∧ ¬ d.busyW + 1000 * bits d.thresh.toNat 31 24 ≤ (19999#64).toNat ∧
    sget 0 3 d.busyB + 10000 * bits d.thresh.toNat 23 12 ≤ (1000000#64).toNat ∧
    d.busyM + 1000000 * bits d.thresh.toNat 11 0 ≤ (100000000#64).toNat ∧
    2 ≤ (2#5).toNat ∧ (withPorts [(0, upPort)]).lantern = true ∧ (withPorts [(0, rank0)]).lantern = false := by
  intro o wide d
  exact ⟨by decide, by decide, by decide, by decide, by decide, ⟨_, List.mem_cons_self, by decide⟩, by decide, by decide, by decide, by decide,
    by decide, by decide, by decide⟩

/-- The tile of that task lies on its footprint and works. -/
theorem witness_Dimming_straddle :
    let r : Run := { footRun with bx0 := 3, w := 2 }
    let s : State := { State.reset with tiles := [((r.tileAt 0).toNat, { st := 2, task := 1 })] }
    r.tileAt 0 ∈ r.tiles ∧ (s.tile (r.tileAt 0)).task = 1 ∧ (s.tile (r.tileAt 0)).assigned = true := by
  intro r s
  exact ⟨by decide +kernel, by decide, by decide⟩

/-- Power on, off and Snuffed; a link that may train and one that may not; streams that are secured and not; each command of the LMC
mailbox, and images at each bound that the free maximum length allows. -/
theorem witness_LinkSidebandFirmware :
    let s := linked State.reset
    let ide : State := { s with cxl := { s.cxl with ideCm := true, ideIo := 1 } }
    let runs (op : Nat) (v : Bool) : State := { s with lmc := { s.lmc with cmd := BitVec.ofNat 32 (op * 2 ^ 24), busy := true, verified := v } }
    let lost (r : Bool) : State := { runs 3 true with start := { s.start with recovery := r } }
    let long : List Byte := List.replicate (Config.imageMax + 1) 0
    s.pins.power = true ∧ s.pins.snuffed = false ∧ s.start.kind = 0 ∧ s.pins.refclk = true ∧ s.pins.perst = false ∧
    4 ≤ goodLink.width.toNat ∧ 5 ≤ goodLink.rate.toNat ∧ badLink.rate.toNat < 5 ∧ s.cxl.rate ≠ 0 ∧ State.reset.cxl.rate = 0 ∧
    s.start.recovery = false ∧ s.start.phase = 0xFF ∧ ide.cxl.ideCm = true ∧ s.cxl.ideCm = false ∧ ide.cxl.ideIo.getLsbD 0 = true ∧
    ide.cxl.ideIo.getLsbD 1 = false ∧ (∀ op ∈ [1, 2, 3], (runs op false).lmc.busy = true ∧
      bits (runs op false).lmc.cmd.toNat 31 24 = op ∧ (runs op false).start.lmcWait = false) ∧ s.lmc.busy = false ∧
    61440 < (0x100F001#32).toNat % 65536 ∧ (0x100F000#32).toNat % 65536 ≤ 61440 ∧
    (runs 1 false).lmc.arg.toNat + (runs 1 false).lmc.cmd.toNat % 65536 ≤ Config.imageMax ∧
    (runs 3 true).lmc.verified = true ∧ (runs 3 false).lmc.verified = false ∧ (lost true).start.recovery = true ∧
    Config.imageMax < (0#32).toNat + long.length ∧ (0#32).toNat + ([] : List Byte).length ≤ Config.imageMax := by
  intro s ide runs lost long
  have a : (runs 1 false).lmc.arg.toNat + (runs 1 false).lmc.cmd.toNat % 65536 ≤ Config.imageMax := by
    have e : (runs 1 false).lmc.arg.toNat + (runs 1 false).lmc.cmd.toNat % 65536 = 0 := by decide
    rw [e]
    exact Nat.zero_le _
  have b : Config.imageMax < (0#32).toNat + long.length := by
    have e : long.length = Config.imageMax + 1 := List.length_replicate
    rw [e]
    exact Nat.lt_of_lt_of_le (Nat.lt_succ_self _) (Nat.le_add_left _ _)
  have c : (0#32).toNat + ([] : List Byte).length ≤ Config.imageMax := Nat.zero_le _
  and_intros
  all_goals first | with_reducible exact a | with_reducible exact b | with_reducible exact c | decide

/-- The link up and down; two waiting events; a stack with a poisoned unit that an access has found. -/
theorem witness_Responders :
    let s : State := { linked State.reset with
      cxlEvts := [⟨true, 64, 1, 0⟩, ⟨false, 128, 2, 5⟩], hbm := [(0, { owner := some 0, poison := [(3, true)], found := [(3, true)] })] }
    s.cxl.rate ≠ 0 ∧ s.start.recovery = false ∧ s.start.phase = 0xFF ∧ State.reset.cxl.rate = 0 ∧ 4 ≤ (4#8).toNat ∧ ¬ 4 ≤ (3#8).toNat ∧
    (1 ≤ (1#8).toNat ∧ (6#8).toNat ≤ 6) ∧ 6 ≤ (6#16).toNat ∧ s.cxlEvts.length = 2 ∧ s.cxlEvts.length < (3#8).toNat ∧
    (2#8).toNat ≤ s.cxlEvts.length ∧ (3, true) ∈ (s.stack 0).found ∧ sget false 3 (s.stack 0).poison = true := by
  intros; and_intros <;> decide

/-! ### The whole block -/

theorem witness_StepRunsFront :
    let s : State := { State.reset with pending := [.lmcWatchdog] }
    s.pending = .lmcWatchdog :: [] ∧ State.reset.pending = [] := ⟨rfl, rfl⟩

/-- At reset nothing stands at a beat's end; what the instant of an upset or a lost row is, is a free value. -/
theorem witness_StepRunsFront_quiet :
    let s := State.reset
    s.runs = [] ∧ (∀ o, (s.obj o).coming = []) ∧ (∀ t, (s.tile t).hold = none) ∧ (∀ k < 12, (s.stack k).narrowQ = []) ∧
    (∀ p < 8, (s.port p).link ≠ 3) ∧ s.rebind.busy = false := by
  refine ⟨rfl, fun _ => rfl, fun _ => rfl, by decide, by decide, rfl⟩

/-- A full log, and a step from it: the oldest entry is given up for the warning's. -/
theorem witness_StepKeepsLog :
    let s : State := { State.reset with elSeq := 4096, pending := [.pwrWarnAssert] }
    (s.elSeq - s.elRd).toNat ≤ 4096 ∧ ∃ n, step s = .next n :=
  ⟨by decide, _, rfl⟩

theorem witness_QueueOrder :
    let s : State := { State.reset with pending := [.pwrWarnAssert, .pwrWarnDeassert] }
    s.pending = [.pwrWarnAssert, .pwrWarnDeassert] ∧ ∃ n, exec .pwrWarnAssert { s with pending := [.pwrWarnDeassert] } = .next n ∧
      ∃ m, exec .pwrWarnDeassert { n with pending := [] } = .next m := ⟨rfl, _, rfl, _, rfl⟩

/-- PC = 0x10_0000; a word of the line at 0x40 that reads uncorrectable; a reserved word in slot B; a peer of the same task. -/
theorem witness_BundleFaults :
    let far : Tile := { idle5 with pc := 0x100000 }
    let hurt : Tile := { idle5 with bad := [(1, 2)] }
    let two : State := { s5 with tiles := [(5, idle5), (6, { idle5 with rel := 6 })] }
    far.canIssue = true ∧ far.fTaken = false ∧ 0x100000 ≤ far.pc.toNat ∧ hurt.canIssue = true ∧ hurt.pc.toNat < 0x100000 ∧
    ((fetched (withTile hurt) 5).fetchBad).isSome = true ∧ (fetched s5 5).fetchBad = none ∧ (decB 0xFC00000000000000).bad = true ∧
    idle5.canIssue = true ∧ (s5.runOf 5).fault = none ∧ (6 : TileId) ∈ (two.runOf 5).tiles ∧ (two.tile 6).task = (two.tile 5).task ∧
    (two.tile 6).assigned = true ∧ (two.tile 6).st ≠ 7 ∧ (two.tile 6).fTaken = false ∧ (two.tile 7).task ≠ (two.tile 5).task ∧
    idle5.drained = true ∧ ({ idle5 with fifo := [⟨0, 0, 0, false, 0, false, 0, {}⟩] } : Tile).drained = false := by
  intros; and_intros <;> decide

/-- A fault of the beat that has not stopped the task yet, one of a lower relative ID in the same beat, and one of a beat before. -/
theorem witness_BundleFaults_halts :
    let r : Run := { footRun with fault := some (0x05, 9), faultAt := 7 }
    let s : State := { s5 with runs := [(1, r)], time := 7 }
    s.pending = [] ∧ (1, r) ∈ s.runs ∧ sget false 1 s.live = true ∧ r.fault = some (0x05, 9) ∧ r.halted = false ∧ r.faultAt = s.time ∧
    idle5.rel.toNat < (9 : BitVec 11).toNat ∧ ({ r with faultAt := 6 } : Run).faultAt ≠ s.time ∧ (5 : TileId) ∈ r.tiles ∧
    (s.tile 5).task = 1 ∧ (s.tile 5).assigned = true ∧ (s.tile 5).st ≠ 7 := by
  intros; and_intros <;> decide +kernel


/-- The distinct banks that strided runs reach (Table 7-2). -/
theorem test_banks :
    let reached (base stride n : Nat) : Nat := ((List.range n).map (fun i => (bankOf (base + stride * i)).1)).eraseDups.length
    ([32, 64, 128, 256, 512, 1024, 2048, 4096, 8192, 16384].all (fun d => reached 0 d 16 = 16)) = true ∧ reached 0 544 16 = 1 ∧
    reached 0x100000 32 24 = 24 ∧ reached 0x100000 256 24 = 24 ∧ reached 0x100000 1024 24 = 24 ∧ reached 0x100000 768 24 = 8 := by
  decide +kernel

/-! ### Two words of a bundle, fused drains, sealed and G16 units -/

/-- An ADD and a CEQ beside a VBCG; a FENCE with a send under way; an ST at 0x1000 and a VLD of the row there. -/
theorem witness_BranchesAndControl_both :
    let x := fetched s5 5
    let send : Tile := { idle5 with sends := [{ seq := 0, dest := 6, ring := 0 }] }
    let y : Tile := { idle5 with gs := [(2, 0x1000)] }
    CanIssue s5 5 ∧ hdrRuns hdr0 x = true ∧ VReady x [4, 0, 0, 0, 3] ∧ (opR 3 4 0 0 0 0).rb = 0 ∧ (opR 5 6 7 0 0xF 0).rm = 0 ∧
    (opR 7 6 7 0 0xF 0).rd.toNat < 8 ∧ (⟨0, 0, 0, 0, 0⟩ : OpI).sh = 0 ∧ CanIssue (withTile send) 5 ∧
    hdrRuns hdr0 (fetched (withTile send) 5) = true ∧ (fetched (withTile send) 5).sends ≠ [] ∧ CanIssue (withTile y) 5 ∧
    (fetched (withTile y) 5).queue = [] ∧ (fetched (withTile y) 5).bad = [] ∧ (fetched (withTile y) 5).rings = [] ∧
    ((fetched (withTile y) 5).g 2 + (opM 3 2 0 0xF 0).off.signExtend 64).toNat = 0x1000 ∧
    ∀ j < 32, elemAddr (opM 3 2 0 0 0) (fetched (withTile y) 5) j < 0x400000 ∧ elemAddr (opM 3 2 0 0 0) (fetched (withTile y) 5) j % 4 = 0 := by
  intros; and_intros <;> decide

/-- The words of the two slots decode as the statement names them (Table 3-15 and 3-16). -/
theorem witness_BranchesAndControl_words :
    decA 0x0540298E0F000000 = wordAdd ⟨2, true⟩ ⟨5, 6, 7, 0, 0xF, 0, 0, 0⟩ := rfl

/-- ADRAIN rows with each FUSE, of FP32, INT32 and MX formats, with a row of ACC2 first and later; a pair of rows to G16. -/
theorem witness_DrainAndAccumulatorRows_fused :
    let o (fmt : BitVec 4) (fuse acc2 : BitVec 3) : OpT := { opT 0 fmt 31 0 false with fuse := fuse, acc2 := acc2 }
    let e (fmt : BitVec 4) (fuse acc2 : BitVec 3) (n : Nat) :=
      { entry .adrain (o fmt fuse acc2) with started := true, done := n, tag := 1, fuseInit := true }
    let x := atWork [e 1 1 2 0] []
    x.working = true ∧ x.queue = e 1 1 2 0 :: [] ∧ (e 1 1 2 0).done ≤ (o 1 1 2).nrow.toNat ∧ (o 1 1 2).row.toNat + 31 < 32 ∧
    (∀ d ∈ x.fifo, d.acc ≠ (o 1 1 2).acc ∧ d.acc ≠ (o 1 1 2).acc2) ∧ x.bad = [] ∧ x.rings = [] ∧ (e 1 1 2 0).ue = none ∧
    (o 1 1 2).rm.toNat ≤ 3 ∧ (o 1 3 2).fuse.toNat ≤ 3 ∧ (o 1 1 2).acc2 ≠ (o 1 1 2).acc ∧ isMx 0x8 = true ∧ (0xE#4).toNat ≤ 0xE ∧
    (o 0xD 0 0).fmt = 0xD ∧ (e 0xD 0 0 30).done % 2 = 0 ∧ (e 0xD 0 0 30).done < (o 0xD 0 0).nrow.toNat ∧
    (o 0xD 0 0).row.toNat + 30 < 31 ∧ (Fx.fin false 0 0).isZero = true ∧ Fx.lt (.fin false 3 0) (.fin false 1 2) = true ∧
    Fx.lt (.fin false 3 0) (.fin false 1 (2 - 1)) = false := by
  intros; and_intros <;> decide

/-- A sealed TILE source at the first and the last slot of a unit, a G16 one at its two flits, and a flit through ATTACH. -/
theorem witness_SendsAndAdds_sealed :
    let tile : BitVec 64 := 0x00009C0000000000
    let w : BitVec 64 := tile + 0x80
    let g : BitVec 64 := tile + 0x40 + 0x100
    let at' (o i : Nat) (w : BitVec 64) (q : List Flit) (st : Option Flit) : Tile :=
      moving { outs := [(o, { slots := 64, cur := some ⟨w, 0x100, i⟩, stash := st, crc := 0xFFFFFFFF })], qs := [(5, q)] }
    let s := withTile (at' 1 63 w [] none)
    (s.tile 5).st = 4 ∧ neighbour footRun 5 1 = some 37 ∧ outRoom s footRun 5 1 = true ∧ outRoom s footRun 5 5 = true ∧
    ((s.tile 5).exch.out 1).cur = some ⟨w, 0x100, 63⟩ ∧ rOp w = 0 ∧ rSrc w = 4 ∧ rSealed w = true ∧ rG16 w = false ∧ 63 % 64 = 63 ∧
    rG16 g = true ∧ rSealed g = false ∧ rStride g = 1 ∧ (64 * rAddr g + 130 * (0 / 2 : Nat) * rStride g : Int) = (0 : Nat) ∧
    crcStep 0xFFFFFFFF [] = 0xFFFFFFFF ∧ landsOn (at' 1 63 w [] none) 0xFC0 64 = false ∧ landsOn (at' 1 0 g [] none) 0 130 = false ∧
    ((at' 1 1 g [] (some flit0)).exch.out 1).stash = some flit0 ∧ rSrc recOut ≠ 4 ∧
    ((moving { qs := [(5, [flit0])] }).exch.queue 0 5) = [flit0] := by
  intros; and_intros <;> decide +kernel

/-- Both operands of a sealed FP32 add at the last slot of a unit, with right and wrong seals; two flits of a G16 add, and one. -/
theorem witness_SendsAndAdds_adds :
    let w : BitVec 64 := 0x0000010000000000 + 0x00000C0000000000 + 0x80
    let g : BitVec 64 := 0x0000030000000000 + 0x00000C0000000000 + 0x40
    let zeros : List Byte := List.replicate 64 0
    let right : Flit := { flit0 with aux := crc32c zeros }
    let p (v : BitVec 64) : OutPort := { slots := 64, cur := some ⟨v, 0x100, 63⟩ }
    let x := moving { outs := [(1, p w)], qs := [(1, [right]), (25, [right])] }
    rOp w = 1 ∧ rSealed w = true ∧ rG16 w = false ∧ rSrc w = 0 ∧ rSrc2 w = 3 ∧ rOp g = 3 ∧ rG16 g = true ∧ rSealed g = false ∧
    x.exch.queue (rSrc w) 1 = [right] ∧ x.exch.queue (rSrc2 w) 1 = [right] ∧ (p w).crcA = crcStep 0xFFFFFFFF [] ∧
    ((withTile x).tile 37).exch.inp 3 = {} ∧ 0 < linkCap 5 1 ∧ flitBytes right.data = flitBytes flit0.data ∧
    crc32c ([] ++ flitBytes flit0.data) ≠ 0x12345678 ∧ x.fTaken = false ∧ footRun.halted = false := by
  intros; and_intros <;> decide +kernel

/-- A sealed landing at the first and the last slot of a unit, with its seal right and wrong; a G16 block inside a zone and outside; one
flit of two. -/
theorem witness_FlitLandings_sealed :
    let w : BitVec 64 := 0x00001C0000000000 + 0x80
    let g : BitVec 64 := 0x00001C0000000000 + 0x40
    let x (v : BitVec 64) (i z : Nat) (q : List Flit) := moving { outs := [(4, { slots := 64, cur := some ⟨v, 0x100, i⟩ })], qs := [(4, q)], zones := [(0, z)] }
    let b := flitBytes flit0.data
    rOp w = 0 ∧ rG16 w = false ∧ rSealed w = true ∧ rG16 g = true ∧ rSealed g = false ∧ rSrc w = 0 ∧
    ((x w 63 3 [flit0]).exch.out 4).cur = some ⟨w, 0x100, 63⟩ ∧ (x w 63 3 [flit0]).exch.queue (rSrc w) 4 = [flit0] ∧
    (∃ z ∈ (x w 63 3 []).exch.zones, 64 * z.1 ≤ 0 ∧ 0 + 64 ≤ 64 * (z.1 + z.2 + 1)) ∧
    crc32c ([] ++ b) = ({ flit0 with aux := crc32c b } : Flit).aux ∧ crc32c ([] ++ b) ≠ (1 : BitVec 32) ∧
    ((([] : List (Nat × Byte)) ++ Machine.at' 0 b).map (·.1)).Nodup ∧
    (∃ z ∈ (x g 0 3 []).exch.zones, 64 * z.1 ≤ 0 ∧ 0 + 130 ≤ 64 * (z.1 + z.2 + 1)) ∧
    (¬ ∃ z ∈ (x g 0 0 []).exch.zones, 64 * z.1 ≤ 0 ∧ 0 + 130 ≤ 64 * (z.1 + z.2 + 1)) ∧
    (x g 0 3 [flit0, flit0]).exch.queue (rSrc g) 4 = flit0 :: [flit0] ∧ (x g 0 3 [flit0]).exch.queue (rSrc g) 4 = flit0 :: [] := by
  intros; and_intros <;> decide +kernel

/-- Adds of an arriving flit to the tile's bytes in FP32, BF16 and G16, inside a zone and outside. -/
theorem witness_FlitLandings_adds :
    let w (op : Nat) : BitVec 64 := BitVec.ofNat 64 (op * 2 ^ 40 + 4 * 2 ^ 42 + if op = 3 then 64 else 0)
    let x (op z : Nat) (q : List Flit) := moving { outs := [(4, { slots := 2, cur := some ⟨w op, 0x100, 0⟩ })], qs := [(4, q)], zones := [(0, z)] }
    (x 1 3 []).st = 4 ∧ rOp (w 1) = 1 ∧ rOp (w 2) = 2 ∧ rOp (w 3) = 3 ∧ rG16 (w 1) = false ∧ rG16 (w 3) = true ∧ rSealed (w 3) = false ∧
    rSrc2 (w 1) = 4 ∧ rSrc2 (w 3) = 4 ∧ (x 1 3 [flit0]).exch.queue (rSrc (w 1)) 4 = [flit0] ∧
    (x 3 3 [flit0, flit0]).exch.queue (rSrc (w 3)) 4 = [flit0, flit0] ∧ ((x 1 3 []).exch.out 4).stash = none ∧
    ((x 1 3 []).exch.out 4).land = [] ∧ (x 1 3 []).bad = [] ∧
    (∃ z ∈ (x 1 3 []).exch.zones, 64 * z.1 ≤ 0 ∧ 0 + 130 ≤ 64 * (z.1 + z.2 + 1)) ∧
    ¬ ∃ z ∈ (moving {}).exch.zones, 64 * z.1 ≤ 0 ∧ 0 + 64 ≤ 64 * (z.1 + z.2 + 1) := by
  intros; and_intros <;> decide +kernel

/-! ### Copies and adding arms -/

/-- A sealed FETCH and STORE of one unit, and G16 ones of two blocks. -/
theorem witness_CopiesAndArms_sealed :
    let d (op : Nat) : CopyDesc := { copy0 with op := op, sealed := true, len := 4096 }
    let g (op : Nat) : CopyDesc := { copy0 with op := op, fmt := 0xD, len := 260 }
    let s (c : CopyDesc) : State := { withTile { idle5 with copies := [c] } with hbm := [(0, { owner := some 0 })] }
    ((s (d 0)).tile 5).copies[0]? = some (d 0) ∧ copyHeld (d 0) (s (d 0)) = false ∧ Undisturbed (s (d 0)) ∧ (d 1).rows = 1 ∧ (d 1).stage % 64 = 0 ∧
    (∀ j, j < 64 → (s (d 0)).hbmMap 0 ((d 0).hbm + 64 * j) = some (0, 0 + 64 * j)) ∧ (d 0).op = 0 ∧ (d 1).op = 1 ∧
    ((s (g 0)).tile 5).copies[0]? = some (g 0) ∧ (g 0).len % 130 = 0 ∧ copyHeld (g 1) (s (g 1)) = false ∧
    (s (g 0)).hbmMap (g 0).part (g 0).hbm = some (0, 0) ∧ (g 1).sumsq = false ∧ (g 1).fmt = 0xD ∧ (g 1).sealed = false := by
  intros; and_intros <;> decide +kernel

/-- An adding arm of FP32, BF16 and G16 on the attach router of stack 0, with good and poisoned staging; a G16 arm that holds its first
flit; a sealed arm at the first and the last flit of a unit. -/
theorem witness_CopiesAndArms_adds :
    let a (fmt n : Nat) (sealed : Bool) (h : Option Flit) : Arm :=
      { d := { copy0 with op := 2, aop := 1, fmt := fmt, sealed := sealed, len := 4096 }, n := n, hold := h }
    let s (x : Arm) (st : Stack) : State := { State.reset with
      tiles := [(64, { idle5 with st := 4 })], arms := [(64, { ins := [x], fromRouter := [flit0] })], hbm := [(0, st)] }
    let f := s (a 1 0 false none) {}
    attachStack 64 = some 0 ∧ (f.armLink 64).fromRouter = [flit0] ∧ (f.armLink 64).ins = [a 1 0 false none] ∧
    flit0.ord.toNat = (f.armLink 64).kIn % 256 ∧ (f.tile 64).working = true ∧ (f.stack 0).rekeying = false ∧ (f.stack 0).stgErr = [] ∧
    (a 1 0 false none).d.aop = 1 ∧ (f.tile 64).fTaken = false ∧ (f.stack 0).stgBad 0 64 = false ∧
    (({ stgPoison := [(0, true)] } : Stack)).stgBad 0 64 = true ∧ (a 0xD 1 false (some flit0)).hold = some flit0 ∧
    64 ≤ 65536 * (f.stack 0).stgBase.toNat + (a 0xD 1 false none).d.flitOff 1 ∧
    (a 1 0 true none).n % 64 = 0 ∧ (a 3 63 true none).n % 64 = 63 ∧ (a 3 63 true none).d.flitOff 63 = 4032 ∧
    (a 1 63 true none).crc = crcStep 0xFFFFFFFF [] ∧ crc32c ([] ++ flitBytes flit0.data) ≠ flit0.aux := by
  intros; and_intros <;> decide +kernel

/-- A whole unit of staging whose side word is its seal and one whose is not. -/
theorem witness_CopiesAndArms_seal : ∃ c : BitVec 32, crc32c (readBytes ({} : Stack).stg 0 4096) ≠ c :=
  ⟨crc32c (readBytes ({} : Stack).stg 0 4096) + 1, fun h => by
    have := congrArg (fun v => v - crc32c (readBytes ({} : Stack).stg 0 4096)) h
    simp at this⟩

/-! ### Encryption, re-keys and re-binds -/

/-- The last data unit of a stack and the first of the next; a line of the host; REKEY with and without an erase of a re-bind. -/
theorem witness_HbmSettingsAndRekeys_more :
    let d : Hdm := { base := 0, size := 0x40000000 }
    let x : Stack := { owner := some 0, keyValid := true }
    let base := linked (withStack x)
    let s : State := { base with cxl := { base.cxl with hdm := [(0, { prog := d, on := true })] } }
    let k : State := withStack { x with rekeying := true }
    let r : State := { k with rebind := { busy := true, phase := 3, act := 0x40000000, actMask := 1 } }
    dataUnit 0 (96 * 2 ^ 30 - 1) ≠ dataUnit 1 0 ∧ s.cxl.ready = true ∧ s.cxl.cmFailed = false ∧ s.dim.banked = false ∧
    (s.stack 0).rekeying = false ∧ (s.stack 0).owner ≠ none ∧ (s.stack 0).narrowQ = [] ∧ s.hdmUnit 64 = some (0, 1) ∧
    s.reaches .pf = true ∧ s.start.recovery = false ∧ (0x80000000#32).getLsbD 31 = true ∧ (k.stack 0).rekeying = true ∧
    k.rebind.erases 0 = false ∧ r.rebind.erases 0 = true ∧ (k.stack 0).snooped = [] := by
  intros; and_intros <;> decide

/-- Ports 0 and 1 of partition 0, with a descriptor in a step and one that is ready, for a new owner. -/
theorem witness_Rebinds_ports :
    let x : Port := { owner := some 0, colls := [(0, { coll0 with state := 2 }), (7, coll0)] }
    let s : State := { withPorts [(0, x), (1, upPort)] with rebind := { mask := 3 } }
    s.responds = true ∧ s.rebind.busy = false ∧ s.rebind.mask ≠ 0 ∧ s.rebind.mask.toNat < 256 ∧ (63#6).toNat = 63 ∧ (5#6).toNat < 32 ∧
    (∀ n < 8, s.rebind.mask.getLsbD n = true → (s.port n).owner = some 0 ∧ Sparse.wf {} (s.port n).colls = true) ∧
    some (5#6).toNat ≠ some 0 ∧ (s.coll 0 0).state = 2 ∧ (s.coll 0 7).valid = true ∧ (s.coll 0 7).state ≠ 2 ∧ (s.coll 0 3).valid = false := by
  intros; and_intros <;> decide

/-- A window over a stack that a hand-over takes, one of another partition, and a partition reset. -/
theorem witness_Rebinds_windows :
    let w : Win := { state := 1, part := 0, host := true, base := 0, len := 1 }
    let s : State := { State.reset with wins := [(3, w), (4, { w with part := 2 })], rebind :=
      { mask := 1, busy := true, phase := 3, act := 0x40000000, actMask := 1 } }
    s.winUnits = [] ∧ Sparse.wf {} s.wins = true ∧ s.rebind.busy = true ∧ s.rebind.phase = 3 ∧ bits s.rebind.act.toNat 31 30 = 1 ∧
    s.rebind.actMask.toNat < 4096 ∧ (s.stack 0).rekeying = false ∧ s.rebind.actMask.getLsbD 0 = true ∧ (s.win 3).state ≠ 0 ∧
    (s.stack 0).owner = some (s.win 3).part.toNat ∧ s.hbmMap 0 ((s.win 3).base.toNat + 4096 * 0) = some (0, 0) ∧ (s.win 4).part ≠ 0 ∧
    s.start.kind = 0 ∧ s.start.lmcWait = false ∧ s.start.recovery = false ∧ s.pins.power = true ∧ s.pins.snuffed = false := by
  intros; and_intros <;> decide

/-- The second hand-over of a stack: its re-key has begun; a request on a port, with and without the registers responding. -/
theorem witness_Rebinds_second :
    let s : State := { State.reset with
      hbm := [(0, { owner := some 0, rekeying := true })]
      rebind := { mask := 1, busy := true, phase := 3, act := 0x40000000, actMask := 1, quietAt := some 0 } }
    s.responds = true ∧ (s.stack 0).rekeying = true ∧ s.rebind.actMask.getLsbD 0 = true ∧ s.wins = [] ∧
    (∀ j < 32, s.rebind.actMask.getLsbD j = true → (s.stack j).rekeying = true) ∧ s.start.lmcWait = false := by
  intros; and_intros <;> decide

/-- Recovery, Snuffed and no power: registers do not respond. -/
theorem witness_Registers_unresponsive :
    let s := State.reset
    s.responds = true ∧ ({ s with start := { s.start with recovery := true } } : State).responds = false ∧
    ({ s with pins := { s.pins with power := false } } : State).responds = false ∧
    ({ s with pins := { s.pins with snuffed := true } } : State).responds = false := by
  intros; and_intros <;> decide

/-! ### Totals of scalar collectives -/

/-- A second pass at rank 1; the first pass at rank 0 of two ranks; the first pass at rank 1 whose step has a value; engines that wait. -/
theorem witness_CollectivesAndReductions_totals :
    let d3 : Coll := { coll0 with w0 := 0xB0040005, w2 := 0, state := 2, value := some 5 }
    let s (r : BitVec 32) : State := { withColl d3 { rank0 with ring := ranked r 0, ringAct := ranked r 0, mapAct := [(0, 0x80), (1, 0x81)] } with
      reds := [(0, { waiting := [3], total := some 1 })] }
    let f (pass : Nat) : Frame := { fresh with payload := payloadOf [2 ^ 62 + pass * 2 ^ 60 + 5 * 2 ^ 46] }
    Takes (s 0) 0 (f 1) ∧ (f 1).detour = none ∧ syncForm (f 1) = 1 ∧ syncPass (f 1) = 1 ∧ syncForm (f 2) = 1 ∧ syncPass (f 2) ≠ 1 ∧
    inOf 0 (f 1) = 0 ∧ pairPort 0 = 1 ∧ ((s 0).port ((s 0).exitOf 0 (f 1))).buffered < 512 ∧ ringRanked ((s 0).port 1).ringAct = true ∧
    ringRank ((s 0).port 1).ringAct = 0 ∧ ringRank ((s 1).port 1).ringAct ≠ 0 ∧ (s 0).findDir 1 3 (syncCid (f 1)) = some (1, 7) ∧
    ringPort 1 (1 / 2) = 1 ∧ d3.ringList.getD 0 4 = 1 / 2 ∧ d3.ringList = [1 / 2] ∧ ((s 0).port 1).rankCount = 2 ∧ fresh.hops ≠ 0 ∧
    ((s 1).coll 1 7).state = 2 ∧ ((s 1).coll 1 7).ringAt = 0 ∧ ((s 1).coll 1 7).value = some 5 ∧ 3 ∈ ((s 0).red d3.trigObj).waiting := by
  intros; and_intros <;> decide +kernel

/-! ### Records of a dispatch -/

/-- A file for a footprint of 1 by 2 blocks, of sections of one record each. -/
def mkSects (args : Nat) (l : List (Nat × List Byte)) : List Byte :=
  let data := 64 + 16 * l.length
  let head := leBytes 4 0x4C424E4B ++ leBytes 2 0x0100 ++ leBytes 2 0x0041 ++ leBytes 1 1 ++ leBytes 1 2 ++ leBytes 2 1 ++ leBytes 4 0 ++
    leBytes 4 l.length ++ leBytes 4 64 ++ leBytes 4 0 ++ leBytes 4 args ++ leBytes 4 0
  let table := l.zipIdx.flatMap (fun c => leBytes 2 c.1.1 ++ leBytes 2 0 ++ leBytes 4 1 ++
    leBytes 4 (data + ((l.take c.2).map (fun e => e.2.length)).sum) ++ leBytes 4 c.1.2.length)
  head ++ leBytes 4 (crc32c (head ++ table)).toNat ++ leBytes 24 0 ++ table ++ l.flatMap (·.2)

/-- Zeroed words of tile 0 at 0, ring 0 of tile 1, a CXL stream of the attach router of router column 0, row 14, and a relocation of kind `k`. -/
def recNbl (k : Nat) : List Byte := mkSects 32 [(2, leBytes 8 (2 ^ 39) ++ leBytes 8 (64 * 2 ^ 32)), (3, leBytes 8 (14 * 2 ^ 53 + 3 * 2 ^ 51)),
  (5, leBytes 8 (2 ^ 52 + 2 ^ 48 + 2 ^ 37)), (7, leBytes 8 (k * 2 ^ 56 + 7 * 2 ^ 44) ++ leBytes 8 0)]
def recImg (k : Nat) : List Byte := imageBytes (recNbl k) [(0, 0x40)] []
def recEnt (k : Nat) : List Byte := entryBytes 0x100 (recImg k).length 0xFFFFFFFF (0x100 + (recImg k).length) (if k = 4 then 1 else 0) 0 (nblHdrCrc (recNbl k))
def recCells (k : Nat) (d : List Byte) : Memory := Machine.at' 0 (recEnt k) ++ Machine.at' 0x100 (recImg k ++ lateBytes (recNbl k)) ++ Machine.at' 0x4000 d
def recTask : TaskRec := { word := taskWord (0x4000 * 2 ^ 64), preds := [], st := 1 }

/-- A stream whose descriptor keeps Table 16-5 and one whose does not; a record of kind 1 bound to 0x40 and one of kind 4, whose BASE is
the tile's ID. -/
theorem witness_TaskStarts_records :
    let good := leBytes 8 0 ++ leBytes 8 0 ++ leBytes 4 64 ++ leBytes 4 64 ++ leBytes 8 0
    let r : Run := { run1 with h := 2 }
    let s (k : Nat) (d : List Byte) : State := { placedOn (recCells k d) recTask with runs := [(1, r)] }
    let q := (s 1 good).peek 0 recTask.args 32
    (∀ k ∈ [1, 4], ((s k good).placed 1).isSome = true ∧ ((s k good).placed 1).map (fun c => c.2.2.2.file) = some (recNbl k)) ∧
    recTask.restores = false ∧ nblArgsLen (recNbl 1) = 32 ∧ recTask.args = 0x4000 ∧ fld q 0 8 % 64 = 0 ∧ fld q 16 4 = 64 ∧ fld q 24 8 = 0 ∧
    fld ((s 1 (leBytes 8 1)).peek 0 recTask.args 32) 0 8 % 64 ≠ 0 ∧ (cxlRecs (recNbl 1)).map (·.2) = [0] ∧
    (ringRecs (recNbl 1)).map (fun r => (r.rel, r.ring, r.isOpen, r.size)) = [(1, 0, true, 1)] ∧ syncSyms (recNbl 1) = [] ∧
    (loadRecs (recNbl 1)).map (fun l => (l.rel0, l.rel1, l.addr, l.len)) = [(0, 0, 0, 64)] ∧
    (relocRecs (recNbl 1)).map (fun r => (r.kind, r.rel, r.addr, r.pos, r.wm1)) = [(1, 0, 0, 0, 7)] ∧
    ((s 1 good).placed 1).map (fun c => (c.2.2.2.vals, c.2.2.1.nlate)) = some ([0x40], 0) ∧
    (relocRecs (recNbl 4)).all (fun z => z.kind ≠ 1 && z.kind ≠ 2) = true ∧
    ((s 4 good).placed 1).map (fun c => (s 4 good).lateRecs 0 c.2.2.1) = some (relocRecs (recNbl 4)) ∧
    (s 1 good).nblHeld 0 1 = false ∧ (s 1 good).heldRange 0 0x4000 32 = false ∧ ((s 1 good).run 1).fault = none ∧ Undisturbed (s 1 good) ∧
    ((s 1 good).run 1).bx0 + ((s 1 good).run 1).w ≤ 8 ∧ ((s 1 good).run 1).by0 + ((s 1 good).run 1).h ≤ 4 ∧ 0x4000 + 32 ≤ (s 1 good).psize 0 ∧
    (∀ o, o < 32 → (s 1 good).hbmMap 0 (0x4000 + o) ≠ none) ∧ (∀ c ∈ cxlRecs (recNbl 1), r.has (r.router c.1) = true) := by
  intros; and_intros <;> decide +kernel

/-! ### Further cases of other statements -/

/-- Three commands that wait. -/
theorem witness_QueueOrder_three :
    let l : List Instr := [.pwrWarnAssert, .pwrWarnDeassert, .lmcWatchdog]
    let s : State := { State.reset with pending := l }
    s.pending = l ∧ ∃ n, runQueued l s = .next n := ⟨rfl, _, rfl⟩

/-- Step 6 with power, in Snuffed and under a warning; step 7 from Snuffed and from a reset; objects that enter partition 0 and not. -/
theorem witness_Starts_six :
    let s := starting 2 6
    let q := s.part 0
    s.pins.power = true ∧ s.pins.snuffed = false ∧ s.pins.warn = false ∧ s.start.ports = false ∧
    ({ (starting 2 7).start with fromSnuffed := true } : Start).fromSnuffed = true ∧ (starting 2 7).start.fromSnuffed = false ∧
    (20000 < q.syncBase.toNat + q.syncCount.toNat ∧ q.syncBase.toNat ≤ 20000) ∧
    ((20000 : Nat) < ({ q with syncBase := 20001 } : Part).syncBase.toNat) ∧
    ({ q with blocks := 1 } : Part).blocks.getLsbD (600 / 512) = false ∧ q.blocks.getLsbD (600 / 512) = true := by
  intros; and_intros <;> decide

/-- 1 µs after the last seam window and a nanosecond before; no mailbox command that waits; 105 °C and 106; wakes that a restart of the
Lamplighter owes. -/
theorem witness_Dimming_more :
    let s (n : BitVec 64) : State := { State.reset with time := n }
    let owed : Dimmer := { State.reset.dim with owedDies := 1, owedBlocks := 2, owedBanked := true }
    (s 1000).dim.seamAt + 1000 ≤ (s 1000).time.toNat ∧ (s 999).time.toNat < (s 999).dim.seamAt + 1000 ∧ (s 0).cxl.mbox = [] ∧
    ¬ 105 < (105#8).toNat ∧ 105 < (106#8).toNat ∧ (s 0).responds = true ∧ owed.owedDies.getLsbD 0 = true ∧ owed.owedBanked = true ∧
    owed.owedBlocks ≠ 0 ∧ ({ s 0 with start := { (s 0).start with recovery := true } } : State).responds = false := by
  intros; and_intros <;> decide

/-- The mailbox within reach, while the Lamplighter restarts and not; a mailbox command that waits for its return; a DOE out of reach. -/
theorem witness_Responders_more :
    let s := linked State.reset
    let b : State := { s with start := { s.start with lmcWait := true } }
    let w : State := { b with cxl := { b.cxl with mbox := [.identify] } }
    s.ioUp 0 = true ∧ s.start.recovery = false ∧ s.start.phase = 0xFF ∧ s.start.lmcWait = false ∧ b.ioUp 0 = true ∧ b.start.lmcWait = true ∧
    w.cxl.mbox = [.identify] ∧ w.pins.power = true ∧ w.pins.snuffed = false ∧ State.reset.ioUp 0 = false ∧
    (1 ≤ (6#8).toNat ∧ (6#8).toNat ≤ 6) ∧ 6 < (7#8).toNat := by
  intros; and_intros <;> decide

/-- The LMC mailbox and the firmware commands in the same states; an image command in Snuffed. -/
theorem witness_LinkSidebandFirmware_more :
    let s := linked State.reset
    let r : State := { s with lmc := { s.lmc with cmd := 0x02000000, busy := true } }
    s.ioUp 0 = true ∧ r.pins.power = true ∧ r.pins.snuffed = false ∧ r.lmc.busy = true ∧ bits r.lmc.cmd.toNat 31 24 = 2 ∧
    ({ r with pins := { r.pins with snuffed := true } } : State).pins.snuffed = true ∧
    ({ s with start := { s.start with lmcWait := true } } : State).ioUp 0 = true := by
  intros; and_intros <;> decide

/-- A peer's write onto a stack that is being re-keyed and one that is not; the module in Banked. -/
theorem witness_RingFrames_held :
    let x : Port := { upPort with ring := ranked 1 0, ringAct := ranked 1 0 }
    let f : Frame := { fresh with aux := BitVec.ofNat 128 (2 ^ 34) }
    let w : Win := { state := 1, peer := true, part := 0, base := 0, len := 1 }
    let s (b : Bool) : State := { withPorts [(0, x), (1, upPort)] with wins := [(0, w)], hbm := [(0, { owner := some 0, rekeying := b })] }
    Takes (s true) 1 f ∧ (s true).dim.banked = false ∧ (s true).wwriteHeld 1 f = true ∧ (s false).wwriteHeld 1 f = false ∧ NoRekey (s false) ∧
    Undisturbed (s false) ∧ (s false).hbmMap 0 0 = some (0, 0) ∧ ((s true).stack 0).rekeying = true ∧
    ({ (s false).dim with banked := true } : Dimmer).banked = true := by
  intros; and_intros <;> decide

/-- A stack that is being re-keyed under an engine; a host access on one with an element that waits; Banked. -/
theorem witness_HostAccesses_more :
    let d : Hdm := { base := 0, size := 0x40000000 }
    let q : NarrowReq := ⟨5, 7, 5, 0, 1, 16, 0, 0, 0x200, List.replicate 16 1⟩
    let base := linked (withStack { owner := some 0, keyValid := true, narrowQ := [q] })
    let s : State := { base with cxl := { base.cxl with hdm := [(0, { prog := d, on := true })] } }
    (s.stack 0).narrowQ = [q] ∧ q.op = 5 ∧ s.hdmUnit 0 = some (0, q.addr / 64) ∧ q.addr % 64 + q.opnd.length ≤ 64 ∧ q.opnd.length = q.es ∧
    NoneModified s ∧ sget 0 0 (s.stack 0).bad = 0 ∧ s.cxl.ready = true ∧ s.dim.banked = false ∧
    ({ s with dim := { s.dim with banked := true } } : State).dim.banked = true := by
  intros; and_intros <;> decide

theorem witness_EngineMemoryAndReductions_held :
    let e : Engine := { queue := [job0], prog := prog0 }
    let s := withStack { owner := some 0, rekeying := true, eng := e }
    (s.engine 0).queue = [job0] ∧ (s.stack 0).rekeying = true := ⟨rfl, rfl⟩
end Sys2Proof.Tests
end

section
/-!
PROOFS. The branches, the control words, and bundles in which both words execute (R73–R78, R88, R100, R106).
-/
namespace Sys2Proof.Machine
open Sys2Proof.Safety

/-! ### A word of slot A beside a resting slot B -/

/-- The state in which the words of a bundle run: the bundle's line is fetched (R103). -/
abbrev begun (s : State) (t : TileId) : State := s.setTile t (fetched s t)

@[simp] theorem tile_begun (s : State) (t : TileId) : (begun s t).tile t = fetched s t := State.tile_setTile_same s t _

/-- The word `a` of slot A executes now without a fault: it uses no v register and no shelf, and its unit is ready. -/
structure PlainA (a : TileWord) (t : TileId) (s : State) : Prop where
  runs : hdrRuns a.hdr (fetched s t) = true
  legal : a.bad = false
  ready : a.ready t (begun s t) = true := by rfl
  noFault : a.check t (fetched s t) (begun s t) = [] := by rfl
  vd : a.vd = [] := by rfl
  vr : a.vr = [] := by rfl
  reads : a.reads = fun _ => [] := by rfl
  stores : a.stores = fun _ => [] := by rfl
  exch : a.exch = false := by rfl
  noWait : a.waits t (begun s t) = false := by rfl
  post : a.post = fun y => y := by rfl

/-- The command `i` issues such a word, which writes the g registers `gs`, beside a slot B that rests. -/
structure IssuesA (i : Instr) (a : TileWord) (gs : List (BitVec 5)) (other : Word) (t : TileId) (s : State) : Prop
    extends PlainA a t s where
  canIssue : CanIssue s t
  rests : RestsB gs [] other (fetched s t)
  gd : a.gd = gs := by rfl
  command : exec i s = .next (issue t a (decB other) s) := by rfl

theorem PlainA.isReady {a : TileWord} {t : TileId} {s : State} (h : PlainA a t s) :
    a.isReady t (fetched s t) (begun s t) = true := isReady_plain t _ _ h.vr h.vd h.reads h.stores h.ready

theorem PlainA.faults {a : TileWord} {t : TileId} {s : State} (h : PlainA a t s) :
    a.faults t (fetched s t) (begun s t) = [] := faults_plain t _ _ h.reads h.stores h.noFault

section
variable {i : Instr} {a : TileWord} {gs : List (BitVec 5)} {other : Word} {t : TileId} {s : State} {y : Tile}

/-- Such a bundle leaves the tile as its word does, and moves the PC to the word's target or past the bundle. -/
theorem IssuesA.makesTile (h : IssuesA i a gs other t s)
    (hrun : OnlyTile t (begun s t) (a.exec t (fetched s t) (begun s t)))
    (hy : (a.exec t (fetched s t) (begun s t)).tile t = y) :
    MakesTile i t s { y with
      pc := (a.target (fetched s t)).elim ((fetched s t).pc + 16) (BitVec.ofNat 32)
      hold := none } := by
  obtain ⟨n, hn, rfl, htile⟩ := issue_slotA h.canIssue h.rests (pair_slotA h.rests h.gd h.vd (.inl h.exch)) h.legal h.runs
    h.isReady h.faults h.noWait
  refine ⟨_, h.command, ((OnlyTile.setTile t s _).trans hrun).trans hn, ?_⟩
  rw [htile, hy, h.post, fetched_pc, ← pc_next]
  cases a.target (fetched s t) <;> rfl

theorem IssuesA.makes_past (h : IssuesA i a gs other t s)
    (hrun : OnlyTile t (begun s t) (a.exec t (fetched s t) (begun s t)))
    (hy : (a.exec t (fetched s t) (begun s t)).tile t = y)
    (ht : a.target (fetched s t) = none) (hpc : y.pc = (fetched s t).pc) : MakesTile i t s (pastBundle y) := by
  have hm := h.makesTile hrun hy
  rw [ht, Option.elim_none, ← hpc] at hm
  exact hm

theorem IssuesA.makes_branch {p : Word} (h : IssuesA i a gs other t s)
    (hrun : OnlyTile t (begun s t) (a.exec t (fetched s t) (begun s t)))
    (hy : (a.exec t (fetched s t) (begun s t)).tile t = y)
    (ht : a.target (fetched s t) = some p.toNat) : MakesTile i t s (branchesTo y p) := by
  have hm := h.makesTile hrun hy
  rw [ht, Option.elim_some] at hm
  exact hm

/-- A word that reads no shelf works on a state that agrees with the one before it in every tile. -/
theorem exec_noReads {w : TileWord} (hr : w.reads = fun _ => []) (t : TileId) (old : Tile) (s : State)
    (hx : hdrRuns w.hdr old = true) :
    ∃ m, OnlyTile t s m ∧ m.tile t = s.tile t ∧ w.exec t old s = w.run t old m := by
  unfold TileWord.exec
  rw [hr, hx]
  simp only [Bool.not_true, Bool.false_eq_true, if_false]
  split
  · exact ⟨s, .refl t s, rfl, rfl⟩
  · exact ⟨_, .modTile t s _, by simp, rfl⟩

/-- A word without an effect of its own leaves its tile alone. -/
theorem exec_idle {w : TileWord} (hw : w.run = fun _ _ s => s) (hr : w.reads = fun _ => []) (t : TileId) (old : Tile) (s : State)
    (hx : hdrRuns w.hdr old = true) : OnlyTile t s (w.exec t old s) ∧ (w.exec t old s).tile t = s.tile t := by
  obtain ⟨m, hm, hmt, he⟩ := exec_noReads hr t old s hx
  rw [he, hw]
  exact ⟨hm, hmt⟩

/-- The word changes its tile's registers by `f` and goes on. -/
theorem IssuesA.onTile_past {f : Tile → Tile → Tile} (h : IssuesA i a gs other t s) (hf : a.run = onTile f)
    (ht : a.target (fetched s t) = none) (hpc : (f (fetched s t) (fetched s t)).pc = (fetched s t).pc) :
    MakesTile i t s (pastBundle (f (fetched s t) (fetched s t))) := by
  obtain ⟨hrun, hy⟩ := exec_onTile hf h.reads t (fetched s t) (begun s t) h.runs
  rw [tile_begun] at hy
  exact h.makes_past hrun hy ht hpc

/-- The word changes its tile's registers by `f` and branches. -/
theorem IssuesA.onTile_branches {f : Tile → Tile → Tile} {p : Word} (h : IssuesA i a gs other t s) (hf : a.run = onTile f)
    (ht : a.target (fetched s t) = some p.toNat) :
    MakesTile i t s (branchesTo (f (fetched s t) (fetched s t)) p) := by
  obtain ⟨hrun, hy⟩ := exec_onTile hf h.reads t (fetched s t) (begun s t) h.runs
  rw [tile_begun] at hy
  exact h.makes_branch hrun hy ht

/-- The word has no effect of its own and goes on. -/
theorem IssuesA.idle_past (h : IssuesA i a gs other t s) (hf : a.run = fun _ _ s => s) (ht : a.target (fetched s t) = none) :
    MakesTile i t s (pastBundle (fetched s t)) := by
  obtain ⟨hrun, hy⟩ := exec_idle hf h.reads t (fetched s t) (begun s t) h.runs
  rw [tile_begun] at hy
  exact h.makes_past hrun hy ht rfl

/-- The word has no effect of its own and branches. -/
theorem IssuesA.idle_branches {p : Word} (h : IssuesA i a gs other t s) (hf : a.run = fun _ _ s => s)
    (ht : a.target (fetched s t) = some p.toNat) : MakesTile i t s (branchesTo (fetched s t) p) := by
  obtain ⟨hrun, hy⟩ := exec_idle hf h.reads t (fetched s t) (begun s t) h.runs
  rw [tile_begun] at hy
  exact h.makes_branch hrun hy ht

end

/-! ### Branches (R88) -/

section
variable {t : TileId} {h : Hdr} {o : OpI} {other : Word} {s : State}

/-- The target of a branch word relative to the PC (R88). -/
def relWord (o : OpI) (x : Tile) : Word := x.pc.zeroExtend 64 + BitVec.ofInt 64 (16 * o.imm.toInt)

theorem relTarget_eq (o : OpI) (x : Tile) : relTarget o x = (relWord o x).toNat := rfl

/-- A bundle of Shelf N. -/
abbrev InShelfN (a : Word) : Prop := a.toNat < 0x100000 ∧ a.toNat % 16 = 0

/-- A branch to a bundle of Shelf N raises no fault (R105). -/
theorem branchCheck_inShelfN {a : Word} (ha : InShelfN a) : branchCheck (some a.toNat) = [] := by
  obtain ⟨hlt, hmod⟩ := ha
  simp [branchCheck, badTarget, hmod, hlt]

theorem b_branches (hi : CanIssue s t) (hx : hdrRuns h (fetched s t) = true) (hb : RestsB [] [] other (fetched s t))
    (hrd : o.rd = 0) (hra : o.ra = 0) (hsh : o.sh = 0) (hres : o.res = 0) (hN : InShelfN (relWord o (fetched s t))) :
    MakesTile (.b t h o other) t s (branchesTo (fetched s t) (relWord o (fetched s t))) :=
  have hA : IssuesA (.b t h o other) (wordB h o) [] other t s :=
    { canIssue := hi, rests := hb, runs := hx
      legal := by simp [wordB, wBranch, hrd, hra, hsh, hres]
      noFault := branchCheck_inShelfN hN }
  hA.idle_branches rfl rfl

/-- The link of BL: the address of the bundle after it. -/
theorem link_eq (p : BitVec 32) : BitVec.ofNat 64 (p.toNat + 16) = p.zeroExtend 64 + 16 := by
  bv_omega

theorem bl_links_and_branches (hi : CanIssue s t) (hx : hdrRuns h (fetched s t) = true)
    (hb : RestsB [o.rd] [] other (fetched s t)) (hra : o.ra = 0) (hsh : o.sh = 0) (hres : o.res = 0)
    (hN : InShelfN (relWord o (fetched s t))) :
    MakesTile (.bl t h o other) t s
      (branchesTo ((fetched s t).setG o.rd ((fetched s t).pc.zeroExtend 64 + 16)) (relWord o (fetched s t))) := by
  have hA : IssuesA (.bl t h o other) (wordBl h o) [o.rd] other t s :=
    { canIssue := hi, rests := hb, runs := hx
      legal := by simp [wordBl, wBl, hra, hsh, hres]
      noFault := branchCheck_inShelfN hN }
  rw [← link_eq]
  exact hA.onTile_branches (f := fun old x => x.setG o.rd (BitVec.ofNat 64 (old.pc.toNat + 16))) rfl rfl

theorem jr_branches (hi : CanIssue s t) (hx : hdrRuns h (fetched s t) = true) (hb : RestsB [] [] other (fetched s t))
    (hrd : o.rd = 0) (himm : o.imm = 0) (hsh : o.sh = 0) (hres : o.res = 0) (hN : InShelfN ((fetched s t).g o.ra)) :
    MakesTile (.jr t h o other) t s (branchesTo (fetched s t) ((fetched s t).g o.ra)) :=
  have hA : IssuesA (.jr t h o other) (wordJr h o) [] other t s :=
    { canIssue := hi, rests := hb, runs := hx
      legal := by simp [wordJr, wJr, hrd, himm, hsh, hres]
      noFault := branchCheck_inShelfN hN }
  hA.idle_branches rfl rfl

theorem dbnzTarget_of_one {x : Tile} (h1 : x.g o.ra = 1) : dbnzTarget o x = none := by
  simp [dbnzTarget, h1]

theorem dbnzTarget_of_ne_one {x : Tile} (h1 : x.g o.ra ≠ 1) : dbnzTarget o x = some (relWord o x).toNat := by
  have h0 : x.g o.ra - 1 ≠ 0 := fun h0 => h1 (by bv_omega)
  rw [dbnzTarget, if_pos h0, relTarget_eq]

theorem dbnz_issues (hi : CanIssue s t) (hx : hdrRuns h (fetched s t) = true) (hb : RestsB [o.ra] [] other (fetched s t))
    (hrd : o.rd = 0) (hsh : o.sh = 0) (hres : o.res = 0) (hc : branchCheck (dbnzTarget o (fetched s t)) = []) :
    IssuesA (.dbnz t h o other) (wordDbnz h o) [o.ra] other t s :=
  { canIssue := hi, rests := hb, runs := hx
    legal := by simp [wordDbnz, wDbnz, hrd, hsh, hres]
    noFault := hc }

theorem dbnz_falls_through (hi : CanIssue s t) (hx : hdrRuns h (fetched s t) = true)
    (hb : RestsB [o.ra] [] other (fetched s t)) (hrd : o.rd = 0) (hsh : o.sh = 0) (hres : o.res = 0)
    (h1 : (fetched s t).g o.ra = 1) :
    MakesTile (.dbnz t h o other) t s (pastBundle ((fetched s t).setG o.ra ((fetched s t).g o.ra - 1))) := by
  have ht := dbnzTarget_of_one h1
  have hA := dbnz_issues hi hx hb hrd hsh hres (by rw [ht]; rfl)
  exact hA.onTile_past (f := fun old x => x.setG o.ra (old.g o.ra - 1)) rfl ht (setG_pc _ _ _)

theorem dbnz_branches (hi : CanIssue s t) (hx : hdrRuns h (fetched s t) = true)
    (hb : RestsB [o.ra] [] other (fetched s t)) (hrd : o.rd = 0) (hsh : o.sh = 0) (hres : o.res = 0)
    (h1 : (fetched s t).g o.ra ≠ 1) (hN : InShelfN (relWord o (fetched s t))) :
    MakesTile (.dbnz t h o other) t s
      (branchesTo ((fetched s t).setG o.ra ((fetched s t).g o.ra - 1)) (relWord o (fetched s t))) := by
  have ht := dbnzTarget_of_ne_one h1
  have hA := dbnz_issues hi hx hb hrd hsh hres (by rw [ht]; exact branchCheck_inShelfN hN)
  exact hA.onTile_branches (f := fun old x => x.setG o.ra (old.g o.ra - 1)) rfl ht

end

/-! ### Bundles that hold (R73) -/

section
variable {t : TileId} {a b : TileWord} {s : State}

/-- A bundle whose slot A is not ready holds whole: neither word changes anything but the fetched line. -/
theorem issue_held (hi : CanIssue s t) (ha : a.bad = false) (hb : b.bad = false) (hp : pairBad a b = false)
    (hr : a.isReady t (fetched s t) (begun s t) = false) (hh : a.onHold = none) :
    issue t a b s = begun s t := by
  obtain ⟨hcan, hpc, hfetch⟩ := hi
  have hfill : s.modTile t (fun y => y.fill ((s.tile t).pc.toNat / 256)) = begun s t := rfl
  unfold issue
  simp [hcan, Nat.not_le.2 hpc, hfill, hfetch, ha, hb, hp, hr, holdBundle, hh]

theorem makesTile_held {i : Instr} (he : exec i s = .next (issue t a b s)) (hi : CanIssue s t) (ha : a.bad = false)
    (hb : b.bad = false) (hp : pairBad a b = false)
    (hr : a.isReady t (fetched s t) (begun s t) = false) (hh : a.onHold = none) :
    MakesTile i t s (fetched s t) := by
  rw [issue_held hi ha hb hp hr hh] at he
  exact ⟨_, he, .setTile t s _, State.tile_setTile_same s t _⟩

/-- A word whose unit is not ready is not ready. -/
theorem isReady_unready {w : TileWord} {x : Tile} (hx : hdrRuns w.hdr x = true) (hu : w.ready t s = false) :
    w.isReady t x s = false := by
  simp [TileWord.isReady, hx, hu]

end

/-! ### Fetching takes no beat -/

@[simp] theorem touchWord_pilotAt (x : Tile) (w : Nat) : (x.touchWord w).pilotAt = x.pilotAt := by
  unfold Tile.touchWord; split <;> [rfl; (split <;> rfl)]

@[simp] theorem touchWord_lost (x : Tile) (w : Nat) : (x.touchWord w).lost = x.lost := by
  unfold Tile.touchWord; split <;> [rfl; (split <;> rfl)]

/-- The ECC effects of reads keep every field that those of one word and the count of corrected rows keep. -/
theorem touch_keeps {α : Type} (f : Tile → α) (hw : ∀ x w, f (x.touchWord w) = f x)
    (hc : ∀ (x : Tile) (c : BitVec 32), f { x with shelfCe := c } = f x) (x : Tile) (l : List (Nat × Nat)) :
    f (x.touch l) = f x := by
  have hfold : ∀ (ws : List Nat) (y : Tile), f (ws.foldl Tile.touchWord y) = f y := by
    intro ws
    induction ws with
    | nil => exact fun _ => rfl
    | cons w ws ih => exact fun y => (ih _).trans (hw y w)
  unfold Tile.touch
  split
  · rfl
  · exact (hfold _ _).trans (hc x _)

theorem fetched_keeps {α : Type} (f : Tile → α) (hw : ∀ x w, f (x.touchWord w) = f x)
    (hc : ∀ (x : Tile) (c : BitVec 32), f { x with shelfCe := c } = f x)
    (hl : ∀ (x : Tile) (l : Sparse IbufLine), f { x with ibuf := l } = f x) (s : State) (t : TileId) :
    f (fetched s t) = f (s.tile t) := by
  unfold fetched Tile.fill
  split
  · rfl
  · exact (hl _ _).trans (touch_keeps f hw hc _ _)

/-- Only the tile's own pilot and lost beats and the beats of the dies count. -/
theorem beats_of_onlyTile {t : TileId} {s m : State} (hm : OnlyTile t s m) (hp : (m.tile t).pilotAt = (s.tile t).pilotAt)
    (hl : (m.tile t).lost = (s.tile t).lost) : m.beats t = s.beats t := by
  have hE : m.beatsE = s.beatsE := (congrArg State.beatsE hm.rest :)
  have hW : m.beatsW = s.beatsW := (congrArg State.beatsW hm.rest :)
  simp only [State.beats, hp, hl, hE, hW]

theorem beats_begun (s : State) (t : TileId) : (begun s t).beats t = s.beats t := by
  refine beats_of_onlyTile (.setTile t s _) ?_ ?_ <;> rw [State.tile_setTile_same]
  · exact fetched_keeps Tile.pilotAt touchWord_pilotAt (fun _ _ => rfl) (fun _ _ => rfl) s t
  · exact fetched_keeps Tile.lost touchWord_lost (fun _ _ => rfl) (fun _ _ => rfl) s t

/-! ### NOP, IFLUSH, FENCE, TSTAMP and BEATS (R78, R100, R106, R114) -/

section
variable {t : TileId} {h : Hdr} {o : OpI} {other : Word} {s : State}

theorem nop_passes (hi : CanIssue s t) (hb : RestsB [] [] other (fetched s t)) :
    MakesTile (.nop t 0 other) t s (pastBundle (fetched s t)) :=
  have hA : IssuesA (.nop t 0 other) (nopWord 0) [] other t s := { canIssue := hi, rests := hb, runs := rfl, legal := rfl }
  hA.idle_past rfl rfl

/-- The shelf writes of a tile are complete when no drain waits in its queue. -/
theorem stored_iff (x : Tile) : x.stored = true ↔ ∀ e ∈ x.queue, e.op ≠ .adrain := by
  simp [Tile.stored]

theorem stored_false_iff (x : Tile) : x.stored = false ↔ ∃ e ∈ x.queue, e.op = .adrain := by
  simp [Tile.stored]

theorem iflush_legal (hrd : o.rd = 0) (hra : o.ra = 0) (hsh : o.sh = 0) (hres : o.res = 0) (himm : o.imm = 0) :
    (wordIflush h o).bad = false := by
  simp [wordIflush, wIflush, hrd, hra, hsh, hres, himm]

theorem fence_legal (hrd : o.rd = 0) (hra : o.ra = 0) (hsh : o.sh = 0) (hres : o.res = 0) (himm : o.imm = 0) :
    (wordFence h o).bad = false := by
  simp [wordFence, wFence, hrd, hra, hsh, hres, himm]

theorem iflush_ready (x : Tile) : (wordIflush h o).ready t (s.setTile t x) = x.stored := by
  simp [wordIflush, wIflush]

theorem fence_ready (x : Tile) : (wordFence h o).ready t (s.setTile t x) = (decide (x.sends = []) && x.stored) := by
  simp [wordFence, wFence]

theorem tstamp_exec (x : Tile) (hx : hdrRuns h x = true) :
    OnlyTile t s ((wordTstamp h o).exec t x s) ∧ ((wordTstamp h o).exec t x s).tile t = (s.tile t).setG o.rd s.time := by
  obtain ⟨m, hm, hmt, he⟩ := exec_noReads (w := wordTstamp h o) rfl t x s hx
  have htime : m.time = s.time := (congrArg State.time hm.rest :)
  rw [he, ← hmt, ← htime]
  exact ⟨hm.trans (.modTile t m (·.setG o.rd m.time)), State.tile_modTile_same m t _⟩

theorem beats_exec (x : Tile) (hx : hdrRuns h x = true) :
    OnlyTile t s ((wordBeats h o).exec t x s) ∧
      ((wordBeats h o).exec t x s).tile t = (s.tile t).setG o.rd (BitVec.ofNat 64 (s.beats t)) := by
  obtain ⟨m, hm, hmt, he⟩ := exec_noReads (w := wordBeats h o) rfl t x s hx
  have hbeats : m.beats t = s.beats t := beats_of_onlyTile hm (by rw [hmt]) (by rw [hmt])
  rw [he, ← hmt, ← hbeats]
  exact ⟨hm.trans (.modTile t m (·.setG o.rd (BitVec.ofNat 64 (m.beats t)))), State.tile_modTile_same m t _⟩

end

section
variable {t : TileId} {h : Hdr} {o : OpI} {other : Word} {s : State}
variable (hi : CanIssue s t) (hx : hdrRuns h (fetched s t) = true) (hb : RestsB [o.rd] [] other (fetched s t))
  (hra : o.ra = 0) (hsh : o.sh = 0) (hres : o.res = 0) (himm : o.imm = 0)
include hi hx hb hra hsh hres himm

theorem tstamp_reads_time :
    MakesTile (.tstamp t h o other) t s (pastBundle ((fetched s t).setG o.rd s.time)) := by
  have hA : IssuesA (.tstamp t h o other) (wordTstamp h o) [o.rd] other t s :=
    { canIssue := hi, rests := hb, runs := hx, legal := by simp [wordTstamp, wTstamp, hra, hsh, hres, himm] }
  obtain ⟨hrun, hy⟩ := tstamp_exec (s := begun s t) (t := t) (o := o) (fetched s t) hx
  rw [tile_begun, State.setTile_time] at hy
  exact hA.makes_past hrun hy rfl (setG_pc _ _ _)

theorem beats_reads_beats :
    MakesTile (.beats t h o other) t s (pastBundle ((fetched s t).setG o.rd (BitVec.ofNat 64 (s.beats t)))) := by
  have hA : IssuesA (.beats t h o other) (wordBeats h o) [o.rd] other t s :=
    { canIssue := hi, rests := hb, runs := hx, legal := by simp [wordBeats, wBeats, hra, hsh, hres, himm] }
  obtain ⟨hrun, hy⟩ := beats_exec (s := begun s t) (t := t) (o := o) (fetched s t) hx
  rw [tile_begun, beats_begun] at hy
  exact hA.makes_past hrun hy rfl (setG_pc _ _ _)

end

/-- A slot B that rests beside a word that writes `gs` rests beside one that writes nothing. -/
theorem restsB_nil {gs : List (BitVec 5)} {other : Word} {x : Tile} (h : RestsB gs [] other x) : RestsB [] [] other x := by
  obtain ⟨hbad, -, -, hrest⟩ := h
  exact ⟨hbad, by simp, by simp, hrest⟩

section
variable {t : TileId} {h : Hdr} {o : OpI} {other : Word} {s : State}
variable (hi : CanIssue s t) (hx : hdrRuns h (fetched s t) = true) (hb : RestsB [] [] other (fetched s t))
  (hrd : o.rd = 0) (hra : o.ra = 0) (hsh : o.sh = 0) (hres : o.res = 0) (himm : o.imm = 0)
include hi hx hb hrd hra hsh hres himm

theorem iflush_empties (hq : (fetched s t).stored = true) :
    MakesTile (.iflush t h o other) t s (pastBundle { fetched s t with ibuf := [] }) :=
  have hA : IssuesA (.iflush t h o other) (wordIflush h o) [] other t s :=
    { canIssue := hi, rests := hb, runs := hx, legal := iflush_legal hrd hra hsh hres himm
      ready := (iflush_ready _).trans hq }
  hA.onTile_past (f := fun _ x => { x with ibuf := [] }) rfl rfl rfl

theorem fence_passes (hq : (fetched s t).stored = true) (hsends : (fetched s t).sends = []) :
    MakesTile (.fence t h o other) t s (pastBundle (fetched s t)) :=
  have hA : IssuesA (.fence t h o other) (wordFence h o) [] other t s :=
    { canIssue := hi, rests := hb, runs := hx, legal := fence_legal hrd hra hsh hres himm
      ready := by rw [fence_ready, hsends, hq]; rfl }
  hA.idle_past rfl rfl

theorem iflush_holds (hq : (fetched s t).stored = false) : MakesTile (.iflush t h o other) t s (fetched s t) :=
  makesTile_held rfl hi (iflush_legal hrd hra hsh hres himm) hb.1 (pair_slotA hb rfl rfl (.inl rfl))
    (isReady_unready hx ((iflush_ready _).trans hq)) rfl

theorem fence_holds (hu : (fetched s t).sends ≠ [] ∨ (fetched s t).stored = false) :
    MakesTile (.fence t h o other) t s (fetched s t) :=
  makesTile_held rfl hi (fence_legal hrd hra hsh hres himm) hb.1 (pair_slotA hb rfl rfl (.inl rfl))
    (isReady_unready hx (by rw [fence_ready]; rcases hu with hu | hu <;> simp [hu])) rfl

end

/-! ### Bundles in which both words execute (R73–R75) -/

section
variable {i : Instr} {a b : TileWord} {t : TileId} {s m n : State} {z : Tile}

/-- A bundle of two ready words without a fault: slot A and then slot B take effect, and the PC moves past the bundle. -/
theorem makesTileB_both (he : exec i s = .next (issue t a b s)) (hi : CanIssue s t) (ha : a.bad = false) (hb : b.bad = false)
    (hp : pairBad a b = false)
    (hra : a.isReady t (fetched s t) (begun s t) = true) (hrb : b.isReady t (fetched s t) (begun s t) = true)
    (hm : a.exec t (fetched s t) (begun s t) = m) (hn : b.exec t (fetched s t) m = n)
    (hfa : a.faults t (fetched s t) (begun s t) = []) (hfb : b.faults t (fetched s t) m = [])
    (hA : OnlyTile t (begun s t) m) (hB : OnlyTile t m n) (hz : n.tile t = z) (hpc : z.pc = (fetched s t).pc)
    (hwait : a.waits t (begun s t) = false := by rfl) (ht : a.target (fetched s t) = none := by rfl)
    (hpost : a.post = fun y => y := by rfl) (hd : b.doom t (fetched s t) m = none := by rfl) :
    MakesTileB i t s (pastBundle z) := by
  obtain ⟨hcan, hlt, hfetch⟩ := hi
  have hfill : s.modTile t (fun y => y.fill ((s.tile t).pc.toNat / 256)) = begun s t := rfl
  obtain ⟨hsample, htile⟩ := sampleWord_only b t (fetched s t) n
  have hissue : issue t a b s = (sampleWord b t (fetched s t) n).modTile t
      (fun y => { y with pc := BitVec.ofNat 32 ((s.tile t).pc.toNat + 16), hold := none }) := by
    unfold issue
    simp [hcan, Nat.not_le.2 hlt, hfill, hfetch, ha, hb, hp, hra, hrb, hfa, hfb, hwait, ht, hpost, hd, hm, hn]
  refine ⟨_, he, ?_, ?_⟩ <;> rw [hissue]
  · exact ((((OnlyTile.setTile t s _).trans hA).trans hB).trans hsample).trans (.modTile t _ _)
  · rw [State.tile_modTile_same, htile, hz, pc_next]
    simp only [pastBundle, hpc, fetched_pc]

end

/-! ### Rows of equal elements and rows of loaded elements -/

theorem packNat_lt (w : Nat) (l : List Nat) : packNat w l < 2 ^ (w * l.length) := by
  induction l with
  | nil => simp [packNat]
  | cons x r ih =>
    have hx : x % 2 ^ w < 2 ^ w := Nat.mod_lt _ (Nat.two_pow_pos w)
    have hr : 2 ^ w * (packNat w r + 1) ≤ 2 ^ w * 2 ^ (w * r.length) := Nat.mul_le_mul_left _ ih
    calc packNat w (x :: r) = x % 2 ^ w + 2 ^ w * packNat w r := rfl
      _ < 2 ^ w * (packNat w r + 1) := by rw [Nat.mul_add, Nat.mul_one]; omega
      _ ≤ 2 ^ w * 2 ^ (w * r.length) := hr
      _ = 2 ^ (w * (x :: r).length) := by rw [← Nat.pow_add, List.length_cons, Nat.mul_add, Nat.mul_one, Nat.add_comm]

/-- Element `j` of packed elements. -/
theorem packNat_element (w : Nat) (l : List Nat) (j : Nat) : packNat w l >>> (w * j) % 2 ^ w = l.getD j 0 % 2 ^ w := by
  induction l generalizing j with
  | nil => simp [packNat]
  | cons x r ih =>
    cases j with
    | zero => simp [packNat]
    | succ j =>
      have hx : (x % 2 ^ w + 2 ^ w * packNat w r) / 2 ^ w = packNat w r := by
        rw [Nat.add_mul_div_left _ _ (Nat.two_pow_pos w), Nat.div_eq_of_lt (Nat.mod_lt _ (Nat.two_pow_pos w)), Nat.zero_add]
      rw [packNat, Nat.mul_succ, Nat.add_comm (w * j), Nat.shiftRight_add, Nat.shiftRight_eq_div_pow _ w, hx, ih,
        List.getD_cons_succ]

theorem packNat_mod {w n : Nat} {l : List Nat} (hl : w * l.length ≤ n) : packNat w l % 2 ^ n = packNat w l :=
  Nat.mod_eq_of_lt ((packNat_lt w l).trans_le (Nat.pow_le_pow_right Nat.two_pos hl))

/-- A row holds the elements that are packed into it (R44). -/
theorem elt_packRow {w : Nat} {l : List Nat} (hl : w * l.length ≤ 1024) (j : Nat) : elt w (packRow w l) j = l.getD j 0 % 2 ^ w := by
  have hrow : (packRow w l).toNat = packNat w l := (BitVec.toNat_ofNat _ _).trans (packNat_mod hl)
  rw [elt, hrow, packNat_element]

@[simp] theorem length_elems (w : Nat) (v : Row) : (elems w v).length = 1024 / w := by simp [elems]

/-- Lane mask v0 as VM leaves every lane active (R83). -/
@[simp] theorem active_zero (x : Tile) (w j : Nat) : active x 0#5 w j = true := rfl

theorem maskRow_unmasked (x : Tile) {w : Nat} (dst : Row) {new : List Nat} (hl : new.length = 1024 / w) :
    maskRow x 0 w dst new = packRow w new := by
  unfold maskRow
  congr 1
  apply List.ext_getElem <;> simp [hl]

theorem loadRow_unmasked (x : Tile) (w : Nat) (dst : Row) (f : Nat → Nat) :
    wVld.maskRow' x 0 w dst f = packRow w ((List.range (1024 / w)).map f) := by
  unfold wVld.maskRow'
  congr 1
  apply List.ext_getElem <;> simp

/-! ### Bytes stored and loaded -/

theorem at'_cons (a : Nat) (b : Byte) (l : List Byte) : at' a (b :: l) = (a, b) :: at' (a + 1) l := by
  simp only [at', List.zipIdx_cons, List.map_cons, Nat.add_zero, Nat.zero_add, List.zipIdx_succ, List.map_map]
  congr 2
  funext c
  simp [Nat.add_assoc, Nat.add_comm 1]

theorem mem_at' {a : Nat} {l : List Byte} {c : Nat × Byte} (hc : c ∈ at' a l) : a ≤ c.1 ∧ c.1 < a + l.length := by
  obtain ⟨⟨v, k⟩, hk, rfl⟩ := List.mem_map.1 hc
  have := List.snd_lt_of_mem_zipIdx hk
  simp at this ⊢
  omega

@[simp] theorem length_leBytes (n v : Nat) : (leBytes n v).length = n := by
  induction n generalizing v with
  | zero => rfl
  | succ n ih => simp [leBytes, ih]

/-- A little-endian store reads back as the value it wrote. -/
theorem readLE_stored (m : Memory) (a n v : Nat) :
    readLE ((at' a (leBytes n v)).foldl (fun m c => writeByte m c.1 c.2) m) a n = v % 256 ^ n := by
  induction n generalizing m a v with
  | zero => simp [readLE, Nat.mod_one]
  | succ n ih =>
    have hlow : readByte ((at' (a + 1) (leBytes n (v / 256))).foldl (fun m c => writeByte m c.1 c.2)
        (writeByte m a (BitVec.ofNat 8 v))) a = BitVec.ofNat 8 v := by
      rw [readByte_foldl_other _ (fun c hc => by have := (mem_at' hc).1; omega), readByte_writeByte_same]
    have hbyte : (BitVec.ofNat 8 v).toNat = v % 256 := BitVec.toNat_ofNat v 8
    rw [leBytes, at'_cons, List.foldl_cons, readLE, hlow, ih, hbyte, Nat.pow_succ', Nat.mod_mul]

theorem readByte_stored_other (m : Memory) {a c : Nat} (l : List Byte) (hc : c < a ∨ a + l.length ≤ c) :
    readByte ((at' a l).foldl (fun m c => writeByte m c.1 c.2) m) c = readByte m c :=
  readByte_foldl_other _ fun x hx hxc => by
    obtain ⟨hlo, hhi⟩ := mem_at' hx
    omega

theorem readLE_lt (m : Memory) (a n : Nat) : readLE m a n < 256 ^ n := by
  induction n generalizing a with
  | zero => simp [readLE]
  | succ n ih =>
    have h0 := (readByte m a).isLt
    have h1 := ih (a + 1)
    rw [readLE, Nat.pow_succ']
    omega

/-! ### Readiness, faults and effects of words that meet no queued word and no marked word -/

/-- A word that uses no shelf is ready when its unit is and no AMOV still writes its v registers (R95). -/
theorem isReady_vector {w : TileWord} (t : TileId) {x : Tile} (s : State) (hr : w.reads = fun _ => [])
    (hs : w.stores = fun _ => []) (hu : w.ready t s = true) (hv : VReady x (w.vr ++ w.vd)) : w.isReady t x s = true := by
  have hamov : x.queue.any (fun e => e.op = .amov && (w.vr ++ w.vd).contains e.o.rb) = false := by
    simp only [List.any_eq_false, Bool.and_eq_true, decide_eq_true_eq, List.contains_iff_mem, not_and]
    exact hv
  simp only [TileWord.isReady, TileWord.storeRanges, hu, hamov, hr, hs, List.map_nil, meets_none, Bool.and_false, Bool.not_false,
    Bool.and_self, Bool.or_true]

theorem isReady_emptyQueue {w : TileWord} (t : TileId) {x : Tile} (s : State) (hq : x.queue = []) (hu : w.ready t s = true) :
    w.isReady t x s = true := by
  simp [TileWord.isReady, hq, hu]

/-- Over shelves without a marked word, only the word's own check can find a fault. -/
theorem faults_sound {w : TileWord} {t : TileId} {old : Tile} {s : State} (hc : w.check t old s = []) (hbad : (s.tile t).bad = []) :
    w.faults t old s = [] := by
  simp [TileWord.faults, hc, hbad]

/-- Over shelves without a marked word and without a ring, a word has its own effect alone. -/
theorem exec_sound {w : TileWord} {t : TileId} {old : Tile} {s : State} (hx : hdrRuns w.hdr old = true)
    (hbad : (s.tile t).bad = []) (hrings : (s.tile t).rings = []) : w.exec t old s = w.run t old s := by
  simp [TileWord.exec, hx, hbad, hrings]

/-! ### A scalar word beside a broadcast (R74) -/

/-- A row of 32 elements, each the low 32 bits of a word. -/
def broadcastRow (v : Word) : Row := packRow 32 (List.replicate 32 (v.toNat % 2 ^ 32))

theorem elt_broadcastRow (v : Word) {j : Nat} (hj : j < 32) : elt 32 (broadcastRow v) j = v.toNat % 2 ^ 32 := by
  rw [broadcastRow, elt_packRow (by simp), List.getD_replicate _ hj, Nat.mod_mod]

section
variable {t : TileId} {ha hb : Hdr} {ob : OpR} {other : Word} {s : State}

theorem exec_vbcg : exec (.vbcg t hb ob other) s = .next (issue t (decA other) (wordVbcg hb ob) s) := rfl

theorem vbcg_legal (hfmt : ob.fmt = 0) (hrm : ob.rm = 0) (hrb : ob.rb = 0) (hrc : ob.rc = 0) (hfn : ob.fn = 0) :
    (wordVbcg hb ob).bad = false := by
  simp [wordVbcg, wVbcg, hfmt, hrm, hrb, hrc, hfn]

theorem vbcg_run (hfmt : ob.fmt = 0) (hvm : ob.vm = 0) :
    (wordVbcg hb ob).run = onTile fun old x => x.setV ob.rd (broadcastRow (old.g ob.ra)) := by
  have hw : wOf ob.fmt = 32 := by rw [hfmt]; rfl
  simp only [wordVbcg, wVbcg, hw, hvm]
  refine congrArg onTile (funext fun old => funext fun x => ?_)
  rw [maskRow_unmasked old (old.v ob.rd) (by simp), broadcastRow]

/-- Without g and v destinations in common, a word of slot A pairs with VBCG (R92). -/
theorem pair_vbcg {a : TileWord} (hvd : a.vd = []) (hex : a.exch = false) : pairBad a (wordVbcg hb ob) = false := by
  simp [pairBad, wordVbcg, wVbcg, hvd, hex]

section
variable (hi : CanIssue s t)
  (hfmt : ob.fmt = 0) (hrm : ob.rm = 0) (hrb : ob.rb = 0) (hrc : ob.rc = 0) (hfn : ob.fn = 0)
include hi hfmt hrm hrb hrc hfn

/-- A word of slot A that changes its tile's registers by `f` beside VBCG: the broadcast value is read before the bundle. -/
theorem vbcg_beside {a : TileWord} {f : Tile → Tile → Tile} (hvm : ob.vm = 0) (hdec : decA other = a) (ha : PlainA a t s)
    (hx : hdrRuns hb (fetched s t) = true) (hv : VReady (fetched s t) [ob.ra, ob.rb, ob.rc, ob.vm, ob.rd])
    (hf : a.run = onTile f) (ht : a.target (fetched s t) = none)
    (hpc : (f (fetched s t) (fetched s t)).pc = (fetched s t).pc) :
    ∃ r : Row, MakesTileB (.vbcg t hb ob other) t s (pastBundle ((f (fetched s t) (fetched s t)).setV ob.rd r)) ∧
      ∀ j < 32, elt 32 r j = ((fetched s t).g ob.ra).toNat % 2 ^ 32 := by
  have hvb : VReady (fetched s t) ((wordVbcg hb ob).vr ++ (wordVbcg hb ob).vd) := fun e he hop hmem => hv e he hop (by
    have : e.o.rb = ob.vm ∨ e.o.rb = ob.rd := by simpa [wordVbcg, wVbcg] using hmem
    rcases this with h | h <;> simp [h])
  obtain ⟨hA, hAt⟩ := exec_onTile hf ha.reads t (fetched s t) (begun s t) ha.runs
  obtain ⟨hB, hBt⟩ := exec_onTile (vbcg_run (hb := hb) hfmt hvm) rfl t (fetched s t) (a.exec t (fetched s t) (begun s t)) hx
  rw [tile_begun] at hAt
  rw [hAt] at hBt
  refine ⟨broadcastRow ((fetched s t).g ob.ra), ?_, fun j hj => elt_broadcastRow _ hj⟩
  exact makesTileB_both (hdec ▸ exec_vbcg) hi ha.legal (vbcg_legal hfmt hrm hrb hrc hfn) (pair_vbcg ha.vd ha.exch)
    ha.isReady (isReady_vector t _ rfl rfl rfl hvb) rfl rfl ha.faults (faults_plain t _ _ rfl rfl rfl) hA hB hBt
    ((setV_pc _ _ _).trans hpc) ha.noWait ht ha.post

/-- A FENCE that waits for a send holds the VBCG beside it (R73, R100). -/
theorem vbcg_held_by_fence {oa : OpI} (hdec : decA other = wordFence ha oa) (hxa : hdrRuns ha (fetched s t) = true)
    (hrd : oa.rd = 0) (hra : oa.ra = 0) (hsh : oa.sh = 0) (hres : oa.res = 0) (himm : oa.imm = 0)
    (hsends : (fetched s t).sends ≠ []) : MakesTile (.vbcg t hb ob other) t s (fetched s t) :=
  makesTile_held (hdec ▸ exec_vbcg) hi (fence_legal hrd hra hsh hres himm) (vbcg_legal hfmt hrm hrb hrc hfn)
    (pair_vbcg rfl rfl) (isReady_unready hxa (by rw [fence_ready]; simp [hsends])) rfl

end

variable {oa : OpR}

theorem add_legal (hrm : oa.rm = 0) (hvm : oa.vm = 0) (hrc : oa.rc = 0) (hfn : oa.fn = 0) (hfmt : oa.fmt = 0xF) :
    (wordAdd ha oa).bad = false := by
  simp [wordAdd, wAlu, okA, hrm, hvm, hrc, hfn, hfmt]

theorem add_run (hfmt : oa.fmt = 0xF) :
    (wordAdd ha oa).run = onTile fun old x => x.setG oa.rd (old.g oa.ra + old.g oa.rb) := by
  simp [wordAdd, wAlu, atWidth, aluAdd, hfmt]

theorem ceq_legal (hrm : oa.rm = 0) (hvm : oa.vm = 0) (hrc : oa.rc = 0) (hfn : oa.fn = 0) (hfmt : oa.fmt = 0xF)
    (hrd : oa.rd.toNat < 8) : (wordCeq ha oa).bad = false := by
  simp [wordCeq, wCmp, okA, hrm, hvm, hrc, hfn, hfmt, hrd]

theorem ceq_run (hfmt : oa.fmt = 0xF) :
    (wordCeq ha oa).run = onTile fun old x => x.setP (oa.rd.truncate 3) (decide (old.g oa.ra = old.g oa.rb)) := by
  simp [wordCeq, wCmp, Rel.at, Rel.holds, hfmt, beq_eq_decide]

end

/-! ### A store beside a load (R75) -/

/-- Clearing marks where there is none leaves none. -/
theorem clearMarks_nil (ws : List Nat) : ws.foldl (fun b w => sput 0 w 0 b) ([] : Sparse Nat) = [] := by
  induction ws with
  | nil => rfl
  | cons w ws ih => exact ih

/-- Over shelves without a marked word and without a ring, a store writes its bytes alone. -/
theorem storeProg_sound {t : TileId} {s : State} (l : List (Nat × Byte)) (hbad : (s.tile t).bad = [])
    (hrings : (s.tile t).rings = []) :
    storeProg t l s = s.setTile t { s.tile t with shelf := l.foldl (fun m c => writeByte m c.1 c.2) (s.tile t).shelf } := by
  have hput : (s.tile t).put l = { s.tile t with shelf := l.foldl (fun m c => writeByte m c.1 c.2) (s.tile t).shelf } := by
    rw [Tile.put, hbad, clearMarks_nil, ← hbad]
  simp [storeProg, hput, Tile.inRingFree, hrings]

theorem elemAddr_first {o : OpM} {x : Tile} (hm : o.mode = 0) : elemAddr o x 0 = (x.g o.rb + o.off.signExtend 64).toNat := by
  simp [elemAddr, hm, memBase]

theorem badElem_false {sz a : Nat} (hlt : a < 0x400000) (hmod : a % sz = 0) : badElem sz a = false := by
  simp [badElem, shelfEnd, Nat.not_le.2 hlt, hmod]

/-- A v register and the shelves are written apart. -/
theorem setV_withShelf (x : Tile) (m : Memory) (r : BitVec 5) (v : Row) :
    ({ x with shelf := m } : Tile).setV r v = { x.setV r v with shelf := m } := rfl

theorem withShelf_pc (x : Tile) (m : Memory) : ({ x with shelf := m } : Tile).pc = x.pc := rfl

/-- A row of 32 loaded elements of 4 bytes. -/
def loadedRow (m : Memory) (addr : Nat → Nat) : Row := packRow 32 ((List.range 32).map fun j => readLE m (addr j) 4)

theorem elt_loadedRow (m : Memory) (addr : Nat → Nat) {j : Nat} (hj : j < 32) :
    elt 32 (loadedRow m addr) j = readLE m (addr j) 4 := by
  have hlt : readLE m (addr j) 4 < 2 ^ 32 := readLE_lt m (addr j) 4
  rw [loadedRow, elt_packRow (by simp), List.getD_eq_getElem _ _ (by simpa using hj), List.getElem_map, List.getElem_range,
    Nat.mod_eq_of_lt hlt]

section
variable {t : TileId} {ha hb : Hdr} {oa ob : OpM} {other : Word} {s : State}

theorem exec_st : exec (.st t ha oa other) s = .next (issue t (wordSt ha oa) (decB other) s) := rfl

theorem st_legal (hfmt : oa.fmt = 0xF) (hmode : oa.mode = 0) (hstride : oa.stride = 0) (hvm : oa.vm = 0) :
    (wordSt ha oa).bad = false := by
  simp [wordSt, wStore, okMA, hfmt, hmode, hstride, hvm]

theorem vld_legal (hfmt : ob.fmt = 0) (hmode : ob.mode = 0) (hstride : ob.stride = 0) : (wordVld hb ob).bad = false := by
  simp [wordVld, wVld, okMB, hfmt, hmode, hstride]

/-- A scalar store of 8 bytes inside the shelves and aligned passes its check (R84). -/
theorem st_check {x : Tile} (hfmt : oa.fmt = 0xF) (hlt : elemAddr oa x 0 < 0x400000) (hmod : elemAddr oa x 0 % 8 = 0) :
    (wordSt ha oa).check t x s = [] := by
  have hsz : memSize oa.fmt = 8 := by rw [hfmt]; rfl
  simp [wordSt, wStore, scalarCheck, hsz, badElem_false hlt hmod]

/-- The bytes that a store of a 64-bit register leaves. -/
def storedShelf (oa : OpM) (x : Tile) : Memory :=
  (at' (elemAddr oa x 0) (leBytes 8 (x.g oa.rt).toNat)).foldl (fun m c => writeByte m c.1 c.2) x.shelf

theorem st_exec {x : Tile} (hfmt : oa.fmt = 0xF) (hx : hdrRuns ha x = true) (htile : s.tile t = x) (hbad : x.bad = [])
    (hrings : x.rings = []) : (wordSt ha oa).exec t x s = s.setTile t { x with shelf := storedShelf oa x } := by
  have hsz : memSize oa.fmt = 8 := by rw [hfmt]; rfl
  subst htile
  rw [exec_sound (w := wordSt ha oa) hx hbad hrings]
  simp only [wordSt, wStore, hsz, storedShelf]
  exact storeProg_sound _ hbad hrings

/-- A vector load of aligned elements inside the shelves passes its check (R84). -/
theorem vld_check {x : Tile} (hfmt : ob.fmt = 0)
    (helems : ∀ j < 32, elemAddr ob x j < 0x400000 ∧ elemAddr ob x j % 4 = 0) : (wordVld hb ob).check t x s = [] := by
  have hsz : memSize ob.fmt = 4 := by rw [hfmt]; rfl
  have hfind : ((memActive ob x).map (elemAddr ob x)).find? (badElem 4) = none := by
    simp only [List.find?_eq_none, List.mem_map, memActive, activeList, List.mem_filter, List.mem_range, hsz]
    rintro _ ⟨j, ⟨hj, -⟩, rfl⟩
    obtain ⟨hlt, hmod⟩ := helems j hj
    simp [badElem_false hlt hmod]
  simp only [wordVld, wVld, vecCheck, hsz, hfind]

theorem vld_run (hfmt : ob.fmt = 0) (hvm : ob.vm = 0) :
    (wordVld hb ob).run = onTile fun old x => x.setV ob.rt (loadedRow x.shelf (elemAddr ob old)) := by
  have hsz : memSize ob.fmt = 4 := by rw [hfmt]; rfl
  simp only [wordVld, wVld, hsz, hvm, loadRow_unmasked]
  rfl

/-- A load of slot B sees what the store of slot A wrote. -/
theorem st_then_vld (hi : CanIssue s t) (hxa : hdrRuns ha (fetched s t) = true) (hxb : hdrRuns hb (fetched s t) = true)
    (hdec : decB other = wordVld hb ob)
    (hfa : oa.fmt = 0xF) (hma : oa.mode = 0) (hsa : oa.stride = 0) (hva : oa.vm = 0)
    (hfb : ob.fmt = 0) (hmb : ob.mode = 0) (hsb : ob.stride = 0) (hvb : ob.vm = 0)
    (hq : (fetched s t).queue = []) (hbad : (fetched s t).bad = []) (hrings : (fetched s t).rings = [])
    (hlt : elemAddr oa (fetched s t) 0 < 0x400000) (hmod : elemAddr oa (fetched s t) 0 % 8 = 0)
    (helems : ∀ j < 32, elemAddr ob (fetched s t) j < 0x400000 ∧ elemAddr ob (fetched s t) j % 4 = 0) :
    MakesTileB (.st t ha oa other) t s (pastBundle
      { (fetched s t).setV ob.rt (loadedRow (storedShelf oa (fetched s t)) (elemAddr ob (fetched s t))) with
        shelf := storedShelf oa (fetched s t) }) := by
  have hA := st_exec hfa hxa (tile_begun s t) hbad hrings
  set m := (begun s t).setTile t { fetched s t with shelf := storedShelf oa (fetched s t) } with hm
  have hmt : m.tile t = { fetched s t with shelf := storedShelf oa (fetched s t) } := State.tile_setTile_same _ t _
  have hB : (wordVld hb ob).exec t (fetched s t) m =
      m.modTile t fun x => x.setV ob.rt (loadedRow x.shelf (elemAddr ob (fetched s t))) := by
    rw [exec_sound (w := wordVld hb ob) hxb (by rw [hmt]; exact hbad) (by rw [hmt]; exact hrings), vld_run hfb hvb]
    rfl
  exact makesTileB_both (hdec ▸ exec_st) hi (st_legal hfa hma hsa hva) (vld_legal hfb hmb hsb) rfl
    (isReady_emptyQueue t _ hq rfl) (isReady_emptyQueue t _ hq rfl) hA hB
    (faults_sound (st_check hfa hlt hmod) (by rw [tile_begun]; exact hbad))
    (faults_sound (vld_check hfb helems) (by rw [hmt]; exact hbad))
    (.setTile t _ _) (.modTile t m _) (by rw [State.tile_modTile_same, hmt, setV_withShelf])
    ((withShelf_pc _ _).trans (setV_pc _ _ _))

end

/-! ### The statement -/

/-- Settles O6: each word alone beside a resting slot B, then the bundles in which both words execute. -/
theorem branchesAndControl : Obligations.BranchesAndControl := by
  unfold Obligations.BranchesAndControl
  refine ⟨?branches, ?control, ?both, ?held, ?storeLoad⟩
  case branches =>
    intro t h o other s hi hx hsh hres
    refine ⟨fun hb hrd hra hN => b_branches hi hx hb hrd hra hsh hres hN,
      fun hb hra hN => bl_links_and_branches hi hx hb hra hsh hres hN,
      fun hb hrd himm hN => jr_branches hi hx hb hrd himm hsh hres hN,
      fun hb hrd => ⟨fun h1 => dbnz_falls_through hi hx hb hrd hsh hres h1,
        fun h1 hN => dbnz_branches hi hx hb hrd hsh hres h1 hN⟩⟩
  case control =>
    intro t h o other s hi
    refine ⟨nop_passes hi, fun hx hra hsh hres himm hb => ⟨fun hrd hq => ?_, fun hrd hq => ?_, fun hrd hsends => ?_,
      tstamp_reads_time hi hx hb hra hsh hres himm, beats_reads_beats hi hx hb hra hsh hres himm⟩⟩
    · have hstored := (stored_iff _).2 hq
      exact ⟨iflush_empties hi hx (restsB_nil hb) hrd hra hsh hres himm hstored,
        fence_passes hi hx (restsB_nil hb) hrd hra hsh hres himm hstored⟩
    · have hstored := (stored_false_iff _).2 hq
      exact ⟨iflush_holds hi hx (restsB_nil hb) hrd hra hsh hres himm hstored,
        fence_holds hi hx (restsB_nil hb) hrd hra hsh hres himm (.inr hstored)⟩
    · exact fence_holds hi hx (restsB_nil hb) hrd hra hsh hres himm (.inl hsends)
  case both =>
    intro t ha hb oa ob other s hi hxa hxb hrm hvm hrc hfn hfmtB hrmB hvmB hrbB hrcB hfnB hv
    exact ⟨fun hdec hfmt => vbcg_beside hi hfmtB hrmB hrbB hrcB hfnB hvmB hdec
        { runs := hxa, legal := add_legal hrm hvm hrc hfn hfmt } hxb hv (add_run hfmt) rfl (setG_pc _ _ _),
      fun hdec hfmt hrd => vbcg_beside hi hfmtB hrmB hrbB hrcB hfnB hvmB hdec
        { runs := hxa, legal := ceq_legal hrm hvm hrc hfn hfmt hrd } hxb hv (ceq_run hfmt) rfl (setP_pc _ _ _)⟩
  case held =>
    intro t ha hb oa ob other s hi hxa hdec hrd hra hsh hres himm hsends hfmt hrm _ hrb hrc hfn
    exact vbcg_held_by_fence hi hfmt hrm hrb hrc hfn hdec hxa hrd hra hsh hres himm hsends
  case storeLoad =>
    intro t ha hb oa ob other s hi hxa hxb hdec hfa hma hsa hva hfb hmb hsb hvb x a hq hbad hrings hlt hmod helems
    have haddr : elemAddr oa x 0 = a := elemAddr_first hma
    refine ⟨_, storedShelf oa x, st_then_vld hi hxa hxb hdec hfa hma hsa hva hfb hmb hsb hvb hq hbad hrings
      (haddr ▸ hlt) (haddr ▸ hmod) helems, ?_, fun c hc => ?_, fun j hj => elt_loadedRow _ _ hj⟩
    · rw [storedShelf, haddr, readLE_stored]
      exact Nat.mod_eq_of_lt (x.g oa.rt).isLt
    · rw [storedShelf, haddr]
      exact readByte_stored_other _ _ (by simpa using hc)

end Sys2Proof.Machine
end

section
/-!
PROOFS. The compare words and the predicate words (R111, R112).
-/
namespace Sys2Proof.Machine
open Sys2Proof.Safety

/-! ### Sign extension keeps every relation -/

theorem sx_inj (a b : BitVec 32) : sx a = sx b ↔ a = b := by
  rw [← BitVec.toInt_inj, ← BitVec.toInt_inj, sx, sx, BitVec.toInt_signExtend_of_le (by decide),
    BitVec.toInt_signExtend_of_le (by decide)]

theorem sx_toInt (a : BitVec 32) : (sx a).toInt = a.toInt := BitVec.toInt_signExtend_of_le (by decide)

/-- Sign extension adds the same amount to every value of the upper half, and nothing to one of the lower half. -/
theorem sx_toNat (a : BitVec 32) : (sx a).toNat = a.toNat + if 2 ^ 31 ≤ a.toNat then 2 ^ 64 - 2 ^ 32 else 0 := by
  have hlt := a.isLt
  have hmod : a.toNat % 2 ^ 64 = a.toNat := Nat.mod_eq_of_lt (by omega)
  rw [sx, BitVec.toNat_signExtend, BitVec.toNat_setWidth, hmod, BitVec.msb_eq_decide]
  simp

theorem sx_toNat_lt (a b : BitVec 32) : (sx a).toNat < (sx b).toNat ↔ a.toNat < b.toNat := by
  have ha := a.isLt
  have hb := b.isLt
  rw [sx_toNat, sx_toNat]
  split <;> split <;> omega

/-! ### The relations (R111) -/

section
variable {w : Nat} (a b : BitVec w)

theorem Rel.holds_eq : Rel.eq.holds a b = decide (a = b) := rfl
theorem Rel.holds_lt : Rel.lt.holds a b = decide (a.toInt < b.toInt) := rfl
theorem Rel.holds_ltu : Rel.ltu.holds a b = decide (a.toNat < b.toNat) := rfl

theorem Rel.holds_ne : Rel.ne.holds a b = decide (a ≠ b) := by
  rw [decide_not]; rfl

theorem Rel.holds_ge : Rel.ge.holds a b = decide (b.toInt ≤ a.toInt) := by
  rw [← decide_eq_decide.2 Int.not_lt, decide_not]; rfl

theorem Rel.holds_geu : Rel.geu.holds a b = decide (b.toNat ≤ a.toNat) := by
  rw [← decide_eq_decide.2 Nat.not_lt, decide_not]; rfl

end

/-- A relation of 32-bit values is that of the values sign-extended. -/
theorem Rel.holds_sx (r : Rel) (a b : BitVec 32) : r.holds (sx a) (sx b) = r.holds a b := by
  cases r with
  | eq => rw [holds_eq, holds_eq, decide_eq_decide.2 (sx_inj a b)]
  | ne => rw [holds_ne, holds_ne, decide_eq_decide.2 (not_congr (sx_inj a b))]
  | lt => rw [holds_lt, holds_lt, sx_toInt, sx_toInt]
  | ge => rw [holds_ge, holds_ge, sx_toInt, sx_toInt]
  | ltu => rw [holds_ltu, holds_ltu, decide_eq_decide.2 (sx_toNat_lt a b)]
  | geu => rw [holds_geu, holds_geu, decide_eq_decide]; simpa using not_congr (sx_toNat_lt a b)

/-- What a compare word compares of a g register: FMT 0xF all of it, FMT 0x0 its low 32 bits. -/
def cmpOperand (fmt : BitVec 4) (v : Word) : Word := if fmt = 0xF then v else sx (v.truncate 32)

theorem Rel.at_eq (r : Rel) (fmt : BitVec 4) (a b : Word) :
    r.at fmt a b = r.holds (cmpOperand fmt a) (cmpOperand fmt b) := by
  unfold Rel.at cmpOperand
  split
  · rfl
  · exact (r.holds_sx _ _).symm

/-! ### Each form beside a resting slot B -/

section
variable {i : Instr} {t : TileId} {h : Hdr} {other : Word} {s : State}
  (hi : CanIssue s t) (hx : hdrRuns h (fetched s t) = true)
include hi hx

/-- A compare word sets its predicate to what its relation says of the operands at the width of FMT. -/
theorem cmp_sets {o : OpR} {r : Rel} {v : Prop} [Decidable v]
    (he : exec i s = .next (issue t (wCmp r h o) (decB other) s)) (hb : RestsB [] [] other (fetched s t))
    (hfmt : o.fmt = 0xF ∨ o.fmt = 0) (hrm : o.rm = 0) (hvm : o.vm = 0) (hrc : o.rc = 0) (hfn : o.fn = 0)
    (hrd : o.rd.toNat < 8)
    (hv : r.holds (cmpOperand o.fmt ((fetched s t).g o.ra)) (cmpOperand o.fmt ((fetched s t).g o.rb)) = decide v) :
    MakesTile i t s (pastBundle ((fetched s t).setP (o.rd.truncate 3) (decide v))) := by
  have hA : IssuesA i (wCmp r h o) [] other t s :=
    { canIssue := hi, rests := hb, runs := hx, command := he
      legal := by rcases hfmt with hfmt | hfmt <;> simp [wCmp, okA, hfmt, hrm, hvm, hrc, hfn, hrd] }
  rw [← hv, ← Rel.at_eq]
  exact hA.onTile_past (f := fun old x => x.setP (o.rd.truncate 3) (r.at o.fmt (old.g o.ra) (old.g o.rb))) rfl rfl
    (setP_pc _ _ _)

/-- An immediate compare word does so for all 64 bits. -/
theorem cmpImm_sets {o : OpI} {r : Rel} {v : Prop} [Decidable v]
    (he : exec i s = .next (issue t (wCmpI r h o) (decB other) s)) (hb : RestsB [] [] other (fetched s t))
    (hsh : o.sh ≠ 3) (hres : o.res = 0) (hrd : o.rd.toNat < 8)
    (hv : r.holds ((fetched s t).g o.ra) (immOf o) = decide v) :
    MakesTile i t s (pastBundle ((fetched s t).setP (o.rd.truncate 3) (decide v))) := by
  have hA : IssuesA i (wCmpI r h o) [] other t s :=
    { canIssue := hi, rests := hb, runs := hx, command := he
      legal := by simpa [wCmpI, okI, hres, hrd] using hsh }
  rw [← hv]
  exact hA.onTile_past (f := fun old x => x.setP (o.rd.truncate 3) (r.holds (old.g o.ra) (immOf o))) rfl rfl (setP_pc _ _ _)

variable {o : OpR} (hok : okP o = true)
include hok

/-- PAND, POR, PXOR and PANDN combine two predicates. -/
theorem pred_sets {f : Bool → Bool → Bool} (he : exec i s = .next (issue t (wPred f h o) (decB other) s))
    (hb : RestsB [] [] other (fetched s t)) (hrd : o.rd.toNat < 8) (hra : o.ra.toNat < 8) (hrb : o.rb.toNat < 8) :
    MakesTile i t s (pastBundle ((fetched s t).setP (o.rd.truncate 3)
      (f ((fetched s t).p (o.ra.truncate 3)) ((fetched s t).p (o.rb.truncate 3))))) := by
  have hA : IssuesA i (wPred f h o) [] other t s :=
    { canIssue := hi, rests := hb, runs := hx, command := he
      legal := by simp [wPred, hok, hrd, hra, hrb] }
  exact hA.onTile_past
    (f := fun old x => x.setP (o.rd.truncate 3) (f (old.p (o.ra.truncate 3)) (old.p (o.rb.truncate 3)))) rfl rfl
    (setP_pc _ _ _)

theorem pmov_sets (hb : RestsB [] [] other (fetched s t)) (hrd : o.rd.toNat < 8) (hrb : o.rb = 0) :
    MakesTile (.pmov t h o other) t s
      (pastBundle ((fetched s t).setP (o.rd.truncate 3) (((fetched s t).g o.ra).getLsbD 0))) := by
  have hA : IssuesA (.pmov t h o other) (wordPmov h o) [] other t s :=
    { canIssue := hi, rests := hb, runs := hx
      legal := by simp [wordPmov, wPmov, hok, hrd, hrb] }
  exact hA.onTile_past (f := fun old x => x.setP (o.rd.truncate 3) ((old.g o.ra).getLsbD 0)) rfl rfl (setP_pc _ _ _)

theorem pget_sets (hb : RestsB [o.rd] [] other (fetched s t)) (hra : o.ra.toNat < 8) (hrb : o.rb = 0) :
    MakesTile (.pget t h o other) t s
      (pastBundle ((fetched s t).setG o.rd (if (fetched s t).p (o.ra.truncate 3) then 1 else 0))) := by
  have hA : IssuesA (.pget t h o other) (wordPget h o) [o.rd] other t s :=
    { canIssue := hi, rests := hb, runs := hx
      legal := by simp [wordPget, wPget, hok, hra, hrb] }
  exact hA.onTile_past (f := fun old x => x.setG o.rd (if old.p (o.ra.truncate 3) then 1 else 0)) rfl rfl (setG_pc _ _ _)

end

/-! ### The statement -/

/-- Settles O4: each compare word by its relation, and each predicate word by its own effect. -/
theorem predicates : Obligations.Predicates := by
  unfold Obligations.Predicates
  refine ⟨⟨?registers, ?immediates⟩, ?words⟩
  case registers =>
    intro t h o other s hi hb hx hfmt hrm hvm hrc hfn hrd
    exact ⟨cmp_sets hi hx rfl hb hfmt hrm hvm hrc hfn hrd (Rel.holds_eq _ _),
      cmp_sets hi hx rfl hb hfmt hrm hvm hrc hfn hrd (Rel.holds_ne _ _),
      cmp_sets hi hx rfl hb hfmt hrm hvm hrc hfn hrd (Rel.holds_lt _ _),
      cmp_sets hi hx rfl hb hfmt hrm hvm hrc hfn hrd (Rel.holds_ge _ _),
      cmp_sets hi hx rfl hb hfmt hrm hvm hrc hfn hrd (Rel.holds_ltu _ _),
      cmp_sets hi hx rfl hb hfmt hrm hvm hrc hfn hrd (Rel.holds_geu _ _)⟩
  case immediates =>
    intro t h o other s hi hb hx hsh hres hrd
    exact ⟨cmpImm_sets hi hx rfl hb hsh hres hrd (Rel.holds_eq _ _), cmpImm_sets hi hx rfl hb hsh hres hrd (Rel.holds_ne _ _),
      cmpImm_sets hi hx rfl hb hsh hres hrd (Rel.holds_lt _ _), cmpImm_sets hi hx rfl hb hsh hres hrd (Rel.holds_ge _ _),
      cmpImm_sets hi hx rfl hb hsh hres hrd (Rel.holds_ltu _ _), cmpImm_sets hi hx rfl hb hsh hres hrd (Rel.holds_geu _ _)⟩
  case words =>
    intro t h o other s hi hx hrc hfmt hrm hvm hfn
    have hok : okP o = true := by simp [okP, hrc, hfmt, hrm, hvm, hfn]
    exact ⟨fun hb hrd hra hrb => ⟨pred_sets hi hx hok (f := (· && ·)) rfl hb hrd hra hrb,
        pred_sets hi hx hok (f := (· || ·)) rfl hb hrd hra hrb, pred_sets hi hx hok (f := (· ^^ ·)) rfl hb hrd hra hrb,
        pred_sets hi hx hok (f := (· && !·)) rfl hb hrd hra hrb⟩,
      fun hb hrd hrb => pmov_sets hi hx hok hb hrd hrb, fun hb hra hrb => pget_sets hi hx hok hb hra hrb⟩

end Sys2Proof.Machine
end

section
/-!
PROOFS. The scalar loads and stores (R84, R113), and the bundle whose only fault is that of its slot-A word (R93, R94).
-/
namespace Sys2Proof.Machine
open Sys2Proof.Safety

/-! ### Writing a tile twice -/

theorem sins_sins_self {α : Type} (k : Nat) (v : α) (m : Sparse α) : sins k v (sins k v m) = sins k v m := by
  induction m with
  | nil => simp [sins]
  | cons c m ih =>
    obtain ⟨j, x⟩ := c
    by_cases hlt : k < j
    · simp [sins, hlt]
    · by_cases heq : j = k
      · simp [sins, heq]
      · simp [sins, hlt, heq, ih]

theorem sput_sput_self {α : Type} [DecidableEq α] (d : α) (k : Nat) (v : α) (m : Sparse α) :
    sput d k v (sput d k v m) = sput d k v m := by
  unfold sput
  split
  · simp [sdel]
  · exact sins_sins_self k v m

@[simp] theorem setTile_setTile_self (s : State) (t : TileId) (x : Tile) : (s.setTile t x).setTile t x = s.setTile t x := by
  simp only [State.setTile, sput_sput_self]

/-! ### What reading the shelves leaves alone -/

@[simp] theorem touchWord_shelf (x : Tile) (w : Nat) : (x.touchWord w).shelf = x.shelf := by
  unfold Tile.touchWord; split <;> [rfl; (split <;> rfl)]

@[simp] theorem touch_shelf (x : Tile) (rs : List (Nat × Nat)) : (x.touch rs).shelf = x.shelf :=
  touch_keeps Tile.shelf touchWord_shelf (fun _ _ => rfl) x rs

@[simp] theorem noteReads_shelf (x : Tile) (rs : List (Nat × Nat)) : (x.noteReads rs).shelf = x.shelf := by
  unfold Tile.noteReads; split <;> rfl

@[simp] theorem noteReads_pc (x : Tile) (rs : List (Nat × Nat)) : (x.noteReads rs).pc = x.pc := by
  unfold Tile.noteReads; split <;> rfl

theorem touch_unmarked {x : Tile} (hbad : x.bad = []) (rs : List (Nat × Nat)) : x.touch rs = x := by
  simp [Tile.touch, hbad]

theorem noteReads_ringless {x : Tile} (hrings : x.rings = []) (rs : List (Nat × Nat)) : x.noteReads rs = x := by
  simp [Tile.noteReads, hrings]

/-! ### What a store writes -/

theorem sget_foldl_sput {α : Type} [DecidableEq α] (d v : α) (ks : List Nat) (m : Sparse α) (k : Nat) :
    sget d k (ks.foldl (fun b j => sput d j v b) m) = if k ∈ ks then v else sget d k m := by
  induction ks generalizing m with
  | nil => rfl
  | cons j ks ih =>
    rw [List.foldl_cons, ih, sget_sput]
    by_cases hk : k ∈ ks <;> simp [hk]

/-- A write clears the marks of the words that it writes and no other (R217, R219). -/
theorem put_mark (x : Tile) (l : List (Nat × Byte)) (w : Nat) :
    (x.put l).mark w = if w ∈ l.map (·.1 / 8) then 0 else x.mark w := by
  rw [Tile.mark, Tile.put, sget_foldl_sput]
  simp only [List.mem_dedup]
  rfl

/-- A store that meets no free space of a ring writes its bytes alone. -/
theorem storeProg_outsideFree {t : TileId} {s : State} {l : List (Nat × Byte)}
    (hfree : ∀ w ∈ l.map (·.1 / 8), (s.tile t).inRingFree w = false) : storeProg t l s = s.setTile t ((s.tile t).put l) := by
  have hnone : ((l.map (·.1 / 8)).dedup).filter ((s.tile t).put l).inRingFree = [] :=
    List.filter_eq_nil_iff.2 fun w hw hin => by
      have hout : ((s.tile t).put l).inRingFree w = false := hfree w (List.mem_dedup.1 hw)
      exact Bool.false_ne_true (hout.symm.trans hin)
  simp only [storeProg, hnone, if_true]

/-- An aligned element lies in one word of the shelves. -/
theorem map_word_at' {a sz : Nat} (hsz : sz ∣ 8) (hmod : a % sz = 0) (v w : Nat) :
    w ∈ (at' a (leBytes sz v)).map (·.1 / 8) ↔ w = a / 8 := by
  obtain ⟨q, hq⟩ := hsz
  obtain ⟨b, rfl⟩ := Nat.dvd_of_mod_eq_zero hmod
  have hpos : 0 < sz := Nat.pos_of_ne_zero (by rintro rfl; simp at hq)
  have hword (c : Nat) (hlo : sz * b ≤ c) (hhi : c < sz * b + sz) : c / 8 = sz * b / 8 := by
    have hindex : c / sz = b :=
      Nat.div_eq_of_lt_le (by rwa [Nat.mul_comm]) (by rwa [Nat.mul_comm, Nat.mul_add, Nat.mul_one])
    rw [hq, ← Nat.div_div_eq_div_mul, ← Nat.div_div_eq_div_mul, hindex, Nat.mul_div_cancel_left _ hpos]
  constructor
  · intro hw
    obtain ⟨c, hc, rfl⟩ := List.mem_map.1 hw
    obtain ⟨hlo, hhi⟩ := mem_at' hc
    rw [length_leBytes] at hhi
    exact hword c.1 hlo hhi
  · rintro rfl
    obtain ⟨n, rfl⟩ := Nat.exists_eq_succ_of_ne_zero hpos.ne'
    simp [leBytes, at'_cons]

theorem div_mem_wordsOf {a sz : Nat} (hpos : sz ≠ 0) : a / 8 ∈ wordsOf a sz := by
  simp [wordsOf, hpos]

/-! ### A word of slot A that reads or writes the shelves -/

section
variable {a : TileWord} {t : TileId} {x old : Tile} {s : State}

/-- A word of no v register is ready when its unit is and it meets no queued matrix word (R46, R147). -/
theorem isReady_noClash (hvr : a.vr = []) (hvd : a.vd = []) (hu : a.ready t s = true)
    (hq : queueClash x.queue (a.reads x) (a.storeRanges x) = false) : a.isReady t x s = true := by
  simp [TileWord.isReady, hvr, hvd, hu, hq]

/-- A word whose check passes and that meets no uncorrectable word raises nothing. -/
theorem faults_noBad (hc : a.check t old s = []) (hr : (s.tile t).firstBad (a.reads old) = none)
    (hw : (s.tile t).badMerge (a.stores old) = none) : a.faults t old s = [] := by
  simp [TileWord.faults, hc, hr, hw]

/-- A word works on its tile after the ECC effects and the ring effects of its reads (R216, R293). -/
theorem exec_afterReads (hx : hdrRuns a.hdr old = true) :
    ∃ m, OnlyTile t s m ∧ m.tile t = ((s.tile t).touch (a.reads old)).noteReads (a.reads old) ∧
      a.exec t old s = a.run t old m := by
  unfold TileWord.exec
  simp only [hx, Bool.not_true, Bool.false_eq_true, if_false]
  split
  case isTrue hsound =>
    simp only [Bool.and_eq_true, decide_eq_true_eq] at hsound
    obtain ⟨hbad, hrings⟩ := hsound
    exact ⟨s, .refl t s, by rw [touch_unmarked hbad, noteReads_ringless hrings], rfl⟩
  case isFalse => exact ⟨_, .modTile t s _, State.tile_modTile_same s t _, rfl⟩

end

section
variable {i : Instr} {a : TileWord} {gs : List (BitVec 5)} {other : Word} {t : TileId} {s : State}
  (hi : CanIssue s t) (hb : RestsB gs [] other (fetched s t)) (hx : hdrRuns a.hdr (fetched s t) = true)
  (he : exec i s = .next (issue t a (decB other) s)) (ha : a.bad = false) (hgd : a.gd = gs)
include hi hb hx he ha hgd

/-- A word of slot A that is ready and raises nothing makes the tile that its effect gives, and moves the PC past the bundle. -/
theorem makesTile_ready {y : Tile} (hr : a.isReady t (fetched s t) (begun s t) = true)
    (hf : a.faults t (fetched s t) (begun s t) = [])
    (hrun : OnlyTile t (begun s t) (a.exec t (fetched s t) (begun s t)))
    (hy : (a.exec t (fetched s t) (begun s t)).tile t = y) (hpc : y.pc = (fetched s t).pc)
    (hvd : a.vd = [] := by rfl) (hex : a.exch = false := by rfl) (hw : a.waits t (begun s t) = false := by rfl)
    (ht : a.target (fetched s t) = none := by rfl) (hpost : a.post = fun y => y := by rfl) :
    MakesTile i t s (pastBundle y) := by
  obtain ⟨n, hn, rfl, htile⟩ := issue_slotA hi hb (pair_slotA hb hgd hvd (.inl hex)) ha hx hr hf hw
  refine ⟨_, he, ((OnlyTile.setTile t s _).trans hrun).trans hn, ?_⟩
  rw [htile, hy, hpost, ht]
  simp only [pastBundle, hpc, fetched_pc, pc_next]

end

/-! ### A bundle that faults by its slot-A word (R93, R94) -/

/-- A resting slot B has read nothing. -/
theorem restsB_touchReads {gs vs : List (BitVec 5)} {other : Word} {s : State} {t : TileId}
    (h : RestsB gs vs other (fetched s t)) : (decB other).touchReads t (fetched s t) (begun s t) = begun s t := by
  obtain ⟨-, -, -, rfl | hoff⟩ := h
  · have hnone : (fetched s t).touch ((nopWord 0).reads (fetched s t) ++
        (partialWords ((nopWord 0).stores (fetched s t))).map (fun k => (8 * k, 8))) = fetched s t := Tile.touch_nil _
    rw [decB_zero, TileWord.touchReads]
    split
    · rfl
    · rw [State.modTile_eq, tile_begun, hnone, setTile_setTile_self]
  · simp [TileWord.touchReads, hoff]

section
variable {i : Instr} {a : TileWord} {gs : List (BitVec 5)} {other : Word} {t : TileId} {s : State} {code addr : Nat}
  (hx : hdrRuns a.hdr (fetched s t) = true) (hc : a.check t (fetched s t) (begun s t) = [(code, addr)])
include hx hc

theorem faults_own : a.faults t (fetched s t) (begun s t) = [(code, addr)] := by
  simp [TileWord.faults, hx, hc]

omit hx in
/-- A word that faults by its own check, and not by an uncorrectable word, has read nothing. -/
theorem touchReads_own (hcode : code ≠ tileUE) : a.touchReads t (fetched s t) (begun s t) = begun s t := by
  simp [TileWord.touchReads, hc, hcode]

/-- The fault of a slot-A word beside a resting slot B is raised once the older matrix words have completed: until then the
bundle holds, be it that the word waits for one of them or that its fault does. -/
theorem raises_own (hi : CanIssue s t) (hb : RestsB gs [] other (fetched s t))
    (he : exec i s = .next (issue t a (decB other) s)) (ha : a.bad = false) (hgd : a.gd = gs) (hcode : code ≠ tileUE)
    (hu : a.ready t (begun s t) = true := by rfl) (hh : a.onHold = none := by rfl) (hvd : a.vd = [] := by rfl)
    (hex : a.exch = false := by rfl) :
    exec i s = .next ((begun s t).raiseOlder t code false (fetched s t).pc.toNat addr) := by
  have hpair : pairBad a (decB other) = false := pair_slotA hb hgd hvd (.inl hex)
  have hfa : a.faults t (fetched s t) (begun s t) = [(code, addr)] := faults_own hx hc
  obtain ⟨hreadyB, hfb, -⟩ := restsB hb t (begun s t)
  have hlegalB : (decB other).bad = false := hb.1
  have htouchA := touchReads_own hc hcode
  have htouchB := restsB_touchReads hb
  obtain ⟨hcan, hlt, hfetch⟩ := hi
  have hfill : s.modTile t (fun y => y.fill ((s.tile t).pc.toNat / 256)) = begun s t := rfl
  rw [he]
  congr 1
  cases hd : (fetched s t).drained with
  | true =>
    have hqueue : (fetched s t).queue = [] := by
      simp only [Tile.drained, Bool.and_eq_true, decide_eq_true_eq] at hd
      exact hd.1
    have hready : a.isReady t (fetched s t) (begun s t) = true := isReady_emptyQueue t _ hqueue hu
    unfold issue
    simp [hcan, Nat.not_le.2 hlt, hfill, hfetch, ha, hlegalB, hpair, hready, hreadyB, hfa, hfb, hd, htouchA, htouchB,
      raiseList, raiseNow, State.raiseOlder]
  | false =>
    unfold issue
    simp [hcan, Nat.not_le.2 hlt, hfill, hfetch, ha, hlegalB, hpair, hreadyB, hfa, hd, holdBundle, hh, State.raiseOlder]

end

/-! ### LD, LDU and ST -/

/-- The formats of a scalar memory word, with the bytes of their elements (R113). -/
abbrev ScalarFormat (fmt : BitVec 4) (sz : Nat) : Prop :=
  fmt = 5 ∧ sz = 1 ∨ fmt = 2 ∧ sz = 2 ∨ fmt = 0 ∧ sz = 4 ∨ fmt = 0xF ∧ sz = 8

theorem ScalarFormat.memSize {fmt : BitVec 4} {sz : Nat} (h : ScalarFormat fmt sz) : memSize fmt = sz := by
  rcases h with ⟨rfl, rfl⟩ | ⟨rfl, rfl⟩ | ⟨rfl, rfl⟩ | ⟨rfl, rfl⟩ <;> rfl

theorem ScalarFormat.dvd {fmt : BitVec 4} {sz : Nat} (h : ScalarFormat fmt sz) : sz ∣ 8 := by
  rcases h with ⟨-, rfl⟩ | ⟨-, rfl⟩ | ⟨-, rfl⟩ | ⟨-, rfl⟩ <;> decide

theorem ScalarFormat.code {fmt : BitVec 4} {sz : Nat} (h : ScalarFormat fmt sz) : fmt = 5 ∨ fmt = 2 ∨ fmt = 0 ∨ fmt = 0xF :=
  h.imp And.left (.imp And.left (.imp And.left And.left))

theorem okMA_eq_true {o : OpM} (hfmt : o.fmt = 5 ∨ o.fmt = 2 ∨ o.fmt = 0 ∨ o.fmt = 0xF) (hmode : o.mode = 0)
    (hstride : o.stride = 0) (hvm : o.vm = 0) : okMA o = true := by
  rcases hfmt with hfmt | hfmt | hfmt | hfmt <;> simp [okMA, hfmt, hmode, hstride, hvm]

theorem scalarCheck_aligned {o : OpM} {x : Tile} (hlt : elemAddr o x 0 < 0x400000)
    (hmod : elemAddr o x 0 % memSize o.fmt = 0) : scalarCheck o x = [] := by
  simp [scalarCheck, badElem_false hlt hmod]

theorem scalarCheck_bad {o : OpM} {x : Tile} (h : 0x400000 ≤ elemAddr o x 0 ∨ elemAddr o x 0 % memSize o.fmt ≠ 0) :
    scalarCheck o x = [(tileADDR, elemAddr o x 0)] := by
  have hbad : badElem (memSize o.fmt) (elemAddr o x 0) = true := by
    simp only [badElem, Bool.or_eq_true, decide_eq_true_eq]
    exact h
  simp [scalarCheck, hbad]

/-- What LD and LDU leave in the register, of the element's bytes as a number. -/
def loadedWord (signed : Bool) (sz n : Nat) : Word :=
  if signed then BitVec.ofInt 64 (toSigned (8 * sz) n) else BitVec.ofNat 64 n

section
variable {i : Instr} {t : TileId} {h : Hdr} {o : OpM} {other : Word} {s : State}
  (hi : CanIssue s t) (hb : RestsB [o.rt] [] other (fetched s t)) (hx : hdrRuns h (fetched s t) = true) (hok : okMA o = true)
include hi hb hx hok

section
variable (hlt : elemAddr o (fetched s t) 0 < 0x400000) (hmod : elemAddr o (fetched s t) 0 % memSize o.fmt = 0)
include hlt hmod

/-- An aligned load inside the shelves that meets no uncorrectable and no queued word. -/
theorem load_makes {signed : Bool} (he : exec i s = .next (issue t (wLoad signed h o) (decB other) s))
    (hq : queueClash (fetched s t).queue [(elemAddr o (fetched s t) 0, memSize o.fmt)] [] = false)
    (hbad : (fetched s t).firstBad [(elemAddr o (fetched s t) 0, memSize o.fmt)] = none) :
    let rs := [(elemAddr o (fetched s t) 0, memSize o.fmt)]
    MakesTile i t s (pastBundle ((((fetched s t).touch rs).noteReads rs).setG o.rt
      (loadedWord signed (memSize o.fmt) (readLE (fetched s t).shelf (elemAddr o (fetched s t) 0) (memSize o.fmt))))) := by
  intro rs
  obtain ⟨m, hm, hmt, hrun⟩ := exec_afterReads (a := wLoad signed h o) (t := t) (s := begun s t) hx
  rw [tile_begun] at hmt
  change m.tile t = ((fetched s t).touch rs).noteReads rs at hmt
  have heffect : (wLoad signed h o).exec t (fetched s t) (begun s t) = m.modTile t fun x => x.setG o.rt
      (loadedWord signed (memSize o.fmt) (readLE x.shelf (elemAddr o (fetched s t) 0) (memSize o.fmt))) := hrun
  have hready : (wLoad signed h o).isReady t (fetched s t) (begun s t) = true := isReady_noClash rfl rfl rfl hq
  have hfault : (wLoad signed h o).faults t (fetched s t) (begun s t) = [] :=
    faults_noBad (scalarCheck_aligned hlt hmod) (by rw [tile_begun]; exact hbad) (Tile.badMerge_nil _)
  refine makesTile_ready hi hb hx he (by simp [wLoad, hok]) rfl hready hfault (heffect ▸ hm.trans (.modTile t m _)) ?_ ?_
  · rw [heffect, State.tile_modTile_same, hmt, noteReads_shelf, touch_shelf]
  · rw [setG_pc, noteReads_pc, touch_pc]

/-- An aligned store inside the shelves that meets no uncorrectable word, no queued word and no free space of a ring. -/
theorem st_makes (hdvd : memSize o.fmt ∣ 8)
    (hq : queueClash (fetched s t).queue []
      (((List.range (memSize o.fmt)).map (elemAddr o (fetched s t) 0 + ·)).map (·, 1)) = false)
    (hbad : (fetched s t).badMerge ((List.range (memSize o.fmt)).map (elemAddr o (fetched s t) 0 + ·)) = none)
    (hfree : (fetched s t).inRingFree (elemAddr o (fetched s t) 0 / 8) = false) :
    MakesTile (.st t h o other) t s (pastBundle ((fetched s t).put
      (at' (elemAddr o (fetched s t) 0) (leBytes (memSize o.fmt) ((fetched s t).g o.rt).toNat)))) := by
  obtain ⟨m, hm, hmt, hrun⟩ := exec_noReads (w := wordSt h o) rfl t (fetched s t) (begun s t) hx
  rw [tile_begun] at hmt
  have hready : (wordSt h o).isReady t (fetched s t) (begun s t) = true := isReady_noClash rfl rfl rfl hq
  have hfault : (wordSt h o).faults t (fetched s t) (begun s t) = [] :=
    faults_noBad (scalarCheck_aligned hlt hmod) (Tile.firstBad_nil _) (by rw [tile_begun]; exact hbad)
  have hstore := storeProg_outsideFree (t := t) (s := m)
    (l := at' (elemAddr o (fetched s t) 0) (leBytes (memSize o.fmt) ((fetched s t).g o.rt).toNat))
    fun w hw => by rw [(map_word_at' hdvd hmod _ w).1 hw, hmt]; exact hfree
  rw [hmt] at hstore
  have heffect := hrun.trans hstore
  refine makesTile_ready hi (restsB_nil hb) hx exec_st (by simp [wordSt, wStore, hok]) rfl hready hfault
    (heffect ▸ hm.trans (.setTile t m _)) ?_ rfl
  rw [heffect, State.tile_setTile_same]

end

/-- A scalar access beyond the shelves or off its element's alignment raises TILE_ADDR at its address. -/
theorem scalar_raises (hbad : 0x400000 ≤ elemAddr o (fetched s t) 0 ∨ elemAddr o (fetched s t) 0 % memSize o.fmt ≠ 0) :
    ∀ i ∈ [Instr.ld t h o other, Instr.ldu t h o other, Instr.st t h o other],
      exec i s = .next ((begun s t).raiseOlder t tileADDR false (fetched s t).pc.toNat (elemAddr o (fetched s t) 0)) := by
  have hc : scalarCheck o (fetched s t) = [(tileADDR, elemAddr o (fetched s t) 0)] := scalarCheck_bad hbad
  have hload (signed : Bool) : (wLoad signed h o).bad = false := by simp [wLoad, hok]
  have hstore : (wStore h o).bad = false := by simp [wStore, hok]
  intro i hmem
  simp only [List.mem_cons, List.not_mem_nil, or_false] at hmem
  rcases hmem with rfl | rfl | rfl
  · exact raises_own (a := wLoad true h o) hx hc hi hb rfl (hload true) rfl (by decide)
  · exact raises_own (a := wLoad false h o) hx hc hi hb rfl (hload false) rfl (by decide)
  · exact raises_own (a := wStore h o) hx hc hi (restsB_nil hb) rfl hstore rfl (by decide)

end

/-! ### The statement -/

/-- Settles O5: the loads by what a read leaves, the store by what its bytes change, and the address faults of all three. -/
theorem scalarMemory : Obligations.ScalarMemory := by
  unfold Obligations.ScalarMemory
  refine ⟨?accesses, ?faults⟩
  case accesses =>
    intro t h o other s sz hi hb hx hformat hmode hstride hvm x a bytes hlt hmod
    have hok : okMA o = true := okMA_eq_true (ScalarFormat.code hformat) hmode hstride hvm
    have haddr : elemAddr o x 0 = a := elemAddr_first hmode
    have hsize : memSize o.fmt = sz := ScalarFormat.memSize hformat
    have hdvd : sz ∣ 8 := ScalarFormat.dvd hformat
    have hpos : sz ≠ 0 := by rintro rfl; simp at hdvd
    have hload {i : Instr} (signed : Bool) := load_makes (i := i) (signed := signed) hi hb hx hok (haddr ▸ hlt)
      (by rw [haddr, hsize]; exact hmod)
    have hstore := st_makes hi hb hx hok (haddr ▸ hlt) (by rw [haddr, hsize]; exact hmod) (hsize ▸ hdvd)
    rw [haddr, hsize] at hload hstore
    refine ⟨fun hq hbad => ⟨hload true rfl hq hbad, hload false rfl hq hbad⟩, fun hq hbad hfree => ?_⟩
    refine ⟨_, _, hstore hq hbad (hfree _ (div_mem_wordsOf hpos)), ?_, fun c hc => ?_, fun w => ?_⟩
    · rw [Nat.pow_mul]
      exact readLE_stored _ _ _ _
    · exact readByte_stored_other _ _ (by simpa using hc)
    · refine (put_mark x _ w).trans ?_
      simp only [map_word_at' hdvd hmod]
  case faults =>
    intro t h o other s hi hb hx hfmt hmode hstride hvm x a hbad
    have haddr : elemAddr o x 0 = a := elemAddr_first hmode
    rw [← haddr] at hbad ⊢
    exact scalar_raises hi hb hx (okMA_eq_true hfmt hmode hstride hvm) hbad

end Sys2Proof.Machine
end
